-- ==== Sys2Proof/Word.lean ====
section
/-! DEFINITION. The word types of the IH-7700: the byte of the device memory (R2) and the 32-bit word in which
control space is read and written (R28). -/
namespace Sys2Proof

/-- One byte of device memory. -/
abbrev Byte := BitVec 8

/-- One 32-bit register word (R28). -/
abbrev Word := BitVec 32

/-- A sparse map keyed by natural numbers: the keys rise strictly (the operations are in Machine/NMap.lean). -/
abbrev NMap (α : Type) := List (Nat × α)

end Sys2Proof
end

