-- ==== Sys2Proof/Syntax.lean ====
section
/-! DEFINITION. The commands of the IH-7700 block: one constructor per row of spec/opcode_table.json. The block has no
instruction stream of its own kind here: each command is a register access, an issue or completion of a work-list word
on a face, an event of one of the engines, a packet, or a pin, and names only what the row leaves to its sender (the
identity of the master, the unit, the written value, the packet). Indices that the manual numbers are `Fin`s, so that a
command names no unit that does not exist. -/
namespace Sys2Proof

/-- The 6-bit identity of a master (R46). -/
abbrev Ident := Fin 64
/-- A page index of control space (R26). -/
abbrev Page := Fin 65536
/-- A logical face (R13). -/
abbrev Face := Fin 512
/-- A physical face (R13). -/
abbrev Phys := Fin 544
/-- A winze channel (R27). -/
abbrev Chan := Fin 64
/-- A context handle (R327). -/
abbrev Handle := Fin 1024

/-- Where a launch was written: the unit region of a page (R42), or PART_CMD for a partition (R326). -/
inductive Site where
  | page (p : Page)
  | part (p : Fin 32)
deriving DecidableEq, Repr

/-- What the check bits of a memory word show when it is read (R262): the data as written, one wrong bit, or an error
that cannot be corrected. -/
inductive EccFinding where
  | clean
  | single
  | double
deriving DecidableEq, Repr

/-- Where a layer's fetch has failed to deliver (R460): the layer, and the pixel of the line at which it fails. -/
structure Underrun where
  layer : Fin 4
  pixel : Nat
deriving DecidableEq, Repr

/-- A frame as it arrives on an Adit port, and whether the device is still busy with earlier ones, so that it waits in the receive
queue (R552). -/
structure Arrival where
  frame : List Byte
  busy : Bool
deriving DecidableEq, Repr

/-- What a camera port and its pipeline find of a packet (R409, R493): nothing, a header with one corrected bit, a header that
cannot be corrected, a payload whose checksum does not match, a line for which no line buffer is free, or an uncorrectable error
in a line buffer. -/
inductive CsiFinding where
  | clean
  | corrected
  | headerBad
  | crcBad
  | overrun
  | memError
deriving DecidableEq, Repr

/-- What a camera port finds of a packet header (R493): no error, one bit that it corrects, or more than it can correct. -/
inductive CsiHeader where
  | good
  | corrected
  | bad
deriving DecidableEq, Repr

/-- The header of a CSI-2 packet whose data type is not the selected one (R492): its data type and what the port finds of it. -/
structure CsiPacket where
  dt : Nat
  header : CsiHeader
deriving DecidableEq, Repr

/-- The commands, one per row of the table. -/
inductive Instr where
  /-- REGISTER_WRITE (R5). A write to a register or field that has no row of its own, applied according to its access code and the rule that discards unlisted values. -/
  | registerWrite (id : Ident) (addr : Nat) (size : Nat) (value : Nat)
  /-- LOW_WORD_READ (R9). A read of the low word of a 64-bit register latches the high word for the next high-word read. -/
  | lowWordRead (id : Ident) (addr : Nat) (size : Nat)
  /-- RC_READ (R5). A read of an RC register returns its value and then clears it. -/
  | rcRead (id : Ident) (addr : Nat) (size : Nat)
  /-- FAULT_CLR (R38). A write to FAULT_CLR whose code matches FAULT.CODE clears FAULT. -/
  | faultClr (id : Ident) (page : Page) (value : Word)
  /-- TALLY_SEL_WRITE (R40). Writing a new source code into a SEL field clears that tally counter. -/
  | tallySelWrite (id : Ident) (page : Page) (value : Word)
  /-- TALLY_CLR (R41). Writing 1 to a CLR bit of TALLY_CTRL clears the counter, or leaves it at 1 when an event falls in the same cycle. -/
  | tallyClr (id : Ident) (page : Page) (value : Word) (events : Fin 16)
  /-- UNIT_LAUNCH (R43). UNIT_CMD LAUNCH loads the list into the bound context and starts it on every member face, subject to the enable, busy, split and shadow checks. -/
  | unitLaunch (id : Ident) (page : Page) (strict : Bool)
  /-- UNIT_ARM (R43). UNIT_CMD ARM loads the list and arms the start for UNIT_ARM_GCOUNT, or is discarded with ARM_PAST. -/
  | unitArm (id : Ident) (page : Page) (strict : Bool)
  /-- UNIT_DISARM (R43). UNIT_CMD DISARM cancels an armed launch that has not started. -/
  | unitDisarm (id : Ident) (page : Page)
  /-- UNIT_STOP (R43). UNIT_CMD STOP tears down the running or armed context of the unit, or returns a unit faulted by a failed load to IDLE. -/
  | unitStop (id : Ident) (page : Page)
  /-- UNIT_BIND_WRITE (R44). A write to UNIT_BIND binds a context slot and returns a unit faulted by a failed load to IDLE, unless the unit is loading, armed or busy. -/
  | unitBindWrite (id : Ident) (page : Page) (value : Word)
  /-- ARMED_START (R360). An armed launch starts on every member face ARM_LAT fabric cycles after the GCOUNT edge reaching UNIT_ARM_GCOUNT, or after a jump past it. -/
  | armedStart (site : Site)
  /-- LOAD_COMPLETE (R236). The loader finishes checking the fetched list words and either starts the context or sets FAULTED with LOAD_ERR. -/
  | loadComplete (site : Site)
  /-- FACE_FINISHED (R210). A face is finished once STOP has issued and all its operations have completed; the unit becomes DONE when every member face is finished. -/
  | faceFinished (face : Face)
  /-- WINZE_DATA_WRITE (R49). A write to a winze DATA word by a permitted sender, ending in bus error FULL while the channel is full. -/
  | winzeDataWrite (id : Ident) (chan : Chan) (idx : Fin 16) (value : Word)
  /-- WINZE_GO (R49). A GO write with a listed LEN sets FULL, records LEN, increments SEQ, stamps SENDER and raises a wake at the receiver. -/
  | winzeGo (id : Ident) (chan : Chan) (value : Word)
  /-- ACK_READ (R51). A read of ACK by the receiver while FULL is 1 returns CHAN_STAT, clears FULL and sets IRQ_STAT.EMPTY. -/
  | ackRead (id : Ident) (chan : Chan)
  /-- HG_ENABLE (R102). A write setting HG_CFG0.EN is accepted or refused with HG_CONFIG after the geometry, slot, partition, head and header checks. -/
  | hgEnable (id : Ident) (hg : Fin 4) (value : Word)
  /-- HG_DISABLE (R103). Clearing HG_CFG0.EN stops further band launches and clears any pending weight or slot switch. -/
  | hgDisable (id : Ident) (hg : Fin 4) (value : Word)
  /-- BAND_LAUNCH (R73). At a band's launch line the cage checks the input slot, clears the band flags, writes the launch block and launches the band list in band context i. -/
  | bandLaunch (hg : Fin 4) (frame : Word) (band : Nat)
  /-- POSE_LATCH (R80). At the pose latch line the cage copies the newest valid pose ring entry, or RENDER_POSE, into LATCHED_POSE and sets the pose flag. -/
  | poseLatch (hg : Fin 4) (frame : Word) (band : Nat)
  /-- BAND_DEADLINE (R84). At a band's deadline line the cage checks completion, stops an incomplete band context, marks its rows invalid and captures the pose store entry. -/
  | bandDeadline (hg : Fin 4) (frame : Word) (band : Nat)
  /-- BAND_FETCH (R85). When the headframe begins fetching a band that is not complete it substitutes a re-projection from an earlier frame or makes L0 transparent. -/
  | bandFetch (hg : Fin 4) (frame : Word) (band : Nat)
  /-- BAND_RECORD_WRITE (R88). When the scan of a band's last line on a head ends, the cage writes the band record and advances HG_RECIDX. -/
  | bandRecordWrite (hg : Fin 4) (frame : Word) (band : Nat) (head : Fin 4)
  /-- SLOT_LOAD (R67). A SLOT_CMD LOAD starts reading and checking a slot descriptor, or is discarded with SLOT_IN_USE. -/
  | slotLoad (id : Ident) (slot : Fin 4)
  /-- SLOT_LOAD_DONE (R67). The slot checks end, setting VALID or SLOT_STAT.ERR, and SLOT_DONE is raised. -/
  | slotLoadDone (slot : Fin 4)
  /-- SLOT_UNLOAD (R104). A SLOT_CMD UNLOAD unloads a model slot, or is discarded with SLOT_IN_USE. -/
  | slotUnload (id : Ident) (slot : Fin 4)
  /-- SCHED_WRITE (R104). SCHED_CMD WRITE copies SCHED_W0-W3 into the schedule entry, or is discarded with SCHED_BAD for entries 0-3 or TYPE BAND. -/
  | schedWrite (id : Ident)
  /-- SCHED_READ (R99). SCHED_CMD READ copies the schedule entry into SCHED_W0-W3. -/
  | schedRead (id : Ident)
  /-- SCHED_LAUNCH (R78). A LAUNCH schedule entry fires at its line and writes UNIT_LIST and UNIT_CMD LAUNCH to the target page. -/
  | schedLaunch (entry : Fin 256) (frame : Word)
  /-- SCHED_SIGNAL (R78). A SIGNAL schedule entry fires at its line and sets the named gallery flag. -/
  | schedSignal (entry : Fin 256) (frame : Word)
  /-- WEIGHT_ARM (R97). HG_WCTRL.ARM arms a weight switch, or is refused with SWITCH_REFUSED when the commit point has passed. -/
  | weightArm (id : Ident) (hg : Fin 4)
  /-- WEIGHT_CANCEL (R97). HG_WCTRL.CANCEL clears a pending weight switch before commit, or is discarded and counted after it. -/
  | weightCancel (id : Ident) (hg : Fin 4)
  /-- SLOT_SWITCH_ARM (R97). HG_SLOT_NEXT.ARM arms a slot switch under the same rules as a weight switch. -/
  | slotSwitchArm (id : Ident) (hg : Fin 4) (value : Word)
  /-- SLOT_SWITCH_CANCEL (R97). HG_SLOT_NEXT.CANCEL clears a pending slot switch before its commit. -/
  | slotSwitchCancel (id : Ident) (hg : Fin 4)
  /-- NOP (R204). Issue of a NOP word. -/
  | nop (face : Face)
  /-- LISTHDR (R196). Issue of the list header word, which acts as a NOP. -/
  | listhdr (face : Face)
  /-- LIVE (R233). Issue of a LIVE directive, which acts as a NOP; its live set applies by list position. -/
  | live (face : Face)
  /-- EXTERN (R235). Issue of an EXTERN directive, which acts as a NOP. -/
  | externDir (face : Face)
  /-- STOP (R210). Issue of STOP, which ends the face's list. -/
  | stop (face : Face)
  /-- LOOP (R207). LOOP sets a loop counter and loop start, or skips the loop on a zero count, or raises INDEX_RANGE. -/
  | loop (face : Face)
  /-- ENDLOOP (R207). ENDLOOP decrements the counter and returns to the loop start while it is nonzero. -/
  | endloop (face : Face)
  /-- BRANCH (R207). BRANCH jumps to its target when its condition holds. -/
  | branch (face : Face)
  /-- STEP (R208). STEP adds 1 to the face's step counter. -/
  | step (face : Face)
  /-- XSET (R208). XSET writes an immediate into an index register. -/
  | xset (face : Face)
  /-- XADD (R208). XADD adds an immediate to an index register modulo 2^32. -/
  | xadd (face : Face)
  /-- XLD (R209). XLD reads a face-store word and starts loading a bit field into an index register. -/
  | xld (face : Face)
  /-- XLD_COMPLETE (R209). The index register of an XLD is written and issue continues. -/
  | xldComplete (face : Face)
  /-- SIG (R212). Issue of SIG, which acts at issue when EARLY is set. -/
  | sig (face : Face)
  /-- SIG_ACT (R212). A SIG without EARLY sets or clears its flag in the cycle after every earlier word has completed. -/
  | sigAct (face : Face)
  /-- WAIT (R213). Issue of WAIT, which holds issue until its flag reads the awaited value. -/
  | wait (face : Face)
  /-- WAIT_SATISFIED (R213). The awaited flag value is seen at the start of a cycle, the wait ends and CONSUME clears a local flag. -/
  | waitSatisfied (face : Face)
  /-- COND_RELEASE (R200). A word held on its W condition issues when its COND flag reads 1. -/
  | condRelease (face : Face)
  /-- BAR (R214). Issue of BAR, which holds the face until every face of the context has issued the same barrier. -/
  | bar (face : Face)
  /-- BARRIER_RELEASE (R214). All faces of the context have issued the n-th BAR of a BID, and all waiting faces end the barrier together. -/
  | barrierRelease (handle : Handle) (bid : Fin 16)
  /-- MMA_I8 (R114). An I8 matrix operation enters the matrix queue. -/
  | mmaI8 (face : Face)
  /-- MMA_G4 (R114). An unpaired G4 matrix operation enters the matrix queue. -/
  | mmaG4 (face : Face)
  /-- MMA_G4P (R114). A paired G4 matrix operation enters the matrix queue and occupies both banks. -/
  | mmaG4p (face : Face)
  /-- MATRIX_OP_READY (R114). A matrix operation's bank becomes ready after its last step is added and its queue entry frees. -/
  | matrixOpReady (face : Face)
  /-- ACC_CLR (R118). ACC.CLR sets every element of the named banks to 0. -/
  | accClr (face : Face)
  /-- ACC_DRAIN (R120). ACC.DRAIN reads the scale vector and starts scaling and writing a bank to the face store. -/
  | accDrain (face : Face)
  /-- DRAIN_COMPLETE (R121). The last word group of a drain is written and its queue entry frees. -/
  | drainComplete (face : Face)
  /-- CFG_LOAD (R140). CFG.LOAD starts copying a lattice configuration into a resident slot. -/
  | cfgLoad (face : Face)
  /-- CFG_LOAD_COMPLETE (R139). The configuration copy ends and its checks make the slot valid or raise CFG_INVALID. -/
  | cfgLoadComplete (face : Face)
  /-- CFG_SEL (R140). CFG.SEL selects the slot for the next LAT.RUN, or raises CFG_EMPTY. -/
  | cfgSel (face : Face)
  /-- LAT_RUN (R130). LAT.RUN starts the selected configuration over its streams. -/
  | latRun (face : Face)
  /-- LAT_RUN_COMPLETE (R130). The last slot of the last iteration of a LAT.RUN ends. -/
  | latRunComplete (face : Face)
  /-- QM_MEASURE (R170). QM.MEASURE starts writing measurement records for its blocks. -/
  | qmMeasure (face : Face)
  /-- QM_CONVERT (R173). QM.CONVERT starts converting its rows into or out of a blocked format. -/
  | qmConvert (face : Face)
  /-- QM_REBLOCK (R188). QM.REBLOCK starts decoding and re-encoding rows in MODE MAX. -/
  | qmReblock (face : Face)
  /-- QM_COMPLETE (R191). A quantisation instruction writes its final row and adds its statistics. -/
  | qmComplete (face : Face)
  /-- QM_ESC (R222). QM.ESC starts merging escape and fallback entries into an accumulator bank once the bank is ready. -/
  | qmEsc (face : Face)
  /-- QM_ESC_COMPLETE (R123). The final group of escape entries merges and the bank may be drained. -/
  | qmEscComplete (face : Face)
  /-- HOIST_2D (R223). HOIST.2D reads a 2D copy descriptor and queues it on a hoist. -/
  | hoist2d (face : Face)
  /-- HOIST_3D (R223). HOIST.3D reads a 3D copy descriptor and queues it on a hoist. -/
  | hoist3d (face : Face)
  /-- HOIST_GATHER (R223). HOIST.GATHER reads a gather descriptor and queues it on a hoist. -/
  | hoistGather (face : Face)
  /-- HOIST_HALO (R223). HOIST.HALO reads a keyed halo descriptor and queues it on a hoist. -/
  | hoistHalo (face : Face)
  /-- HOIST_TAKE (R254). A hoist takes a descriptor from the head of its queue and checks fields and addresses before moving any byte. -/
  | hoistTake (hoist : Fin 80)
  /-- HOIST_COPY_COMPLETE (R256). A copy writes its last byte or receives its last acknowledgement, and sets its done flag. -/
  | hoistCopyComplete (hoist : Fin 80)
  /-- TAP_SET (R272). TAP.SET copies and checks a tap descriptor into a tap slot, or raises TAP_DESC. -/
  | tapSet (face : Face)
  /-- TAP_POS (R273). TAP.POS sets a tap slot's origin. -/
  | tapPos (face : Face)
  /-- TAP_MMA_I8 (R276). TAP.MMA.I8 runs I8 matrix steps with B operands formed by the tap generator. -/
  | tapMmaI8 (face : Face)
  /-- TAP_MMA_G4P (R276). TAP.MMA.G4P runs paired G4 matrix steps with B operands formed by the tap generator. -/
  | tapMmaG4p (face : Face)
  /-- RAS_CLAIM (R434). RAS.CLAIM asks the die tiler for the next claimable screen tile. -/
  | rasClaim (face : Face)
  /-- RAS_CLAIM_ANSWER (R435). The tiler fills the working region and writes the tile header, answering a claim. -/
  | rasClaimAnswer (face : Face)
  /-- RAS_PRIM (R437). RAS.PRIM asks the rasteriser lane for the next covering primitive of the owned tile. -/
  | rasPrim (face : Face)
  /-- RAS_PRIM_ANSWER (R437). The rasteriser lane writes the fragment buffer and header. -/
  | rasPrimAnswer (face : Face)
  /-- RAS_RELEASE (R438). RAS.RELEASE releases the owned tile, storing it and its order state when STORE is 1. -/
  | rasRelease (face : Face)
  /-- RAS_RELEASE_ANSWER (R438). The release answers once every byte has been read from the face store. -/
  | rasReleaseAnswer (face : Face)
  /-- RNG (R229). RNG starts producing Philox elements and writing them in 64-byte groups. -/
  | rng (face : Face)
  /-- RNG_COMPLETE (R229). The last element group of an RNG is written. -/
  | rngComplete (face : Face)
  /-- TIME_READ (R230). TIME.READ writes the time-unit reading of its issue cycle. -/
  | timeRead (face : Face)
  /-- GALLERY_ADDU (R230). GALLERY.ADDU starts indivisible read-modify-write additions into gallery words over the stope hoist. -/
  | galleryAddu (face : Face)
  /-- GALLERY_ADDU_COMPLETE (R230). Every addition of a GALLERY.ADDU has completed and its done flag is set. -/
  | galleryAdduComplete (face : Face)
  /-- ILLEGAL_OPCODE (R204). A word with opcode 0xF0-0xFF issues and tears down the issuing context. -/
  | illegalOpcode (face : Face)
  /-- FACE_TEST_RUN (R148). A FACE_TEST.RUN write starts a face self-test when the face is idle or carries no logical face. -/
  | faceTestRun (id : Ident) (phys : Phys)
  /-- FACE_TEST_DONE (R148). A self-test completes, sets RESULT, clears the face state and raises TEST_DONE. -/
  | faceTestDone (phys : Phys) (pass : Bool)
  /-- GFLAG_SET (R259). A write to GFLAG_SET sets a gallery flag. -/
  | gflagSet (id : Ident) (drift : Fin 8) (value : Word)
  /-- GFLAG_CLR (R259). A write to GFLAG_CLR clears a gallery flag. -/
  | gflagClr (id : Ident) (drift : Fin 8) (value : Word)
  /-- DRAM_REFRESH (R244). A DRAM channel is refreshed and delays the accesses it meets. -/
  | dramRefresh (chan : Fin 32)
  /-- SCRUB_READ (R267). A scrubber reads a word, corrects it or acts on an uncorrectable error. -/
  | scrubRead (addr : Nat) (finding : EccFinding)
  /-- SORT_JOB (R281). A write of a job descriptor address to SORT_JOB enqueues a sorter job, or ends in bus error FULL. -/
  | sortJob (id : Ident) (die : Fin 2) (addr : Nat)
  /-- SORT_FLUSH (R281). A write to SORT_FLUSH removes every queued sorter job not started. -/
  | sortFlush (id : Ident) (die : Fin 2)
  /-- SORT_JOB_START (R281). The head sorter job starts once its START flag reads 1, clearing the flag. -/
  | sortJobStart (die : Fin 2)
  /-- SORT_JOB_END (R287). A sorter job ends, writes its output header and boxes, sets DONE and raises JOB_DONE or JOB_ERR. -/
  | sortJobEnd (die : Fin 2)
  /-- ADAPT_STEP_LAUNCH (R298). The cage launches an adaptation step once its reference is complete, the previous step is decided, OLD_BUSY is 0 and HOLD is 0. -/
  | adaptStepLaunch (hg : Fin 4)
  /-- REDUCE_TAKE (R306). The reducer takes a request once every adapting group has set RED_REQ with matching keys, or abandons it with REDUCE_MISMATCH. -/
  | reduceTake
  /-- REDUCE_DONE (R302). The reduced total is written into BUF and RED_DONE is set. -/
  | reduceDone
  /-- ADAPT_DECISION (R309). At the decision line the cage arms the weight switch for a ready step, or declares it late, stops it and sends a late notice. -/
  | adaptDecision (hg : Fin 4)
  /-- AD_ENABLE (R320). A write setting AD_CFG.EN enables adaptation or is refused with AD_CONFIG. -/
  | adEnable (id : Ident) (hg : Fin 4) (value : Word)
  /-- AD_DISABLE (R320). Clearing AD_CFG.EN makes an undecided step late with cause DISABLED and sends the notice at once. -/
  | adDisable (id : Ident) (hg : Fin 4) (value : Word)
  /-- USE_SET0 (R319). AD_CMD USE_SET0 selects state set 0 as current while adaptation is disabled. -/
  | useSet0 (id : Ident) (hg : Fin 4)
  /-- USE_SET1 (R319). AD_CMD USE_SET1 selects state set 1 as current while adaptation is disabled. -/
  | useSet1 (id : Ident) (hg : Fin 4)
  /-- PART_CFG_WRITE (R349). A PART_CFG write defines a partition, discarded when it overlaps or is misaligned or after BOOT_LOCK. -/
  | partCfgWrite (id : Ident) (part : Fin 32) (value : Word)
  /-- PART_LAUNCH (R326). PART_CMD LAUNCH launches the device page's bound context on every face of a partition. -/
  | partLaunch (id : Ident) (part : Fin 32) (strict : Bool)
  /-- PART_ARM (R326). PART_CMD ARM arms a launch on a partition. -/
  | partArm (id : Ident) (part : Fin 32) (strict : Bool)
  /-- PART_DISARM (R326). PART_CMD DISARM cancels an armed partition launch. -/
  | partDisarm (id : Ident) (part : Fin 32)
  /-- PART_STOP (R326). PART_CMD STOP tears down the partition command's context. -/
  | partStop (id : Ident) (part : Fin 32)
  /-- WIN_WRITE (R348). WIN_CMD WRITE copies the staging registers into a window before BOOT_LOCK. -/
  | winWrite (id : Ident)
  /-- WIN_READ (R348). WIN_CMD READ copies a window into the staging registers. -/
  | winRead (id : Ident)
  /-- CTX_READ (R329). CTX_CMD READ copies a context entry into CTX_W0-W15. -/
  | ctxRead (id : Ident)
  /-- CTX_CREATE (R329). CTX_CMD CREATE writes a FREE entry and makes it resident in the lowest free slot. -/
  | ctxCreate (id : Ident)
  /-- CTX_MODIFY (R329). CTX_CMD MODIFY rewrites SLICE, WMASK, GSAVE, GLEN and POOL of an IDLE or DONE context. -/
  | ctxModify (id : Ident)
  /-- CTX_SWAP_OUT (R329). CTX_CMD SWAP_OUT moves an entry to the handle table and frees its slot. -/
  | ctxSwapOut (id : Ident)
  /-- CTX_SWAP_IN (R329). CTX_CMD SWAP_IN makes a swapped entry resident in the lowest free slot. -/
  | ctxSwapIn (id : Ident)
  /-- CTX_DESTROY (R329). CTX_CMD DESTROY frees an entry and its slot. -/
  | ctxDestroy (id : Ident)
  /-- CTX_CMD_DONE (R329). A context command completes, clearing BUSY and reporting ERR. -/
  | ctxCmdDone
  /-- SLICE_END (R332). An ASYNC context's slice expires and the partition switches to the next READY ASYNC context. -/
  | sliceEnd (part : Fin 32)
  /-- CTX_BLOCKED (R334). After 1,024 cycles of every face holding on flags or barriers the context becomes BLOCKED and is switched out. -/
  | ctxBlocked (part : Fin 32)
  /-- CTX_UNBLOCK (R334). A flag of a blocked context's wait set reaches its awaited value and the context becomes READY. -/
  | ctxUnblock (handle : Handle)
  /-- CONTEXT_SWITCH_COMPLETE (R337). A context switch finishes saving the outgoing and restoring the incoming context, and the incoming faces begin to issue. -/
  | contextSwitchComplete (part : Fin 32)
  /-- BATCH_SUBMIT (R345). BATCH_CMD SUBMIT queues a join or leave request for a boundary, or refuses it. -/
  | batchSubmit (id : Ident)
  /-- SD_RECOMPUTE_DONE (R356). A recomputation of SETTINGS_DIGEST completes, increments SD_SEQ and sets VALID. -/
  | sdRecomputeDone
  /-- REC_GAP_WRITE (R368). Once space for two units frees after a drop, the device writes a GAP entry. -/
  | recGapWrite (ring : Fin 2)
  /-- REC_MARK (R376). A write to REC_MARK writes a MARK entry. -/
  | recMark (id : Ident) (value : Word)
  /-- REC_ENABLE (R377). Setting REC_CTRL.EN zeroes the input record pointers and SEQ and starts recording. -/
  | recEnable (id : Ident) (value : Word)
  /-- TREC_ENABLE (R377). Setting REC_CTRL.TREC_EN zeroes the timing record pointers and starts recording. -/
  | trecEnable (id : Ident) (value : Word)
  /-- FRAME_SUM_WRITE (R366). In the first line of each output frame a FRAME_SUM entry summarising the previous frame is written. -/
  | frameSumWrite (hg : Fin 4)
  /-- REPLAY_BAND_LAUNCH (R370). In replay, a band launches once band b minus K is complete, its input is present and no hold applies. -/
  | replayBandLaunch (hg : Fin 4) (frame : Word) (band : Nat)
  /-- REPLAY_POSE_LATCH (R370). In replay, the next POSE_LATCH entry is copied into LATCHED_POSE when the band list first waits on its pose flag. -/
  | replayPoseLatch (hg : Fin 4) (frame : Word) (band : Nat)
  /-- CSI_FRAME_START (R407). A CSI-2 Frame Start packet clears the buffer's ready flags, writes SEQ_START and abandons jobs reading the buffer. -/
  | csiFrameStart (cam : Fin 4) (header : CsiHeader)
  /-- CSI_LINE (R492). A long packet of the selected data type is a line of the frame and enters the stream pipeline. -/
  | csiLine (cam : Fin 4) (finding : CsiFinding) (payload : List Byte)
  /-- CSI_DT_DROPPED (R492). A packet of another data type is discarded and counted. -/
  | csiDtDropped (cam : Fin 4) (packet : CsiPacket)
  /-- CSI_FRAME_END (R394). A Frame End packet latches the hint record, ends the frame and writes the CAMERA input record entry. -/
  | csiFrameEnd (cam : Fin 4) (header : CsiHeader)
  /-- FEATURES_COMPLETE (R407). The feature lists are written, SEQ_END and FEAT are set, and matcher and flow jobs are queued. -/
  | featuresComplete (stream : Fin 4)
  /-- MATCH_JOB_START (R410). A matcher job starts at the head of its queue, after its START flag when GRAPH is 1. -/
  | matchJobStart
  /-- MATCH_JOB_DONE (R398). A matcher job writes its records and sets MATCH. -/
  | matchJobDone
  /-- FLOW_JOB_START (R410). A flow job starts at the head of its queue, after its START flag when GRAPH is 1. -/
  | flowJobStart
  /-- FLOW_JOB_DONE (R403). A flow job writes its records and sets FLOW. -/
  | flowJobDone
  /-- ASSAY_ENABLE (R417). A write setting CTRL.EN of a stream pipeline is accepted or refused with ASSAY_CONFIG. -/
  | assayEnable (id : Ident) (stream : Fin 4)
  /-- ASSAY_DISABLE (R417). Clearing CTRL.EN of a stream pipeline abandons the frame and marks queued jobs SKIPPED. -/
  | assayDisable (id : Ident) (stream : Fin 4)
  /-- RAS_JOB (R421). A write of a descriptor address to RAS_JOB enqueues a tiler job, or ends in bus error FULL. -/
  | rasJob (id : Ident) (die : Fin 2) (addr : Nat)
  /-- RAS_FLUSH (R421). A write to RAS_FLUSH removes every queued tiler job not started. -/
  | rasFlush (id : Ident) (die : Fin 2)
  /-- RAS_JOB_START (R423). The head tiler job starts once its START flag reads 1, checks its descriptor and sets clear flags. -/
  | rasJobStart (die : Fin 2)
  /-- RAS_JOB_END (R421). A tiler job ends, resolves flagged tiles, writes the result record and sets DONE. -/
  | rasJobEnd (die : Fin 2)
  /-- HPD_RISE (R445). HEAD_STAT.HPD rises and firmware reads the sink capabilities and starts link training. -/
  | hpdRise (head : Fin 4) (caps : Nat)
  /-- LINK_TRAINING_DONE (R445). Link training ends with a trained configuration or records LINK_FAIL. -/
  | linkTrainingDone (head : Fin 4) (outcome : Nat)
  /-- LINK_LOSS (R446). A head's link is lost, interrupting only the picture at the sink. -/
  | linkLoss (head : Fin 4)
  /-- HEAD_RETRAIN (R470). Writing HEAD_CTRL.RETRAIN makes firmware retrain the head's link. -/
  | headRetrain (id : Ident) (head : Fin 4)
  /-- HEAD_ENABLE (R472). A write setting a head's CTRL.EN is accepted, starting timing at the next frame start, or refused with HEAD_CONFIG. -/
  | headEnable (id : Ident) (head : Fin 4)
  /-- LAYER_LATCH (R453). In the first cycle of line V minus 1 the head latches its layer registers, background and MUTE. -/
  | layerLatch (head : Fin 4)
  /-- HEAD_REPHASE (R451). After a jump leaves a phase error above 1,000 ns, the head completes the frame and sends blanking until the next frame start. -/
  | headRephase (head : Fin 4)
  /-- LAYER_UNDERRUN (R460). A due pixel lacks a needed byte, so the layer is switched off for the rest of the frame. -/
  | layerUnderrun (head : Fin 4) (under : Underrun)
  /-- HOLD_REQUEST (R467). Setting HEAD_CTRL.HOLD_REQ is accepted or cleared with HOLD_REFUSED. -/
  | holdRequest (id : Ident) (head : Fin 4)
  /-- HOLD_ENTER (R467). After the Panel Replay updates the head sets HOLDING and puts the link into low power. -/
  | holdEnter (head : Fin 4)
  /-- HOLD_EXIT_REQUEST (R469). Clearing HOLD_REQ during hold wakes the link within 8 lines. -/
  | holdExitRequest (id : Ident) (head : Fin 4)
  /-- HOLD_EXIT (R469). At line 0 of the first frame at least 8 lines after the clear, full pixel data resumes and HOLDING clears. -/
  | holdExit (head : Fin 4)
  /-- ST2110_PACKET (R480). An ST 2110-20 datagram is matched to a flow, deduplicated, mapped to a frame and unpacked into the colour plane. -/
  | st2110Packet (port : Fin 4) (frame : List Byte)
  /-- ANC_PACKET (R482). An ST 2110-40 ANC packet with the configured DID and SDID writes a pose record into the slot. -/
  | ancPacket (port : Fin 4) (frame : List Byte)
  /-- URELUD_PACKET (R484). A Urelud datagram is checked and its pixels or pose written into the slot. -/
  | ureludPacket (port : Fin 4) (frame : List Byte)
  /-- FLOW_TIMEOUT (R488). FLOW_TIMEOUT passes after a flow's last packet of a frame, ending that frame. -/
  | flowTimeout (flow : Fin 16)
  /-- FLOW_ENABLE (R502). A write setting a flow's CTRL.EN is accepted or refused with FLOW_CONFIG. -/
  | flowEnable (id : Ident) (flow : Fin 16)
  /-- FLOW_DISABLE (R502). Clearing a flow's CTRL.EN ends its open frame. -/
  | flowDisable (id : Ident) (flow : Fin 16)
  /-- CAM_ENABLE (R503). A write setting a camera port's CTRL.EN is accepted or refused with CAM_CONFIG. -/
  | camEnable (id : Ident) (cam : Fin 4)
  /-- SPI_ENABLE (R504). A write setting an SPI port's CTRL.EN is accepted or refused with SPI_CONFIG. -/
  | spiEnable (id : Ident) (port : Fin 2)
  /-- DRDY_EDGE (R498). An active data-ready edge is accepted and stamped, starting or pending a transaction, or rejected as a glitch. -/
  | drdyEdge (port : Fin 2)
  /-- SPI_TRANSACTION_DONE (R497). An SPI transaction ends and writes its ring entry and MOTION input record entry. -/
  | spiTransactionDone (port : Fin 2) (data : List Byte)
  /-- DRDY_STUCK (R498). The data-ready input has been held active for 2P, so STUCK is set and synthetic starts begin. -/
  | drdyStuck (port : Fin 2)
  /-- SPI_SYNTH_START (R498). While STUCK, a synthetic transaction starts every P. -/
  | spiSynthStart (port : Fin 2)
  /-- DRDY_LOST (R498). No accepted edge for 2P while inactive sets LOST. -/
  | drdyLost (port : Fin 2)
  /-- TS_CAPTURE (R525). A PTP event message crossing a port's media interface is stamped into the channel queue, or dropped when full. -/
  | tsCapture (chan : Fin 12) (info : Nat)
  /-- TS_POP (R525). A write to TS_POP removes the oldest timestamp entry. -/
  | tsPop (id : Ident) (chan : Fin 12)
  /-- CLK_RATE_WRITE (R509). A privileged write of CLK_RATE rebases OFFSET and BASE and installs the new rate without a jump. -/
  | clkRateWrite (id : Ident) (clk : Fin 3) (rate : Nat)
  /-- CLK_ADJ (R516). A write of the high word of CLK_ADJ requests a difference that is stepped, slewed or refused. -/
  | clkAdj (id : Ident) (clk : Fin 3) (delta : Nat)
  /-- CLK_SET (R515). A write of CLK_SET_NS requests an absolute set as a difference under the jump rules. -/
  | clkSet (id : Ident) (clk : Fin 3) (sec : Nat) (ns : Word)
  /-- JUMP_ARM (R518). Writing CLK_CTRL.JUMP_ARM arms the clock for one step. -/
  | jumpArm (id : Ident) (clk : Fin 3)
  /-- DISARM (R518). Writing CLK_CTRL.DISARM clears the arm. -/
  | disarm (id : Ident) (clk : Fin 3)
  /-- SLEW_POINT (R517). Every 20,000 ticks while slew remains, the clock gains or loses 1 ns and the slew moves towards zero. -/
  | slewPoint (clk : Fin 3)
  /-- CLK_NS_READ (R513). A read of CLK_NS latches CLK_SEC of the same clock. -/
  | clkNsRead (id : Ident) (clk : Fin 3)
  /-- TU_SOURCE_WRITE (R532). A write to TU_SOURCE changes a calendar's source and puts it into ACQUIRING or FREE at the next tick. -/
  | tuSourceWrite (id : Ident) (value : Word)
  /-- PTP_MEASUREMENT (R521). The servo measures an offset, writes CLK_OFFSET_MEAS and requests a phase correction. -/
  | ptpMeasurement (clk : Fin 3) (offset : Int)
  /-- ANNOUNCE_TIMEOUT (R521). The announce receipt timeout expires, so the master is lost and the servo enters HOLDOVER. -/
  | announceTimeout (clk : Fin 3)
  /-- GENLOCK_EDGE (R527). An active GENLOCK edge is rejected as a glitch or accepted, stamped and used by the loop. -/
  | genlockEdge
  /-- REF_LOST (R528). No usable GENLOCK edge for 2P sets REF_LOST and enters HOLDOVER. -/
  | refLost
  /-- ADPOR_DATAGRAM (R542). An Adpor datagram is checked, authenticated, deduplicated by sequence and its records run in order. -/
  | adporDatagram (port : Fin 2) (arrival : Arrival)
  /-- REG_READ (R545). An Adpor REG_READ record reads one word. -/
  | regRead (sess : Fin 8) (addr : Nat)
  /-- REG_WRITE (R545). An Adpor REG_WRITE record writes one word. -/
  | regWrite (sess : Fin 8) (addr : Nat) (value : Word)
  /-- BURST_READ (R546). An Adpor BURST_READ record reads N bytes in ascending order. -/
  | burstRead (sess : Fin 8) (addr : Nat) (len : Nat)
  /-- BURST_WRITE (R546). An Adpor BURST_WRITE record writes N bytes in ascending order. -/
  | burstWrite (sess : Fin 8) (addr : Nat) (data : List Byte)
  /-- WINZE_SEND (R549). An Adpor WINZE_SEND record writes DATA words and GO as sender. -/
  | winzeSend (sess : Fin 8) (chan : Chan) (words : List Word)
  /-- WINZE_ACK (R549). An Adpor WINZE_ACK record reads CHAN_STAT, DATA and ACK as receiver. -/
  | winzeAck (sess : Fin 8) (chan : Chan)
  /-- STREAM_CTRL (R550). An Adpor STREAM_CTRL record selects the event conditions, repeat and port of the session. -/
  | streamCtrl (sess : Fin 8) (body : List Byte)
  /-- ADPOR_EVENT_SEND (R550). A selected condition arises and an EVENT frame is sent within 20 µs. -/
  | adporEventSend (sess : Fin 8) (cond : Nat)
  /-- ADPOR_EVENT_REPEAT (R550). Every REPEAT ms while the condition stands the event is sent again. -/
  | adporEventRepeat (sess : Fin 8) (cond : Nat)
  /-- QBV_COMMIT (R537). QBV_CMD.COMMIT copies the staging gate list into the pending list, or is discarded. -/
  | qbvCommit (id : Ident) (port : Fin 2)
  /-- QBV_CHANGE (R537). At base plus k cycles the pending gate list becomes operating. -/
  | qbvChange (port : Fin 2)
  /-- QBV_GATE_ENTRY (R536). A gate control list entry's interval begins and sets the gates. -/
  | qbvGateEntry (port : Fin 2)
  /-- CB_STREAM_RESET (R539). A frame elimination stream entry is freed after RESET ms without a frame. -/
  | cbStreamReset (idx : Fin 8)
  /-- BOOT_REQ (R554). The boot ROM sends BOOT_REQ once per second until a valid offer arrives. -/
  | bootReq
  /-- BOOT_OFFER (R554). A BOOT_OFFER with a valid tag starts reading the image. -/
  | bootOffer (port : Fin 2) (frame : List Byte)
  /-- BOOT_DATA (R554). A BOOT_DATA matching the outstanding read is taken and the next read is sent. -/
  | bootData (port : Fin 2) (frame : List Byte)
  /-- BOOT_READ_TIMEOUT (R554). A BOOT_READ unanswered for 50 ms is resent, up to 8 times, then net boot restarts. -/
  | bootReadTimeout
  /-- BOOT_PROVISION (R595). A BOOT_PROVISION record writes a new K_P and rederives the session keys. -/
  | bootProvision (port : Fin 2) (frame : List Byte)
  /-- PROVISION_TIMEOUT (R595). The provisioning listen lasts 10 s without an accepted record, and boot continues. -/
  | provisionTimeout
  /-- BOOT_ANNOUNCE (R594). At BOOT_LOCK and every second until each session has executed a request, firmware sends BOOT_ANNOUNCE. -/
  | bootAnnounce
  /-- XC_ENABLE (R557). Setting a crosscut port's CTRL.EN starts training. -/
  | xcEnable (id : Ident) (port : Fin 4)
  /-- XC_TRAINING_DONE (R559). Training ends with the port UP, MISMATCH or PEER_RESET. -/
  | xcTrainingDone (port : Fin 4) (peer : Nat)
  /-- MEM_WR (R564). A MEM_WR flit writes bytes at the far device and is answered with MEM_ACK. -/
  | memWr (port : Fin 4) (flit : List Byte)
  /-- MEM_RD (R564). A MEM_RD flit reads bytes at the far device and is answered with MEM_RSP. -/
  | memRd (port : Fin 4) (flit : List Byte)
  /-- MEM_RSP (R564). A MEM_RSP flit delivers read bytes and status to the requester. -/
  | memRsp (port : Fin 4) (flit : List Byte)
  /-- MEM_ACK (R564). A MEM_ACK flit acknowledges a remote write with its status. -/
  | memAck (port : Fin 4) (flit : List Byte)
  /-- HALO (R565). A HALO flit is key-checked and its strip bytes written, setting halo flags on acceptance. -/
  | halo (port : Fin 4) (flit : List Byte)
  /-- REDUCE (R566). A REDUCE flit carries a keyed chunk through the reduction passes. -/
  | reduce (port : Fin 4) (flit : List Byte)
  /-- BCAST_LAUNCH (R568). A LAUNCH broadcast later than the last from its origin is applied as an ARM and forwarded. -/
  | bcastLaunch (port : Fin 4) (flit : List Byte)
  /-- BCAST_LATE (R311). A late notice is forwarded once and drops an undecided or armed step with cause REMOTE. -/
  | bcastLate (port : Fin 4) (flit : List Byte)
  /-- POSE (R573). A forwarded POSE flit gives the STANDBY device the pose to latch for a band. -/
  | pose (port : Fin 4) (flit : List Byte)
  /-- HEARTBEAT (R569). At each GCOUNT edge that is a multiple of 4 a HEARTBEAT flit is sent on every UP port. -/
  | heartbeat
  /-- HEARTBEAT_RECEIVE (R570). A heartbeat arriving in its window resets the consecutive miss count. -/
  | heartbeatReceive (port : Fin 4) (flit : List Byte)
  /-- XC_HB_MISS (R570). No heartbeat for GCOUNT g by 2,048 ns after the local edge counts a miss. -/
  | xcHbMiss (port : Fin 4)
  /-- FLIT_NAK (R561). A NAK makes the sender replay from the named SEQ. -/
  | flitNak (port : Fin 4) (seq : Nat)
  /-- XC_LINK_RETRAIN (R562). After 16 replays of one flit or the loss of a lane the port retrains. -/
  | xcLinkRetrain (port : Fin 4)
  /-- RETRAIN (R581). XC_CTRL.RETRAIN retrains a crosscut port. -/
  | retrain (id : Ident) (port : Fin 4)
  /-- RESYNC (R562). XC_CTRL.RESYNC discards held flits and starts training afresh. -/
  | resync (id : Ident) (port : Fin 4)
  /-- PAIR_ENABLE (R575). Setting PAIR_CFG.EN deasserts FAULT_OUT unless an unrepairable fault has occurred. -/
  | pairEnable (id : Ident) (value : Word)
  /-- PEER_FAULT (R576). PEER_FAULT is recognised after holding its level for 3 reference cycles. -/
  | peerFault (level : Bool)
  /-- TAKE (R577). PAIR_CTRL.TAKE requests a takeover by the STANDBY device. -/
  | take (id : Ident)
  /-- TAKEOVER (R577). At the first line start after a takeover event the STANDBY device unmutes its heads, asserts TAKE_OUT and becomes ACTIVE. -/
  | takeover
  /-- TAKE_CLR (R579). PAIR_CTRL.TAKE_CLR deasserts TAKE_OUT, sets ROLE STANDBY and mutes the heads at their next latch. -/
  | takeClr (id : Ident)
  /-- FAULT_SET (R575). PAIR_CTRL.FAULT_SET asserts FAULT_OUT until the next reset. -/
  | faultSet (id : Ident)
  /-- BC_SEND (R583). BC_CMD SEND takes the next NUMBER, applies the launch locally and sends it on WALL and PAIR ports. -/
  | bcSend (id : Ident) (strict : Bool)
  /-- BOOT_LOCK (R596). A write of BOOT_LOCK by the boot agent closes the boot window and computes BIND_DIGEST. -/
  | bootLock (id : Ident)
  /-- SVN_COMMIT (R598). SVN_CMD.COMMIT blows SVN_FLOOR fuses up to the running image's SVN. -/
  | svnCommit (id : Ident)
  /-- INSTALL (R604). INST_CMD GO starts checking and programming a block into flash. -/
  | install (id : Ident) (kind : Nat)
  /-- INST_DONE (R604). An install ends with its RESULT and raises INST_DONE. -/
  | instDone
  /-- RESTORE_FACTORY (R606). CAL_CMD.RESTORE_FACTORY, or its winze message, erases the overlay and pends a calibration change. -/
  | restoreFactory (id : Ident)
  /-- CAL_APPLIED (R606). At the next band boundary the pending calibration takes effect. -/
  | calApplied
  /-- ATT_GO (R602). ATT_CMD.GO starts producing a signed attestation report. -/
  | attGo (id : Ident)
  /-- ATT_DONE (R602). The attestation report is written and ATT_STAT set. -/
  | attDone
  /-- NV_IPV4_WRITE (R607). A write to NV_IPV4 commits the net-boot address to the non-volatile store. -/
  | nvIpv4Write (id : Ident) (value : Word)
  /-- POWER_ON_RESET (R612). PORST_N low resets every register and store, and its release starts the reset and boot sequence. -/
  | powerOnReset (straps : Nat)
  /-- AON_UNDERVOLTAGE (R611). An undervoltage on VDD_AON causes a power-on reset. -/
  | aonUndervoltage
  /-- WARM_RESET (R612). RESET_N low for at least 1 µs resets everything outside the always-on domain and reopens the boot window. -/
  | warmReset
  /-- RST_CMD_WARM (R612). A write of PWR.RST_CMD.WARM causes a warm reset. -/
  | rstCmdWarm (id : Ident)
  /-- ALIGNMENT_EDGE (R615). The 64th REFCLK edge after PLL lock releases every clock-domain crossing. -/
  | alignmentEdge
  /-- BOOT_STEP_COMPLETE (R589). A boot step that takes time, such as DRAM bring-up or image read and verification, completes and the next step runs. -/
  | bootStepComplete (outcome : Nat)
  /-- PWR_STATE_RUN (R622). PWR_STATE REQ Run starts a change to Run. -/
  | pwrStateRun (id : Ident)
  /-- PWR_STATE_IDLE (R622). PWR_STATE REQ Idle starts a change to Idle, or fails its entry condition. -/
  | pwrStateIdle (id : Ident)
  /-- PWR_STATE_STANDBY (R622). PWR_STATE REQ Standby starts a change to Standby, or fails its entry condition. -/
  | pwrStateStandby (id : Ident)
  /-- STATE_DONE (R623). A device power-state change completes and STATE_DONE is raised. -/
  | stateDone
  /-- DOM_REQ_WRITE (R619). A DOM_REQ write requests domains on or off, with refusals recorded in PWR_STAT. -/
  | domReqWrite (id : Ident) (value : Word)
  /-- DOMAIN_POWERUP (R618). A domain finishes powering up, its registers take reset values and its stores are zeroed. -/
  | domainPowerup (dom : Fin 28)
  /-- THERMAL_SAMPLE (R627). Every 100 µs the device takes T_max and decides a throttle step change. -/
  | thermalSample (readings : List Word)
  /-- THROTTLE_RESUME (R628). After the 1.28 µs pause the fabric clock resumes at the new step and crossings are released. -/
  | throttleResume
  /-- FACE_HW (R640). A face check mismatch stops the partition, tears down its running contexts and substitutes the spare. -/
  | faceHw (phys : Phys)
  /-- SPARE_TEST_TIMER (R644). Every 60 s firmware tests each idle spare, marking it unavailable with SPARE_BAD on failure. -/
  | spareTestTimer (stope : Fin 32)
  /-- CANARY_KICK (R646). Firmware kicks a core's canary. -/
  | canaryKick (core : Ident)
  /-- CANARY_EXPIRY (R647). A canary expires and the device restarts the core, tears down contexts or asserts FAULT_OUT. -/
  | canaryExpiry (core : Ident)
  /-- CORE_RESTART_DONE (R647). A restarted core runs again from the firmware region and pending winze wakes are raised again. -/
  | coreRestartDone (core : Ident)
  /-- SUPPLY_WARN (R651). A supply deviation beyond WARN for 10 µs sets WARN. -/
  | supplyWarn (point : Fin 24)
  /-- SUPPLY_WARN_CLEAR (R651). A point back within WARN for 10 µs clears WARN. -/
  | supplyWarnClear (point : Fin 24)
  /-- SUPPLY_UV (R651). A deviation below FAULT for 1 µs sets LOW and raises the unrepairable SUPPLY_UV. -/
  | supplyUv (point : Fin 24)
  /-- SUPPLY_OV (R651). A deviation above FAULT for 1 µs sets HIGH and raises the unrepairable SUPPLY_OV. -/
  | supplyOv (point : Fin 24)
  /-- SUMP_IDX (R637). A write to SUMP_IDX copies a sump entry into SUMP_E0-E7. -/
  | sumpIdx (id : Ident) (value : Word)
  /-- LINE_START (R459). At each line start of a head's display timing on CAL_DISPLAY the head begins fetching the next line of each enabled layer, composes and sends the line, and at line 0 of a frame brings switched-off layers back and moves UNDERRUN to UNDERRUN_LAST. -/
  | lineStart (head : Fin 4)
  /-- BINNING_COMPLETE (R440). The tiler finishes binning the listed tiles of a pass, so its tiles become claimable, AVAIL is set, held claims are answered and PHASE changes from binning to rendering. -/
  | binningComplete (die : Fin 2)
  /-- DRDY_INACTIVE (R498). The data-ready input of an SPI port goes inactive while STUCK is set, clearing STUCK and ending synthetic starts. -/
  | drdyInactive (port : Fin 2)
  /-- FLIT_DISCARDED (R561). A crosscut receiver gets a flit whose CRC fails or whose SEQ is not the next expected, discards it, counts it in XC_CRC_ERR or XC_REPLAYS and sends NAK. -/
  | flitDiscarded (port : Fin 4) (crc : Bool)
  /-- ADIT_LINK_CHANGE (R556). An Adit port's link comes up or goes down, changing ADIT_STAT.LINK_UP and raising LINK_CHANGE. -/
  | aditLinkChange (port : Fin 2) (up : Bool)
  /-- INGRESS_LINK_CHANGE (R499). An ingress port's link or FEC lock is gained or lost, changing PORT_STAT.LINK_UP and FEC_LOCK. -/
  | ingressLinkChange (port : Fin 4) (up : Bool) (fec : Bool)
deriving DecidableEq, Repr

end Sys2Proof
end

