-- ==== Sys2Proof/Decode.lean ====
section
/-! DEFINITION. The command table of the manual gives its rows no bits: commands are named, not spelled by a word, so
that no word decodes to one (INVENTORY.md, Instructions). -/
namespace Sys2Proof

/-- The command that a word spells by the table's bits: none, since no row has bits. -/
def decodeTableWord (_nbits _w : Nat) : Option Instr := none

end Sys2Proof
end

