-- ==== Sys2Proof/Machine/Bits.lean ====
section
/-! DEFINITION. Bit fields, sign extension, rounding and byte order (R2, R3, R4): the plain arithmetic by which the
manual's fields are read from numbers, and the CRC-32 of frames and flits (R475, R560). -/
namespace Sys2Proof.Machine

/-- Field [hi:lo] of a number (R2). -/
def fld (v hi lo : Nat) : Nat := (v / 2 ^ lo) % 2 ^ (hi + 1 - lo)

/-- Bit `b` of a number. -/
def bit (v b : Nat) : Bool := (v / 2 ^ b) % 2 == 1

/-- A number with field [hi:lo] replaced by `x` (taken modulo the field's size). -/
def setFld (v hi lo x : Nat) : Nat :=
  (v / 2 ^ (hi + 1)) * 2 ^ (hi + 1) + (x % 2 ^ (hi + 1 - lo)) * 2 ^ lo + v % 2 ^ lo

/-- A number with bit `b` set or cleared. -/
def setBit (v b : Nat) (x : Bool) : Nat := setFld v b b (if x then 1 else 0)

/-- 1 for true and 0 for false, as a field reads. -/
def b2n (x : Bool) : Nat := if x then 1 else 0

/-- The two's-complement reading of an `n`-bit field (R4). -/
def sext (n v : Nat) : Int := if v % 2 ^ n < 2 ^ (n - 1) then (v % 2 ^ n : Nat) else (v % 2 ^ n : Nat) - (2 ^ n : Nat)

/-- The `n`-bit two's-complement field that holds an integer modulo 2^n. -/
def toField (n : Nat) (x : Int) : Nat := (x % (2 ^ n : Nat)).toNat

/-- An integer held between two bounds. -/
def clampI (lo hi x : Int) : Int := if x < lo then lo else if hi < x then hi else x

/-- `ceil(a / b)`. -/
def ceilDiv (a b : Nat) : Nat := (a + b - 1) / b

/-- Quotient rounded to the nearest integer, ties to even (denominator positive). -/
def rneDiv (a : Int) (b : Nat) : Int :=
  let q := a / (b : Int)
  let r := a % (b : Int)
  if 2 * r < b then q else if (b : Int) < 2 * r then q + 1 else if q % 2 = 0 then q else q + 1

/-- The number that `n` bytes spell, the byte of index 0 least significant (R2). -/
def leNat : List Byte → Nat
  | [] => 0
  | b :: bs => b.toNat + 256 * leNat bs

/-- The number that bytes spell, the first byte most significant (R3). -/
def beNat (bs : List Byte) : Nat := bs.foldl (fun a b => a * 256 + b.toNat) 0

/-- The `n` bytes of a number, least significant first (R2). -/
def leBytes : Nat → Nat → List Byte
  | 0, _ => []
  | n + 1, v => BitVec.ofNat 8 v :: leBytes n (v / 256)

/-- The `n` bytes of a number, most significant first (R3). -/
def beBytes (n v : Nat) : List Byte := (leBytes n v).reverse

/-- The `n` elements of a list from index `i`, as far as the list goes. -/
def sliceL {α : Type} (xs : List α) (i n : Nat) : List α := (xs.drop i).take n

/-- The little-endian number in `n` bytes from index `i` of a byte list. -/
def leAt (bs : List Byte) (i n : Nat) : Nat := leNat (sliceL bs i n)

/-- The number in `n` bytes from index `i` of a byte list, the first byte most significant. -/
def beAt (bs : List Byte) (i n : Nat) : Nat := beNat (sliceL bs i n)

/-- Element `i` of a list, or the given default. -/
def nth {α : Type} (d : α) (xs : List α) (i : Nat) : α := (xs[i]?).getD d

/-- A list with element `i` replaced (unchanged when it has none). -/
def setNth {α : Type} (xs : List α) (i : Nat) (v : α) : List α := xs.set i v

/-- The integer square root, by bits from the highest. -/
def isqrtGo : Nat → Nat → Nat → Nat
  | 0, _, r => r
  | k + 1, n, r => let t := r + 2 ^ k; isqrtGo k n (if t * t ≤ n then t else r)

/-- The largest r with r² ≤ n, for n below 2^(2·bits). -/
def isqrt (bits n : Nat) : Nat := isqrtGo bits n 0

/-- All indices of a list at which a property holds. -/
def idxWhere {α : Type} (p : α → Bool) (xs : List α) : List Nat :=
  (List.range xs.length).filter fun i => ((xs[i]?).map p).getD false

/-! ### CRC-32 (R475, R560) -/

/-- One bit step of the reflected CRC-32. -/
def crcStep (c : Nat) : Nat := if c % 2 = 1 then (c / 2) ^^^ 0xEDB88320 else c / 2

/-- A byte taken into the CRC. -/
def crcByte (c : Nat) (b : Byte) : Nat := (List.range 8).foldl (fun v _ => crcStep v) (c ^^^ b.toNat)

/-- CRC-32 as in IEEE 802.3. -/
def crc32 (bs : List Byte) : Nat := (bs.foldl crcByte 0xFFFFFFFF) ^^^ 0xFFFFFFFF

end Sys2Proof.Machine
end

