-- ==== Sys2Proof/Machine/NMap.lean ====
section
/-! DEFINITION. The operations on sparse maps and on byte memory: finding, placing and removing an entry, keeping the
keys strictly rising. An unlisted memory address reads as 0 (R618 for galleries and face stores; log entry 3 for DRAM). -/
namespace Sys2Proof.Machine

/-- The entry of a key. -/
def NMap.find {α : Type} : NMap α → Nat → Option α
  | [], _ => none
  | (j, v) :: m, k => if j = k then some v else NMap.find m k

/-- The entry of a key, or the default. -/
def NMap.get {α : Type} (d : α) (m : NMap α) (k : Nat) : α := (NMap.find m k).getD d

/-- The map with key `k` at value `v`. -/
def NMap.put {α : Type} : NMap α → Nat → α → NMap α
  | [], k, v => [(k, v)]
  | (j, w) :: m, k, v =>
    if k < j then (k, v) :: (j, w) :: m else if k = j then (k, v) :: m else (j, w) :: NMap.put m k v

/-- The map without key `k`. -/
def NMap.del {α : Type} : NMap α → Nat → NMap α
  | [], _ => []
  | (j, w) :: m, k => if j = k then m else (j, w) :: NMap.del m k

/-- The map with key `k` at `v`, where an entry equal to the default is not listed. -/
def NMap.putD {α : Type} [DecidableEq α] (d : α) (m : NMap α) (k : Nat) (v : α) : NMap α :=
  if v = d then NMap.del m k else NMap.put m k v

/-- The keys rise strictly. -/
def NMap.rising {α : Type} : NMap α → Bool
  | [] => true
  | [_] => true
  | (j, _) :: (k, w) :: m => decide (j < k) && NMap.rising ((k, w) :: m)

/-- The map without the keys from `lo` up to `hi` (not included). -/
def NMap.delRange {α : Type} (m : NMap α) (lo hi : Nat) : NMap α := m.filter fun e => decide (e.1 < lo) || decide (hi ≤ e.1)

/-- A sorted set of numbers: membership. -/
def NSet.has (m : List Nat) (k : Nat) : Bool := m.contains k

/-- A sorted set of numbers with `k` added. -/
def NSet.add : List Nat → Nat → List Nat
  | [], k => [k]
  | j :: m, k => if k < j then k :: j :: m else if k = j then j :: m else j :: NSet.add m k

/-- A sorted set of numbers with `k` removed. -/
def NSet.del (m : List Nat) (k : Nat) : List Nat := m.filter fun j => decide (j ≠ k)

/-- A sorted set of numbers with `k` added or removed. -/
def NSet.set (m : List Nat) (k : Nat) (v : Bool) : List Nat := if v then NSet.add m k else NSet.del m k

/-- A memory: bytes by address; unlisted addresses read as 0. -/
abbrev Memory := NMap Byte

/-- The byte at an address. -/
def Memory.read (m : Memory) (a : Nat) : Byte := NMap.get 0 m a

/-- The memory with one byte written; writing 0 removes the entry, so that equal memories are equal lists. -/
def Memory.write (m : Memory) (a : Nat) (b : Byte) : Memory := NMap.putD 0 m a b

/-- The canonical form: addresses strictly rising, no byte listed that equals what an unlisted address reads as. -/
def Memory.wf (m : Memory) : Bool := NMap.rising m && m.all fun e => decide (e.2 ≠ 0)

/-- `n` bytes from an address. -/
def Memory.readBytes (m : Memory) (a : Nat) : Nat → List Byte
  | 0 => []
  | n + 1 => Memory.read m a :: Memory.readBytes m (a + 1) n

/-- Bytes written from an address upwards, in ascending order. -/
def Memory.writeBytes (m : Memory) (a : Nat) : List Byte → Memory
  | [] => m
  | b :: bs => Memory.writeBytes (Memory.write m a b) (a + 1) bs

/-- The little-endian number in `n` bytes from an address (R2). -/
def Memory.readLe (m : Memory) (a n : Nat) : Nat := leNat (Memory.readBytes m a n)

/-- A number written as `n` little-endian bytes (R2). -/
def Memory.writeLe (m : Memory) (a n v : Nat) : Memory := Memory.writeBytes m a (leBytes n v)

/-- The memory with every byte of a range 0. -/
def Memory.zeroRange (m : Memory) (lo hi : Nat) : Memory := NMap.delRange m lo hi

end Sys2Proof.Machine
end

