-- ==== Sys2Proof/Config.lean ====
section
/-! DEFINITION. What one device or its maker fixes, and the free values: constants without a body, so that no proof can
see what they are (log entries 5 and 8). -/
namespace Sys2Proof.Config

/-- The device is of clock grade B (720 MHz); grade A otherwise (R1). -/
opaque gradeB : Bool
/-- Serial number of the fuses (R607). -/
opaque serial : BitVec 64
/-- ROOT_DIGEST of the fuses (chapter Boot, stores). -/
opaque rootDigest : BitVec 256
/-- FACT_DIGEST of the fuses (chapter Boot, stores). -/
opaque factDigest : BitVec 256
/-- The fuses pass their parity check (R589 step 1). -/
opaque fusesGood : Bool
/-- SVN_FLOOR as the fuses hold it when the model starts, 0 to 32 (R607). -/
opaque svnFloor : Fin 33
/-- K_P in the non-volatile store when the model starts; none when unset (R593). -/
opaque nvKey : Option (BitVec 256)
/-- RESET_COUNT in the non-volatile store when the model starts (R589). -/
opaque nvResetCount : BitVec 64
/-- LEAF_LIMIT in the non-volatile store when the model starts (R601). -/
opaque nvLeafLimit : BitVec 21
/-- The net-boot address in the non-volatile store when the model starts (R607). -/
opaque nvIpv4 : BitVec 32
/-- The identity public key, word by word (R607). -/
opaque idPub : Nat → BitVec 32
/-- The bytes of the board's flash when the model starts (R587). -/
opaque flash : Nat → BitVec 8
/-- XMSS^MT verification inside the security block (R591): public key, signed bytes and signature. -/
opaque xmssVerify : List (BitVec 8) → List (BitVec 8) → List (BitVec 8) → Bool
/-- Byte `i` of the XMSS signature that the identity key's leaf gives over bytes (R602). -/
opaque xmssSign : Nat → List (BitVec 8) → Nat → BitVec 8
/-- The free value drawn as the n-th: nothing constrains it (log entry 8). -/
opaque freeValue : Nat → BitVec 64

/-- The bytes in which the line buffers hold the normalised pixels of a camera frame, over which its digest is formed: the manual
does not state their layout (log entry 34). -/
opaque lineBytes : List Nat → List (BitVec 8)
/-- LOG2 of a zero or a negative number, for which the manual states no result (log entry 8). -/
opaque log2Open : BitVec 32 → BitVec 32
/-- MIN and MAX (false, true) of two binary32 patterns that no order separates: a NaN, or zeros of both signs (log entry
8). -/
opaque minMaxOpen : Bool → BitVec 32 → BitVec 32 → BitVec 32

end Sys2Proof.Config
end

