-- ==== Sys2Proof/Machine/Pages.lean ====
section
/-! DEFINITION. The pages of control space (R26, R27): which indices are assigned, their class, instance, level, power
domain (R616) and whether they carry the unit region; and the device address map (R240). -/
namespace Sys2Proof.Machine

/-- Base of control space (R26). -/
def ctlBase : Nat := 0x5000000000
/-- Base of the galleries (R240). -/
def galBase : Nat := 0x4000000000
/-- Base of the face-store windows (R240). -/
def fsBase : Nat := 0x4800000000
/-- Base of the remote windows (R240). -/
def remBase : Nat := 0x8000000000
/-- Size of the DRAM (R240). -/
def dramSize : Nat := 0xC00000000
/-- Size of all galleries (R240). -/
def galSize : Nat := 0x8000000
/-- Size of one gallery (R240). -/
def galOne : Nat := 0x1000000
/-- Size of a face store (R240). -/
def fsSize : Nat := 0x40000
/-- The firmware region of DRAM (R588). -/
def fwBase : Nat := 0xBF0000000

/-- The parts of the device address space (R240). -/
inductive Region where
  | dram
  | gallery (d : Nat)
  | face (f : Nat)
  | control
  | remote (p : Nat)
  | unassigned
deriving DecidableEq, Repr

/-- The part of the address space in which an address lies (R240). -/
def regionOf (a : Nat) : Region :=
  if a < dramSize then .dram
  else if galBase ≤ a ∧ a < galBase + galSize then .gallery ((a - galBase) / galOne)
  else if fsBase ≤ a ∧ a < fsBase + 512 * fsSize then .face ((a - fsBase) / fsSize)
  else if ctlBase ≤ a ∧ a < ctlBase + 0x10000000 then .control
  else if remBase ≤ a ∧ a < remBase + 0x4000000000 then .remote ((a - remBase) / 0x1000000000)
  else .unassigned

/-- The address of byte `o` of the face store of logical face `f` (R240). -/
def fsAddr (f o : Nat) : Nat := fsBase + f * fsSize + o

/-- The address of byte `o` of the gallery of drift `d` (R240). -/
def galAddr (d o : Nat) : Nat := galBase + d * galOne + o

/-- Block class of a page index (R26). -/
def pClass (p : Nat) : Nat := p / 4096
/-- Instance of a page index (R26). -/
def pInst (p : Nat) : Nat := p % 4096

/-- The device unit page. -/
def devPage : Nat := 0
/-- The cage page. -/
def cagePage : Nat := 1
/-- The page of compute die `c`. -/
def diePage (c : Nat) : Nat := 0x1000 + c
/-- The memory-side die page. -/
def memPage : Nat := 0x1002
/-- The page of drift `d`. -/
def driftPage (d : Nat) : Nat := 0x2000 + d
/-- The page of stope `s`. -/
def stopePage (s : Nat) : Nat := 0x3000 + s
/-- The page of physical face `f`. -/
def facePage (f : Nat) : Nat := 0x4000 + f
/-- The page of hoist `h`: 2s and 2s + 1 for stope s, 64 + 2d and 65 + 2d for drift d. -/
def hoistPage (h : Nat) : Nat := 0x5000 + h
/-- The page of head `h`. -/
def headPage (h : Nat) : Nat := 0x6000 + h
/-- The page of ingress port `p`. -/
def portPage (p : Nat) : Nat := 0x7000 + p
/-- The page of ingress flow `f`. -/
def flowPage (f : Nat) : Nat := 0x7010 + f
/-- The page of camera port `c`. -/
def camPage (c : Nat) : Nat := 0x7020 + c
/-- The page of SPI port `p`. -/
def spiPage (p : Nat) : Nat := 0x7030 + p
/-- The page of assay stream `k`. -/
def assayPage (k : Nat) : Nat := 0x8000 + k
/-- The page of the shared matcher and flow engine. -/
def sharedPage : Nat := 0x8004
/-- The page of the tiler of die `c`. -/
def tilerPage (c : Nat) : Nat := 0x9000 + c
/-- The page of the sorter of die `c`. -/
def sorterPage (c : Nat) : Nat := 0x9002 + c
/-- The time page. -/
def timePage : Nat := 0xA000
/-- The page of timestamp channel `k`. -/
def tsPage (k : Nat) : Nat := 0xA001 + k
/-- The page of Adit port `p`. -/
def aditPage (p : Nat) : Nat := 0xB000 + p
/-- The page of winze channel `c`. -/
def winzePage (c : Nat) : Nat := 0xC000 + c
/-- The page of crosscut port `p`. -/
def xcPage (p : Nat) : Nat := 0xD000 + p
/-- The boot and security page. -/
def bootPage : Nat := 0xE000
/-- The power page. -/
def pwrPage : Nat := 0xF000
/-- The clock page. -/
def clkPage : Nat := 0xF001
/-- The monitor page. -/
def monPage : Nat := 0xF002
/-- The canary page. -/
def canPage : Nat := 0xF003
/-- The sump page. -/
def sumpPage : Nat := 0xF004

/-- The page index is assigned (R27). -/
def pageAssigned (p : Nat) : Bool :=
  let i := pInst p
  match pClass p with
  | 0x0 => i < 2
  | 0x1 => i < 4
  | 0x2 => i < 8
  | 0x3 => i < 32
  | 0x4 => i < 544
  | 0x5 => i < 80
  | 0x6 => i < 4
  | 0x7 => i < 4 || (0x10 ≤ i && i < 0x20) || (0x20 ≤ i && i < 0x24) || (0x30 ≤ i && i < 0x32)
  | 0x8 => i < 5
  | 0x9 => i < 4
  | 0xA => i < 13
  | 0xB => i < 2
  | 0xC => i < 64
  | 0xD => i < 4
  | 0xE => i == 0
  | 0xF => i < 5
  | _ => false

/-- Level of a page (R27). -/
def pageLevel (p : Nat) : Nat :=
  match pClass p with
  | 0x1 => 5
  | 0x2 => 4
  | 0x3 => 3
  | 0x4 => 2
  | 0x5 => if pInst p < 64 then 3 else 4
  | 0x9 => 5
  | _ => 6

/-- The page carries the unit region (R42): the device page, the compute-die pages, drifts, stopes and faces. -/
def pageUnit (p : Nat) : Bool :=
  p == devPage || p == diePage 0 || p == diePage 1 || pClass p == 2 || pClass p == 3 || pClass p == 4

/-- A launch through the page drives several faces (R35). -/
def pageGroup (p : Nat) : Bool := pageUnit p && pClass p != 4

/-- The power domain of a page (R616). The device unit page, the monitors and the timestamp channels are not named
there: log entry 7. -/
def pageDomain (p : Nat) : Nat :=
  let i := pInst p
  match pClass p with
  | 0x0 => 14
  | 0x1 => if i < 2 then 9 + i else if i = 2 then 11 else 14
  | 0x2 => 1 + i
  | 0x3 => 1 + i / 4
  | 0x4 => 1 + i / 68
  | 0x5 => if i < 64 then 1 + i / 8 else 1 + (i - 64) / 2
  | 0x6 => 15 + i
  | 0x7 => if i < 0x20 then 19 else if i < 0x24 then 22 + (i - 0x20) else 27
  | 0x8 => 21
  | 0x9 => 9 + i % 2
  | 0xD => 20
  | 0xE => 26
  | _ => 0

/-- The parent of a power domain (R616). -/
def domParent (d : Nat) : Option Nat :=
  if d = 0 then none
  else if d ≤ 8 then some (9 + (d - 1) / 4)
  else if d ≤ 10 then some 11
  else if d = 11 then some 0
  else if d ≤ 13 then some 11
  else if d = 14 then some 0
  else if d = 26 then some 0
  else some 14

/-- The children of a power domain (R616). -/
def domChildren (d : Nat) : List Nat := (List.range 28).filter fun c => domParent c == some d

/-- PAGE_ID of a page (R35). -/
def pageId (p : Nat) : Nat := pClass p * 2 ^ 28 + pageLevel p * 2 ^ 24 + pInst p * 2 ^ 12 + 0x010

/-- PAGE_CAP of a page (R35). -/
def pageCap (p : Nat) : Nat := b2n (pageUnit p) + 2 * b2n (pageGroup p) + pageDomain p * 256

/-- The first logical face and the number of logical faces of a unit page, when it is not a face page (R13). -/
def unitSpan (p : Nat) : Nat × Nat :=
  match pClass p with
  | 0x0 => (0, 512)
  | 0x1 => (256 * pInst p, 256)
  | 0x2 => (64 * pInst p, 64)
  | 0x3 => (16 * pInst p, 16)
  | _ => (0, 0)

/-- The stope of a logical face (R13). -/
def stopeOfFace (f : Nat) : Nat := f / 16
/-- The drift of a logical face (R13). -/
def driftOfFace (f : Nat) : Nat := f / 64

/-- Every assigned page index (R27). -/
def allPages : List Nat :=
  [0, 1] ++ (List.range 4).map diePage ++ (List.range 8).map driftPage ++ (List.range 32).map stopePage ++
  (List.range 544).map facePage ++ (List.range 80).map hoistPage ++ (List.range 4).map headPage ++
  (List.range 4).map portPage ++ (List.range 16).map flowPage ++ (List.range 4).map camPage ++
  (List.range 2).map spiPage ++ (List.range 5).map assayPage ++ (List.range 4).map tilerPage ++
  (List.range 13).map (fun i => timePage + i) ++ (List.range 2).map aditPage ++ (List.range 64).map winzePage ++
  (List.range 4).map xcPage ++ [bootPage, pwrPage, clkPage, monPage, canPage, sumpPage]

end Sys2Proof.Machine
end

