-- ==== Sys2Proof/Machine/RegRow.lean ====
section
/-! DEFINITION. How a register is described: its offset, access code (R5), width, reset value, writable bits and the
values its fields list (R7). The rows of every page are in Machine/Registers.lean. -/
namespace Sys2Proof.Machine

/-- The access codes of R5. -/
inductive Acc where
  | rw | ro | wo | w1c | w1s | rc | rwl
deriving DecidableEq, Repr

/-- A field [hi:lo] and the values it lists (R7). -/
structure FieldRule where
  /-- most significant bit -/
  hi : Nat
  /-- least significant bit -/
  lo : Nat
  /-- the field lists this value -/
  ok : Nat → Bool

/-- A register, or `n` registers `stride` bytes apart, of one page. -/
structure RegRow where
  /-- offset of the first -/
  off : Nat
  /-- how many -/
  n : Nat := 1
  /-- distance in bytes between two of them -/
  stride : Nat := 4
  /-- access code -/
  acc : Acc
  /-- a 64-bit register (R9) -/
  wide : Bool := false
  /-- reset value -/
  reset : Nat → Nat := fun _ => 0
  /-- bits that a write reaches; the others are reserved (R6) -/
  mask : Nat := 0xFFFFFFFF
  /-- fields whose encoding table does not list every value (R7) -/
  rules : List FieldRule := []

/-- The mask of bits [hi:lo]. -/
def bitsM (hi lo : Nat) : Nat := (2 ^ (hi + 1 - lo) - 1) * 2 ^ lo

/-- A field lists only the values from `a` to `b`. -/
def inRange (hi lo a b : Nat) : FieldRule := ⟨hi, lo, fun v => decide (a ≤ v) && decide (v ≤ b)⟩

/-- A field lists only the values of a list. -/
def oneOf (hi lo : Nat) (vs : List Nat) : FieldRule := ⟨hi, lo, fun v => vs.contains v⟩

/-- Bytes of one register of the row. -/
def RegRow.bytes (r : RegRow) : Nat := if r.wide then 8 else 4

/-- Which register of the row an offset falls in, if any. -/
def RegRow.index (r : RegRow) (off : Nat) : Option Nat :=
  if off < r.off then none
  else
    let k := (off - r.off) / r.stride
    if k < r.n ∧ (off - r.off) % r.stride < r.bytes then some k else none

/-- A register found at an offset: its row, its index in the row, and whether the offset is its high word. -/
structure RegAt where
  row : RegRow
  idx : Nat
  high : Bool

/-- The register at an offset of a page's rows. -/
def findReg : List RegRow → Nat → Option RegAt
  | [], _ => none
  | r :: rs, off =>
    match r.index off with
    | some k => some ⟨r, k, r.wide && (off - r.off) % r.stride == 4⟩
    | none => findReg rs off

/-- The value a write leaves in a register: every field whose value is listed takes effect, the others and the reserved
bits keep what they held (R6, R7). -/
def mergeWrite (r : RegRow) (old new : Nat) : Nat :=
  let kept := r.rules.foldl (fun v f => if f.ok (fld new f.hi f.lo) then v else setFld v f.hi f.lo (fld old f.hi f.lo)) new
  (kept &&& r.mask) ||| (old &&& (2 ^ (8 * r.bytes) - 1 - (r.mask &&& (2 ^ (8 * r.bytes) - 1))))

end Sys2Proof.Machine
end

