-- ==== Sys2Proof/Machine/Registers.lean ====
section
/-! DEFINITION. The register maps of every page (R34, R42, R47, R99, R144, R258, R259, R261, R281, R317, R348, R376,
R415, R442, R470, R499-R504, R530, R531, R555, R581, R582, R607, R630, R631, R638, R645, R649, R652) with their reset
values, writable bits and listed values (R7), the interrupt causes and the tally sources (R654) that each page offers.
Offsets with no row are unassigned or reserved and read 0 (R6, R8). -/
namespace Sys2Proof.Machine

/-- A read-only register. -/
def ro (off : Nat) (reset : Nat := 0) : RegRow := ⟨off, 1, 4, .ro, false, fun _ => reset, 0xFFFFFFFF, []⟩
/-- `n` read-only registers. -/
def roN (off n : Nat) (reset : Nat → Nat := fun _ => 0) : RegRow := ⟨off, n, 4, .ro, false, reset, 0xFFFFFFFF, []⟩
/-- A 64-bit read-only register. -/
def ro64 (off : Nat) : RegRow := ⟨off, 1, 8, .ro, true, fun _ => 0, 0xFFFFFFFFFFFFFFFF, []⟩
/-- A write-only register. -/
def wo (off : Nat) : RegRow := ⟨off, 1, 4, .wo, false, fun _ => 0, 0xFFFFFFFF, []⟩
/-- A 64-bit write-only register. -/
def wo64 (off : Nat) : RegRow := ⟨off, 1, 8, .wo, true, fun _ => 0, 0xFFFFFFFFFFFFFFFF, []⟩
/-- A register that a read clears. -/
def rc (off : Nat) (n : Nat := 1) : RegRow := ⟨off, n, 4, .rc, false, fun _ => 0, 0xFFFFFFFF, []⟩
/-- A read-write register. -/
def rw (off reset : Nat) (mask : Nat := 0xFFFFFFFF) (rules : List FieldRule := []) : RegRow :=
  ⟨off, 1, 4, .rw, false, fun _ => reset, mask, rules⟩
/-- `n` read-write registers. -/
def rwN (off n reset : Nat) (mask : Nat := 0xFFFFFFFF) (rules : List FieldRule := []) (stride : Nat := 4) : RegRow :=
  ⟨off, n, stride, .rw, false, fun _ => reset, mask, rules⟩
/-- A 64-bit read-write register. -/
def rw64 (off : Nat) (mask : Nat := 0xFFFFFFFFFFFFFFFF) (reset : Nat := 0) (rules : List FieldRule := []) : RegRow :=
  ⟨off, 1, 8, .rw, true, fun _ => reset, mask, rules⟩
/-- A register of the protection set-up. -/
def rwl (off reset : Nat) (mask : Nat := 0xFFFFFFFF) (rules : List FieldRule := []) : RegRow :=
  ⟨off, 1, 4, .rwl, false, fun _ => reset, mask, rules⟩
/-- `n` 64-bit registers of the protection set-up. -/
def rwl64 (off n stride : Nat) (mask : Nat) (reset : Nat → Nat) (rules : List FieldRule := []) : RegRow :=
  ⟨off, n, stride, .rwl, true, reset, mask, rules⟩

/-- The interrupt causes that a page offers, as a mask over IRQ_STAT: FAULT on every page, DONE on unit pages (R35), the
block-specific ones as the chapters give them. -/
def irqMask (p : Nat) : Nat :=
  let i := pInst p
  1 + (if pageUnit p then 2 else 0) +
  match pClass p with
  | 0x0 => if i = 0 then bitsM 10 8 else bitsM 18 8
  | 0x4 => bitsM 10 8
  | 0x6 => bitsM 11 8
  | 0x7 => if 0x10 ≤ i ∧ i < 0x24 then bitsM 8 8 else if 0x30 ≤ i then bitsM 9 8 else 0
  | 0x8 => if i < 4 then bitsM 11 8 else 0
  | 0x9 => if i < 2 then bitsM 10 8 else bitsM 9 8
  | 0xA => if i = 0 then bitsM 12 8 else bitsM 9 8
  | 0xB => bitsM 11 8
  | 0xC => bitsM 8 8
  | 0xD => bitsM 11 8
  | 0xE => bitsM 10 8
  | 0xF => if i = 0 then bitsM 9 8 else if i = 1 then bitsM 8 8 else if i = 4 then bitsM 10 8 else bitsM 9 8
  | _ => 0

/-- The tally source codes that a page offers besides 0x00 and those of every page (R654). -/
def tallyCodes (p : Nat) : List Nat :=
  let i := pInst p
  let r (a b : Nat) : List Nat := (List.range (b + 1 - a)).map fun k => a + k
  (if pageUnit p then [0x08] else []) ++
  match pClass p with
  | 0x0 => if i = 0 then r 0x10 0x16 else 0x0B :: r 0x18 0x26
  | 0x1 => if i = 2 then [0x0A] else []
  | 0x2 => [0x0A, 0x40]
  | 0x3 => r 0x38 0x3D
  | 0x4 => [0x09, 0x0A] ++ r 0x28 0x30
  | 0x5 => [0x09, 0x41, 0x42]
  | 0x6 => r 0x50 0x55
  | 0x7 => if i < 0x10 then r 0x58 0x59 else if i < 0x20 then r 0x5A 0x5D else if i < 0x24 then r 0x5E 0x60 else r 0x61 0x63
  | 0x8 => if i < 4 then r 0x68 0x6C else r 0x6D 0x6E
  | 0x9 => if i < 2 then r 0x48 0x4C else r 0x4D 0x4F
  | 0xA => if i = 0 then r 0x70 0x74 else r 0x75 0x76
  | 0xB => r 0x78 0x7F
  | 0xC => [0x80]
  | 0xD => 0x0B :: r 0x88 0x8C
  | 0xE => r 0x90 0x92
  | 0xF => match i with
    | 0 => r 0x98 0x99
    | 1 => r 0x9A 0x9B
    | 2 => r 0xA0 0xA2
    | 3 => [0xA3]
    | _ => r 0xA4 0xA5
  | _ => []

/-- A tally source code is listed on a page (R40). -/
def tallyOffered (p c : Nat) : Bool := decide (c ≤ 3) || (tallyCodes p).contains c

/-- IRQ_ROUTE.TARGET lists the manager and die manager cores, the sessions and the foreman cores (R36). -/
def irqTargetOk (t : Nat) : Bool := (1 ≤ t && t ≤ 3) || (8 ≤ t && t ≤ 15) || (32 ≤ t && t ≤ 63)

/-- The common page header (R34, R35). -/
def headerRows (p : Nat) : List RegRow :=
  [ ro 0x000 (pageId p), ro 0x004 (pageCap p), rw 0x008 0 3, ro 0x00C,
    ⟨0x010, 1, 4, .w1c, false, fun _ => 0, irqMask p, []⟩, rw 0x014 0 (irqMask p),
    rwl 0x018 1 0x3F [⟨5, 0, irqTargetOk⟩], ro 0x01C,
    rw 0x020 0 0xFFFFFFFF ((List.range 4).map fun k => ⟨8 * k + 7, 8 * k, tallyOffered p⟩),
    rw 0x024 0 0x10F, wo 0x028, ro64 0x030, ro64 0x038, ro64 0x040, ro64 0x048 ]

/-- The unit region (R42). -/
def unitRows : List RegRow :=
  [ ro 0x050 0x3F, rw 0x054 0 0x13F, wo 0x058, rw64 0x060 (bitsM 39 4), rw64 0x068, rw64 0x070, ro64 0x078, rw64 0x080,
    ro 0x088 ]

/-- The device page: partitions, windows, contexts and batches (R348). -/
def deviceRows : List RegRow :=
  [ ⟨0x100, 32, 4, .rwl, false, fun _ => 0, 0x171F, [inRange 10 8 0 5]⟩,
    rw 0x180 0 0xFF, wo 0x184, rw64 0x188 (bitsM 39 16), rw64 0x190 (bitsM 39 16), rw 0x198 0 0xF, wo 0x1A0,
    rw 0x1A4 0 0x3FF, wo 0x1A8, ro 0x1AC, rwl64 0x1B0 1 8 (bitsM 39 16) (fun _ => 0), wo 0x1B8, ro 0x1BC,
    rw 0x1C0 0 0x1FFF03FF, rw 0x1C4 0 0xFFFF03FF, rw 0x1C8 0 0x1FFFF, rw 0x1CC 0 0xFF, rw 0x1D0 0 (bitsM 31 12), rw 0x1D4 0 0xFF,
    rw 0x1D8 0 (bitsM 26 6), rw 0x1DC 0 0x3FFF, rw 0x1E0 0 (bitsM 26 6), rw 0x1E4 0 0xFFFFFF, rwN 0x1E8 5 0, rw 0x1FC 0 0,
    rw 0x200 0 0x1FFFF, rwN 0x204 3 0, roN 0x280 32 ]

/-- The registers of head group `g` of the cage (R99, R100). -/
def hgRows (g : Nat) : List RegRow :=
  let b := 0x100 + 0x80 * g
  [ rw b 0x3F121000 (bitsM 0 0 + bitsM 7 4 + bitsM 9 8 + bitsM 13 12 + bitsM 18 16 + bitsM 22 20 + bitsM 29 24)
      [inRange 13 12 0 2, inRange 18 16 1 4, inRange 22 20 1 4],
    rw (b + 0x04) 0x10040322 (bitsM 2 0 + bitsM 6 4 + bitsM 11 8 + bitsM 23 16 + bitsM 29 24)
      [inRange 2 0 0 4, inRange 6 4 1 4, inRange 11 10 0 2, inRange 23 16 1 255, inRange 29 24 0 32],
    rw (b + 0x08) 0, rw (b + 0x0C) 0, rw64 (b + 0x10) (bitsM 39 8), rw64 (b + 0x18) (bitsM 39 8),
    rw64 (b + 0x20) (bitsM 39 16), rw64 (b + 0x28) (bitsM 39 6 + 0xF) 0 [inRange 3 0 0 8],
    rw (b + 0x30) 0 (bitsM 26 8), rw (b + 0x34) 0 (bitsM 11 0 + bitsM 27 16),
    rw (b + 0x38) 0 0x3F3F3F3F [inRange 1 0 0 2, inRange 9 8 0 2, inRange 17 16 0 2, inRange 25 24 0 2],
    rw (b + 0x3C) 0, rw64 (b + 0x40) (bitsM 39 0), rw (b + 0x48) 0, ro (b + 0x4C), ro (b + 0x50), ro (b + 0x54),
    rw (b + 0x58) 0 (bitsM 26 6), rw (b + 0x5C) 0 3, rw (b + 0x60) 0, rw (b + 0x64) 0 0x7FFF, ro (b + 0x68) ]

/-- The adaptation block of head group `g` (R317, R318). -/
def adRows (g : Nat) : List RegRow :=
  let b := 0x400 + 0x40 * g
  [ rw b 0x00200700 (bitsM 1 0 + bitsM 15 8 + bitsM 23 16 + bitsM 29 24) [inRange 15 8 7 255, inRange 23 16 2 255],
    rw (b + 0x04) 0, rw (b + 0x08) 0 (bitsM 26 8), rw (b + 0x0C) 0 0x7FFF, rw64 (b + 0x10) (bitsM 39 6),
    rw64 (b + 0x18) (bitsM 39 6), rw64 (b + 0x20), ro (b + 0x28), ro (b + 0x2C) 0xFFFFFFFF, ro (b + 0x30), ro (b + 0x34),
    wo (b + 0x38) ]

/-- The cage page (R99, R317, R376). -/
def cageRows : List RegRow :=
  hgRows 0 ++ hgRows 1 ++ hgRows 2 ++ hgRows 3 ++
  [ ⟨0x300, 4, 16, .rw, true, fun _ => 0, bitsM 39 8, []⟩, ⟨0x308, 4, 16, .wo, false, fun _ => 0, 0xFFFFFFFF, []⟩,
    ⟨0x30C, 4, 16, .ro, false, fun _ => 0, 0xFFFFFFFF, []⟩, rw 0x340 0 0xFF, wo 0x344, rwN 0x350 4 0 ] ++
  adRows 0 ++ adRows 1 ++ adRows 2 ++ adRows 3 ++
  [ rw 0x500 0 0x1FFF, rw 0x504 2 3, ro 0x508,
    rw 0x600 0x00800000 0x00FF001F, ro 0x604, rw64 0x608 (bitsM 39 12), rw 0x610 0 0xF [inRange 3 0 0 14], wo 0x614,
    ro 0x618, rw 0x61C 0, rw64 0x620 (bitsM 39 12), rw 0x628 0 0xF [inRange 3 0 0 14], ro 0x62C, rw 0x630 0, ro 0x634,
    rw64 0x638 (bitsM 39 12), rw 0x640 0 0xF [inRange 3 0 0 14], rw 0x644 0, ro 0x648, rw 0x64C 0xFFFFFFFF,
    rw 0x650 0 0x1FFF, ro 0x654, ro 0x658, ro 0x65C, roN 0x660 8 ]

/-- A grid value of −32 is not listed (R146): rule for entry `k` of a grid register. -/
def gridRule (k : Nat) : FieldRule := ⟨6 * k + 5, 6 * k, fun v => v != 0x20⟩

/-- A face page (R144, R145). -/
def faceRows : List RegRow :=
  let m := bitsM 29 0
  let g := [gridRule 0, gridRule 1, gridRule 2, gridRule 3, gridRule 4]
  [ ro 0x100, ro 0x104, rw 0x108 0x0C2460C0 m g, rw 0x10C 0x3AF5F590 m g, rw 0x110 0x21AB0D37 m g, rc 0x114, rc 0x118,
    ro 0x11C, rc 0x120, ro 0x124, roN 0x128 4, ro 0x138 ]

/-- The frequency pair N, M of a clock domain at reset (R624, R625): the fabric pair of the grade; the pair of the stated
frequency; 0 for the domains whose frequency is not stated (log entry 6). -/
def clkPlanReset (k : Nat) : Nat :=
  let nm (n m : Nat) : Nat := n + m * 1024
  if k = 0 then nm 1 1
  else if k = 1 then nm 40 1
  else if k ≤ 35 then (if Config.gradeB then nm 144 5 else nm 32 1)
  else if k = 39 ∨ k = 42 then nm 40 1
  else if k = 43 then nm 20 1
  else if 48 ≤ k ∧ k ≤ 51 then nm 125 8
  else if 52 ≤ k ∧ k ≤ 55 then nm 35 1
  else if k = 56 ∨ k = 57 then nm 25 2
  else if k = 62 then nm 48 25
  else if k = 63 then nm 4 1
  else 0

/-- A fabric clock domain lists only the pair of the grade (R625). -/
def clkFabricOk (v : Nat) : Bool := v == (if Config.gradeB then 144 + 5 * 1024 else 32 + 1024)

/-- The clock registers of one kind of domain (R625, R631). -/
def clkRow (k n : Nat) (mask : Nat) (rules : List FieldRule) : RegRow :=
  ⟨0x100 + 4 * k, n, 4, .rwl, false, fun i => clkPlanReset (k + i), mask, rules⟩

/-- The clock page (R631). -/
def clockRows : List RegRow :=
  let m := bitsM 21 0
  let mOk := [inRange 17 10 1 255]
  [ clkRow 0 2 m mOk, clkRow 2 34 m [⟨17, 0, clkFabricOk⟩], clkRow 36 8 m mOk, clkRow 44 4 (bitsM 21 18) [],
    clkRow 48 10 m mOk, clkRow 58 4 (bitsM 21 18) [], clkRow 62 2 m mOk,
    ro 0x200 (if Config.gradeB then 0x2D00 else 0x3200), rw 0x204 0 3, ro 0x208 ]

/-- Every rate of a clock lies within 500 ppm of 2^32 (R512). -/
def rateOk (v : Nat) : Bool := decide (0xFFDF3B64 ≤ v) && decide (v ≤ 0x10020C49C)

/-- The block of clock `c` on the time page (R530). -/
def clkBlockRows (c : Nat) : List RegRow :=
  let b := 0x140 + 0x40 * c
  [ rw64 b (bitsM 39 0) 0x100000000 [⟨39, 0, rateOk⟩], wo64 (b + 0x08), wo64 (b + 0x10), wo (b + 0x18), ro (b + 0x1C),
    ro (b + 0x20), ro64 (b + 0x28), ro (b + 0x30), ro (b + 0x34), ro (b + 0x38) ]

/-- The time page (R530). -/
def timeRows : List RegRow :=
  [ ro64 0x100, ro64 0x108, rwl 0x110 0x3E8 (bitsM 19 0) [inRange 19 0 1 1000000], rwl 0x114 0 0xFF, ro64 0x118,
    rw 0x120 0 (bitsM 3 0 + bitsM 10 8 + bitsM 14 12) [inRange 1 0 0 2, inRange 3 2 0 1, inRange 10 8 0 5, inRange 14 12 0 5], rw 0x124 0x7F (bitsM 19 0) ] ++
  clkBlockRows 0 ++ clkBlockRows 1 ++ clkBlockRows 2 ++
  [ rw 0x200 4 0xD [inRange 3 2 0 2], rw 0x204 0x3C (bitsM 8 0 + bitsM 16 16) [inRange 8 0 1 480], rw64 0x208, ro 0x210,
    ro 0x214, rc 0x218, rw 0x21C 0x2710 (bitsM 19 0), ro64 0x220 ]

/-- A layer block of a head; of L0 only GALPHA (R470). -/
def layerRows (k : Nat) : List RegRow :=
  let b := 0x200 + 0x40 * k
  let m64 : FieldRule := ⟨23, 0, fun v => v % 64 == 0⟩
  if k = 0 then [ rw b 0xFF00 0xFF00 ] else
  [ rw b 0xFF00 (if k = 3 then 0xFFFF else 0xFF1F) ([inRange 2 1 0 1] ++ (if k = 3 then [inRange 7 5 0 4] else [])),
    rw (b + 0x04) 0, rw (b + 0x08) 0, rw (b + 0x0C) 0 (bitsM 23 0) [m64], rw64 (b + 0x10) (bitsM 39 6),
    rw64 (b + 0x18) (bitsM 39 6), rw (b + 0x20) 0 (bitsM 23 0) [m64], rw (b + 0x24) 0, rw64 (b + 0x28) (bitsM 39 6),
    rw (b + 0x30) 0 0xFFFF ]

/-- A head page (R470, R471). -/
def headRows : List RegRow :=
  [ rw 0x100 0x000E011A (bitsM 12 0 + bitsM 19 16) [inRange 4 0 0 0x1A, inRange 7 6 0 2, inRange 9 8 0 2, inRange 17 16 0 2],
    rw 0x104 0 7, ro 0x108, ro 0x10C, rw64 0x110, ro 0x118, ro 0x11C, rw 0x120 0 (bitsM 29 0), ro 0x124, ro 0x128, ro 0x12C ] ++
  layerRows 0 ++ layerRows 1 ++ layerRows 2 ++ layerRows 3

/-- The ingress, flow, camera and SPI pages (R499, R500, R503, R504). -/
def ingressRows (i : Nat) : List RegRow :=
  if i < 0x10 then
    [ ro 0x100, rw 0x104 1 7, rw64 0x108 (bitsM 47 0), rw 0x110 0, rc 0x114, ro64 0x118 ]
  else if i < 0x20 then
    [ rw 0x100 0 (bitsM 22 0), rw 0x104 0, rw 0x108 0, rw 0x10C 0, rwN 0x110 3 0, rw 0x11C 0 0xFFFF, rw 0x120 0x000105DC,
      rw 0x124 0, rw 0x128 0x7D0 0xFFFF, rw 0x12C 0x1000 0x1FFF, ro 0x130, ro 0x134, ro64 0x138, rc 0x140, rc 0x144 ]
  else if i < 0x24 then
    [ rw 0x100 0x09C40002 (bitsM 5 0 + bitsM 27 16), ro 0x104, ro 0x108, rc 0x10C, rc 0x110 ]
  else
    [ rw 0x100 0x400 (bitsM 2 0 + bitsM 15 8), rw 0x104 0xC00 (bitsM 2 0 + bitsM 12 8), rw 0x108 0, rw 0x10C 0x3E8 (bitsM 19 0),
      rw 0x110 0 (bitsM 26 6), ro 0x114, ro 0x118, rc 0x11C, rc 0x120 ]

/-- The assay pages (R415, R416, R418). -/
def assayRows (i : Nat) : List RegRow :=
  if i < 4 then
    [ rw 0x100 0 (bitsM 10 0) [inRange 1 0 0 2], rw 0x104 0x04B00780 (bitsM 12 0 + bitsM 28 16)
        [inRange 12 0 64 4096, inRange 28 16 64 4095],
      rw 0x108 0 (bitsM 26 6), rw 0x10C 0x40 0x7F [inRange 6 0 1 64], rw 0x110 0 (bitsM 14 0 + bitsM 27 16),
      rw 0x114 0x400, rw 0x118 0x10, rw 0x11C 0x00CC0040 (bitsM 8 0 + bitsM 23 16) [inRange 8 0 0 256],
      rw 0x120 0x2010 (bitsM 6 0 + bitsM 14 8) [inRange 6 0 1 127, inRange 14 8 1 127], rw 0x124 0 (bitsM 26 5),
      ro 0x128, ro 0x12C, ro 0x130 ]
  else [ ro 0x100, ro 0x104 ]

/-- The tiler and sorter pages (R281, R442). -/
def rasterRows (i : Nat) : List RegRow :=
  if i < 2 then [ wo64 0x100, ro 0x108, ro 0x10C, wo 0x110, ro 0x114, ro 0x118 ]
  else [ wo64 0x100, ro 0x108, ro 0x10C, wo 0x110 ]

/-- An Adit page (R555); the sessions and the recovery function stand on the page of port 0. -/
def aditRows (i : Nat) : List RegRow :=
  [ rw 0x100 0 (bitsM 0 0 + bitsM 20 4), ro 0x104, rw64 0x108 (bitsM 47 0), rw 0x110 0, rw 0x114 0xB810 0xFFFF, ro64 0x118,
    rc 0x120, rc 0x124, rw64 0x128, rw 0x130 0x000F4240 (bitsM 29 0),
    rw 0x134 1 0x7F, wo 0x138, rw 0x13C 0 (bitsM 21 0) [inRange 21 0 0 1875000],
    rw 0x140 0 (bitsM 21 0) [inRange 21 0 0 1875000], rwN 0x200 64 0xFF ] ++
  if i = 0 then
  [ ⟨0x300, 8, 16, .ro, false, fun _ => 0, 0, []⟩, ⟨0x304, 8, 16, .ro, false, fun _ => 0, 0, []⟩,
    ⟨0x308, 8, 16, .ro, false, fun _ => 0, 0, []⟩, ⟨0x30C, 8, 16, .ro, false, fun _ => 0, 0, []⟩,
    rw 0x380 0x03E81000 (bitsM 0 0 + bitsM 13 8 + bitsM 31 16) [inRange 13 8 2 32, inRange 31 16 1 65535], ro 0x384, rc 0x388,
    rc 0x38C ]
  else []

/-- A winze page (R47). -/
def winzeRows : List RegRow :=
  [ rwN 0x100 16 0, wo 0x140, ro 0x144, ro 0x148, ro 0x14C 7, rwl 0x150 0x3F3F 0x13F3F ]

/-- A crosscut page (R581), with the pair and broadcast block on port N (R582). -/
def crosscutRows (i : Nat) : List RegRow :=
  [ rwl 0x100 0 3 [inRange 1 0 0 2], ro 0x104, wo 0x108, rc 0x10C 3, ro64 0x118, ro64 0x120, ro64 0x128, ro 0x130 ] ++
  if i = 0 then
    [ rw 0x200 0 0xF3, ro 0x204, ro 0x208, rw 0x210 0 0xFFFF, rw64 0x218 (bitsM 39 4), rw64 0x220, rw64 0x228, rw64 0x230,
      wo 0x238, ro 0x23C ]
  else []

/-- Reset of MG_BASE, MG_LIMIT and MG_ATTR: grants 0 and 1 open DRAM and the galleries to the sessions (R607). -/
def mgReset (what k : Nat) : Nat :=
  match k, what with
  | 0, 0 => 0
  | 0, 1 => 0x0BEFFF0000
  | 1, 0 => 0x4000000000
  | 1, 1 => 0x4007FF0000
  | 0, _ => 0xFF07
  | 1, _ => 0xFF07
  | _, _ => 0

/-- Bits 0x00 and 0x01 of an access entry stay set (R599). -/
def accRule : FieldRule := ⟨63, 0, fun v => v % 4 == 3⟩

/-- The boot and security page (R607). -/
def bootRows : List RegRow :=
  [ ro 0x100, ⟨0x104, 1, 4, .w1s, false, fun _ => 0, 1, []⟩, ro64 0x108, ro64 0x110, ro 0x118, ro 0x11C, roN 0x120 16,
    roN 0x160 8, rwl 0x180 1 0xFF, rw 0x184 0, wo 0x188, ro 0x18C, rw64 0x190 (bitsM 39 6), rw 0x198 0 (bitsM 25 0), wo 0x19C,
    ro 0x1A0, wo 0x1A4, ro 0x1A8, rw64 0x1B0 (bitsM 39 12), ro 0x1B8, ro 0x1BC, rwN 0x1C0 8 0, roN 0x1E0 17, wo 0x224,
    rwl64 0x300 16 8 0xFFFFFFFFFFFFFFFF (fun _ => 0xFFFFFFFF0000FF0F) [accRule],
    rwl64 0x380 16 8 0xFFFFFFFFFFFFFFFF (fun _ => 0xFFFFFFFF0000FF0F) [accRule],
    rwl64 0x400 16 32 (bitsM 39 16) (mgReset 0), rwl64 0x408 16 32 (bitsM 39 16) (mgReset 1),
    ⟨0x410, 16, 32, .rwl, false, mgReset 2, bitsM 2 0 + bitsM 20 8, []⟩ ]

/-- The power page (R630). -/
def powerRows : List RegRow :=
  [ rw 0x100 0 3 [inRange 1 0 0 2], ro 0x104, rw 0x108 0x04004FFF (bitsM 27 1), ro 0x10C 0x04004FFF,
    rw 0x110 0x0FFFFFFF (bitsM 27 0), wo 0x114, ro 0x118 1, rw 0x180 0x0FFFFFFF (bitsM 27 0), rw 0x184 0x0407F801 (bitsM 27 0),
    rw 0x188 0x0069645F (bitsM 23 0) [⟨23, 0, fun v => decide (fld v 7 0 < fld v 15 8) && decide (fld v 15 8 < fld v 23 16)⟩],
    rw 0x18C 0x6405 (bitsM 23 0) [inRange 23 8 1 65535] ]

/-- The monitor page (R652). -/
def monitorRows : List RegRow := [ roN 0x100 16, roN 0x140 24, rwl 0x1A0 0x3C1E 0xFFFF ]

/-- The canary page (R649). -/
def canaryRows : List RegRow :=
  [ rwl 0x100 0x00131405 (bitsM 20 0) [inRange 7 0 2 255, inRange 15 8 2 255, inRange 19 16 1 15], ro 0x104, ro 0x108, ro 0x10C,
    ro 0x110, ro 0x114 7 ]

/-- The sump page (R638). -/
def sumpRows : List RegRow := [ ro 0x100, ro 0x104, rw 0x108 0 0xFFF, wo 0x10C, ro 0x110, roN 0x120 8 ]

/-- The block-specific rows of a page. -/
def blockRows (p : Nat) : List RegRow :=
  let i := pInst p
  match pClass p with
  | 0x0 => if i = 0 then deviceRows else cageRows
  | 0x1 => if i = 2 then [ ro 0x100, rw 0x104 0x1801 (bitsM 0 0 + bitsM 15 8) [inRange 15 8 1 255], rc 0x108, rc 0x10C, ro64 0x110,
      ro 0x118, rc 0x120 8 ] else []
  | 0x2 => [ ro 0x100, rc 0x104, ro 0x108, wo 0x10C, wo 0x110, roN 0x200 128 ]
  | 0x3 => [ ro 0x100 ]
  | 0x4 => faceRows
  | 0x5 => [ ro 0x100, ro64 0x108, ro 0x110 ]
  | 0x6 => headRows
  | 0x7 => ingressRows i
  | 0x8 => assayRows i
  | 0x9 => rasterRows i
  | 0xA => if i = 0 then timeRows else [ rw 0x100 0, ro 0x104, ro64 0x108, ro 0x110, ro64 0x118, ro 0x120, wo 0x124 ]
  | 0xB => aditRows i
  | 0xC => winzeRows
  | 0xD => crosscutRows i
  | 0xE => bootRows
  | 0xF => match i with
    | 0 => powerRows
    | 1 => clockRows
    | 2 => monitorRows
    | 3 => canaryRows
    | _ => sumpRows
  | _ => []

/-- Every row of a page. -/
def pageRows (p : Nat) : List RegRow := headerRows p ++ (if pageUnit p then unitRows else []) ++ blockRows p

/-- The register at an offset of a page, if the map assigns it. -/
def regAt (p off : Nat) : Option RegAt :=
  findReg (if off < 0x50 then headerRows p else if off < 0x100 then (if pageUnit p then unitRows else []) else blockRows p) off

/-- Key of a register word in the register file. -/
def regKey (p off : Nat) : Nat := p * 1024 + off / 4

/-- Reset value of a register word; 0 where the map assigns none (R8). -/
def regReset (k : Nat) : Word :=
  match regAt (k / 1024) (4 * (k % 1024)) with
  | none => 0
  | some r => let v := r.row.reset r.idx; BitVec.ofNat 32 (if r.high then v / 2 ^ 32 else v)

/-- A register word belongs to the protection set-up (R5, RWL). -/
def isRwl (p off : Nat) : Bool := match regAt p off with
  | some r => r.row.acc == .rwl
  | none => false

end Sys2Proof.Machine
end

