-- ==== Sys2Proof/Machine/State.lean ====
section
/-! DEFINITION. The state of the IH-7700 block, as plain data, the reasons a step can stop, and the state after reset. -/
namespace Sys2Proof.Machine

/-- Why the block stops with a fault. Nothing the manual describes stops the block: its faults (R633) are recorded in
registers and the sump and are next states, so that this type has no constructor. Safe: nothing raises it. -/
inductive Fault where
deriving DecidableEq, Repr

/-- Why a command has no meaning. -/
inductive Refusal where
  /-- A row of the table that has no meaning in this model yet; raised by Machine/Dispatch.lean only. Safe: the model
  stops where the block goes on. -/
  | notModelled (mnemonic : String)
deriving DecidableEq, Repr

/-- The reply to the last register or memory access: cause of the bus error (R32), 0 for none, and the word read. -/
structure BusReply where
  cause : Nat := 0
  data : Word := 0
deriving DecidableEq, Repr

/-- What the block has sent to the outside, in order. -/
inductive Out where
  /-- A frame sent on an Adit port: port, destination IPv4 address, UDP port, payload (R540). -/
  | frame (port ip udp : Nat) (payload : List Byte)
  /-- An IGMPv3 membership report sent on an ingress port for a destination group (R475). -/
  | igmp (port group : Nat)
  /-- A 256-byte flit sent on a crosscut port (R560). -/
  | flit (port : Nat) (bytes : List Byte)
  /-- One line sent by a head: head, frame, line, pixels (three components each) (R457, R458). -/
  | line (head frame line : Nat) (pixels : List (List Nat))
  /-- One transaction started on an SPI port: port, mode, DIV, the command bytes sent, bytes to read (R496). -/
  | spi (port mode div : Nat) (tx : List Byte) (rxn : Nat)
  /-- The originTimestamp that a port writes into a transmitted Sync: port, header fields as TS_INFO shows them, seconds, nanoseconds (R526). -/
  | sync (port info sec ns : Nat)
  /-- The correctionField, in ns, that a port writes into a transmitted Pdelay_Resp: port, header fields, the turnaround (R526). -/
  | pdelayResp (port info turnaround : Nat)
  /-- The VSC SDP of a frame sent by a head: ENC, bits per component, MATRIX, narrow range (R444). -/
  | sdp (head frame enc bits matrix : Nat) (narrow : Bool)
  /-- A level of an output pin (R661). -/
  | pin (name : String) (level : Bool)
  /-- A wake event to a receiver (R49, R50). -/
  | wake (ident chan : Nat)
  /-- The reply record of an Adpor record that is run on its own: session, OP, STATUS, DETAIL, body (R545, R547). -/
  | answer (sess op status detail : Nat) (body : List Byte)
deriving DecidableEq, Repr

/-- One sump entry (R636). -/
structure SumpEntry where
  code : Nat
  source : Nat
  device : Bool
  unrep : Bool
  page : Nat
  handle : Nat
  time : Nat
  gcount : Nat
  detail : Nat
deriving DecidableEq, Repr

/-- One clock of the time unit (R511, R516): seconds, nanoseconds and the fraction in 2^-32 ns (calendars only), the slew
still to be applied, the half nanoseconds that the next ticks add (R517), the arm and the state (R521). -/
structure Clock where
  sec : Nat := 0
  ns : Nat := 0
  frac : Nat := 0
  slew : Int := 0
  halves : Int := 0
  arm : Bool := false
  state : Nat := 0
deriving DecidableEq, Repr

/-- One entry of a timestamp channel (R525). -/
structure TsEntry where
  reading : Nat
  calSec : Nat
  calNs : Nat
  info : Nat
deriving DecidableEq, Repr

/-- The time unit (R507, R508, R511, R525, R527). -/
structure TimeUnit where
  count : Nat := 0
  offset : Nat := 0
  base : Nat := 0
  /-- slew of clock 0 applied since BASE, in 2^-32 ns -/
  acc0 : Int := 0
  c0 : Clock := {}
  c1 : Clock := {}
  c2 : Clock := {}
  /-- queues of the timestamp channels, oldest first -/
  ts : NMap (List TsEntry) := []
  /-- stamp of the last Pdelay_Req received on each port, for the turnaround of a one-step Pdelay_Resp (R526) -/
  pdelay : NMap TsEntry := []
  /-- time of CAL_DISPLAY at the last accepted GENLOCK edge -/
  glLast : Option Nat := none
  /-- a first correction is due: GENLOCK has been selected, or HOLDOVER entered, since the last accepted request (R529) -/
  glFirst : Bool := true
deriving DecidableEq, Repr

/-- Net boot (R554): 0 not running, 1 requesting, 2 reading; the number of BOOT_REQs, SEQUENCE of the last frame of the
exchange, the offering host and its port, the length of the image, the offset of the outstanding read and how often it has been
sent again. -/
structure NetBoot where
  phase : Nat := 0
  attempt : Nat := 0
  seq : Nat := 0
  port : Nat := 0
  ip : Nat := 0
  udp : Nat := 0
  len : Nat := 0
  off : Nat := 0
  again : Nat := 0
deriving DecidableEq, Repr

/-- Boot, fuses, non-volatile store, flash and attestation (R585-R607). -/
structure Boot where
  /-- the boot window is open (R596) -/
  window : Bool := true
  /-- step of R589 that runs; 0 when the boot ROM has halted, 11 after BOOT_LOCK -/
  step : Nat := 1
  provN : Bool := true
  bootNetN : Bool := true
  /-- TEST_N was low at the last reset (R669) -/
  testLow : Bool := false
  /-- an image has been verified (R591) -/
  imageOk : Bool := false
  nvKey : Option (BitVec 256) := Config.nvKey
  nvResetCount : Nat := Config.nvResetCount.toNat
  nvLeafLimit : Nat := Config.nvLeafLimit.toNat
  nvIpv4 : Nat := Config.nvIpv4.toNat
  svnFloor : Nat := Config.svnFloor.val
  leafNext : Nat := Config.nvLeafLimit.toNat
  /-- ranges of the flash erased or programmed since the model started: start, length, the bytes programmed from the start, the
  rest erased; the others are Config.flash -/
  flash : List (Nat × Nat × List Byte) := []
  /-- the provisioning key and RESET_COUNT from which the session keys were last derived (R593) -/
  keys : Option (BitVec 256 × Nat) := none
  /-- an install in progress: kind, the RESULT with which it ends, and the block read (R604) -/
  install : Option (Nat × Nat × List Byte) := none
  /-- steps of R589 that have been completed -/
  done : List Nat := []
  /-- calibration change pending (R606): true for an overlay, false for the factory table -/
  calPending : Option Bool := none
  /-- the overlay in force (bytes of the block, empty when none) -/
  overlay : List Byte := []
  /-- attestation in progress: identity of the master that wrote GO (R602) -/
  att : Option Nat := none
  /-- the sessions that have executed a request since BOOT_LOCK (R594) -/
  announced : List Nat := []
  net : NetBoot := {}
deriving DecidableEq, Repr

/-- Power, throttle and monitors (R615-R629, R646-R651). -/
structure Power where
  /-- the alignment edge has passed since reset (R615) -/
  aligned : Bool := false
  /-- domains powering up -/
  rising : List Nat := []
  /-- state change in progress (R623) -/
  change : Option Nat := none
  /-- THERMAL_CRIT has struck (R629) -/
  crit : Bool := false
  /-- thermal step, before MIN_STEP applies (R627) -/
  thermal : Nat := 0
  /-- samples in a row at or below the lower threshold (R627) -/
  cool : Nat := 0
  /-- the fabric clock is paused at a step change (R628) -/
  paused : Bool := false
  /-- the step that the pause leads to -/
  next : Nat := 0
  /-- raw readings of the last sample of each sensor and how many samples they have not changed (R650) -/
  raw : List (Nat × Nat) := []
  /-- times (time-unit readings) of the expiries of each foreman core within the last 10 s (R648) -/
  expiries : NMap (List Nat) := []
  /-- cores that restart (R647) -/
  restarting : List Nat := []
  /-- time-unit reading at the last kick, or the start, of each core, by identity (R646) -/
  kicks : NMap Nat := []
  /-- time-unit reading at the last wake that reached each domain (R619, R620) -/
  woken : NMap Nat := []
deriving DecidableEq, Repr

/-- Why a face holds issue (R107, R200, R209, R213, R214, R227, R346). -/
inductive Hold where
  | none
  | xld
  | wait
  | bar (bid : Nat)
  | ras
  | step
deriving DecidableEq, Repr

/-- What a conversion has decided for the row whose blocks it writes (R185, R188, R192): S2, the codes, REBLOCKED; and of a row that
QM.REBLOCK re-encodes, the S2, codes and fallback slots that it had. -/
structure QDec where
  s2 : Nat
  codes : List Nat
  re : Bool := false
  oldS2 : Nat := 0
  oldCodes : List Nat := []
  oldFb : List Byte := []
deriving DecidableEq, Repr

/-- One issued word that the face still records: an incomplete word, or a completed one behind it (R237). -/
structure Op where
  /-- list position -/
  pos : Nat
  /-- the 128-bit word -/
  word : Nat
  /-- loop counters at issue -/
  lcs : List Nat
  /-- index registers at issue -/
  xs : List Nat
  /-- step counter at issue -/
  step : Nat
  done : Bool
  /-- matrix-queue words: their work has begun (R110, R145) -/
  begun : Bool
  /-- units complete of a partial word (R675); of a quantisation word row × 512 + pass × 256 + block (R192) -/
  progress : Nat
  /-- bytes read at issue: a copy descriptor (R224), a tap descriptor and origin (R226) -/
  data : List Byte
  /-- what a partial quantisation word has decided for its row (R192) -/
  dec : Option QDec := .none
deriving DecidableEq, Repr

/-- A record that a face takes up again after a restore (R339, R675): list position, loop counters at its issue, progress; `done` is not
repeated and stays behind the incomplete words before it, `quant` is a quantisation word, with what it has decided. -/
structure Redo where
  pos : Nat
  lcs : List Nat
  progress : Nat
  done : Bool := false
  quant : Bool := false
  dec : Option QDec := .none
deriving DecidableEq, Repr

/-- A tap slot: its descriptor, when it holds one, and its origin (R272, R273). -/
structure TapSlot where
  desc : Option (List Byte) := .none
  ox : Nat := 0
  oy : Nat := 0
  /-- 64-byte words of the face store that the last group brought, by offset (R277) -/
  held : NMap (List Byte) := []
  /-- since the last word that fetched by the slot issued, the held words have been dropped (R277) -/
  fresh : Bool := true
deriving DecidableEq, Repr

/-- A resident configuration slot (R140): its origin and its 2,048 bytes when valid. -/
structure CfgSlot where
  src : Nat := 0
  bytes : List Byte := []
  valid : Bool := false
deriving DecidableEq, Repr

/-- A logical face (R107-R145, R203). -/
structure FaceSt where
  /-- list position of the next word -/
  pc : Nat := 0
  xs : List Nat := List.replicate 8 0
  lcs : List Nat := List.replicate 4 0
  lstart : List Nat := List.replicate 4 0
  step : Nat := 0
  /-- local flags, bit k -/
  lflags : Nat := 0
  bars : List Nat := List.replicate 16 0
  cfgSel : Nat := 0
  cfgs : List CfgSlot := List.replicate 4 {}
  taps : List TapSlot := List.replicate 2 {}
  /-- accumulators: bank × 256 + 16 × row + column; elements not listed hold 0 -/
  acc : NMap Int := []
  issued : List Op := []
  /-- records that it issues again before the word at `pc` (R339) -/
  redo : List Redo := []
  hold : Hold := .none
  /-- hoist at whose bound its next word waits (R237) -/
  hoistWait : Option Nat := Option.none
  stopped : Bool := false
  finished : Bool := false
deriving DecidableEq, Repr

/-- A context entry (R328). -/
structure Ctx where
  part : Nat := 0
  cls : Nat := 0
  hg : Nat := 0
  bidx : Nat := 0
  batch : Bool := false
  state : Nat := 0
  fault : Nat := 0
  slice : Nat := 0
  wmask : Nat := 0
  save : Nat := 0
  gsave : Nat := 0
  glen : Nat := 0
  btable : Nat := 0
  pool : Nat := 0
  clip : Nat := 0
  elem : Nat := 0
  blockedAt : Nat := 0
  slot : Nat := 0
deriving DecidableEq, Repr

/-- What a context runs: its list, the faces of the launched unit in ascending order (their places are the member ranks
of R203), the launch values (R42), and whether its state stands in its save area (R333). -/
structure Run where
  list : Nat := 0
  words : Nat := 0
  strict : Bool := false
  seed : Nat := 0
  origin : Nat := 0
  faces : List Nat := []
  /-- launch site: a page index, or 0x10000 + 64 × partition + slot for PART_CMD, 0x20000 for the cage -/
  site : Nat := 0
  saved : Bool := false
  /-- the flags on which its faces held when it became BLOCKED, with the awaited values (R334): space, index, drift (for a
  stope flag, the stope) -/
  waits : List (Nat × Nat × Nat × Bool) := []
  /-- the band it runs, by `bandKey` -/
  band : Option Nat := .none
  /-- origins of the resident configurations, by member rank, while the state stands in the save area -/
  srcs : NMap (List Nat) := []
  /-- what a partial quantisation word has decided, by member rank, while the state stands in the save area (R192) -/
  decs : NMap QDec := []
  /-- the last step boundary of a BATCH context, in the low 32 bits of the step counter (R345) -/
  step : Nat := 0
deriving DecidableEq, Repr

/-- A launch that has been accepted (R43): its site's values, and whether it loads, waits for its GCOUNT, has failed
(LOAD_ERR) or has started. -/
structure Launch where
  list : Nat
  strict : Bool
  /-- UNIT_BIND named a context at the launch; its slot -/
  bound : Bool
  slot : Nat
  arm : Option Nat
  origin : Nat
  seed : Nat
  faces : List Nat
  /-- 1 LOADING, 2 ARMED, 3 started, 5 failed -/
  state : Nat
  err : Nat := 0
  /-- the context that it is for, when it is bound -/
  handle : Nat := 0
  /-- identity of the master that launched -/
  src : Nat := 0
  /-- GCOUNT after the jump of CAL_LAUNCH that carried it past the armed value (R360) -/
  jumped : Option Nat := .none
deriving DecidableEq, Repr

/-- The context last swapped out of a table slot (R330); `torn` when it was torn down there and has been destroyed since, until it is
created again (R44). -/
structure SlotLast where
  handle : Nat
  torn : Bool := false
deriving DecidableEq, Repr

/-- How a partition takes turns (R331, R332, R337). -/
structure PartSt where
  running : Option Nat := .none
  /-- a switch is in progress -/
  switching : Bool := false
  /-- outgoing context whose state is to be saved, and whether it leaves as BLOCKED -/
  outgoing : Option Nat := .none
  outBlocked : Bool := false
  incoming : Option Nat := .none
  /-- ASYNC context that a band launch pre-empted -/
  preempted : Option Nat := .none
  /-- BAND contexts in launch order -/
  bands : List Nat := []
  /-- slot of the last ASYNC context that ran -/
  lastSlot : Nat := 63
  /-- the partition stands still for a spare substitution (R640) -/
  held : Bool := false
  /-- band contexts that the cage launches again when the partition goes on (R641) -/
  relaunch : List Nat := []
  /-- swapped-out READY contexts, in the order in which their waits completed (R336) -/
  ready : List Nat := []
deriving DecidableEq, Repr

/-- A window of the window table (R325). -/
structure Window where
  base : Nat := 0
  limit : Nat := 0
  attr : Nat := 0
deriving DecidableEq, Repr

/-- A batch request that waits (R345). -/
structure BatchReq where
  handle : Nat
  leave : Bool
  stream : Nat
  step : Nat
  bytes : Nat
  deferred : Bool
deriving DecidableEq, Repr

/-- A member of a batched context (R347): its slot, stream, reservation and join step. -/
structure Member where
  slot : Nat
  stream : Nat
  bytes : Nat
  join : Nat
deriving DecidableEq, Repr

/-- A piece of a copy through a crosscut port: window offset, bytes requested of a read, bytes of a write (R564). -/
structure Piece where
  off : Nat
  len : Nat
  bytes : List Byte := []
deriving DecidableEq, Repr

/-- A descriptor on a hoist (R223, R254). -/
structure HoistJob where
  /-- number of the job (the model's own) -/
  id : Nat
  face : Nat
  handle : Nat
  pos : Nat
  word : Nat
  desc : List Byte
  /-- index list of a GATHER, read at take -/
  idx : List Byte := []
  /-- face-store offset the descriptor came from (HOIST_ERR) -/
  doff : Nat
  taken : Bool := false
  /-- its reads and writes may go on: set at the take of a copy within the device, and of a copy through ports once the copies before it
  allow it (R224, R255) -/
  begun : Bool := false
  /-- rows already moved of a copy from a window to a window -/
  row : Nat := 0
  /-- bytes written so far into a window -/
  sent : Nat := 0
  /-- port whose far device it still needs (R564) -/
  port : Option Nat := .none
  /-- the pieces are reads -/
  reading : Bool := false
  /-- pieces not yet sent -/
  todo : List Piece := []
  /-- pieces sent and not answered -/
  waiting : Nat := 0
  /-- bytes that reads have brought, by piece number -/
  got : NMap (List Byte) := []
  /-- it completes without sending or writing (R574) -/
  void : Bool := false
deriving DecidableEq, Repr

/-- The use of a transaction tag (R564): hoist, job and piece. -/
structure TagUse where
  hoist : Nat
  job : Nat
  piece : Nat
deriving DecidableEq, Repr

/-- A screen tile that a face owns (R434, R437, R439): the tile, the context and face that claimed it, the place in its list,
the fragments of that primitive already delivered, and the last PSEQ delivered. -/
structure TileOwner where
  tile : Nat
  handle : Nat
  face : Nat
  idx : Nat := 0
  off : Nat := 0
  last : Nat := 0xFFFFFFFF
deriving DecidableEq, Repr

/-- The job that a tiler runs (R421-R440). -/
structure RasJob where
  desc : List Byte
  /-- 0, or the STATUS with which it ends (R424) -/
  status : Nat := 0
  /-- its descriptor has passed the checks of job start (R423) -/
  checked : Bool := false
  /-- binning of the pass is complete, and its tiles are claimable -/
  binned : Bool := false
  /-- binning has paused before primitive `next` (R431) -/
  paused : Bool := false
  next : Nat := 0
  passes : Nat := 0
  /-- lists of the pass by screen tile, and the blocks that hold them (R430) -/
  lists : NMap (List Nat) := []
  blocks : NMap (List Nat) := []
  used : Nat := 0
  /-- tiles of the pass that no face has claimed -/
  todo : List Nat := []
  owners : List TileOwner := []
  /-- tiles that the job has stored (R440) -/
  stored : List Nat := []
  nBinned : Nat := 0
  nCulled : Nat := 0
  nInvalid : Nat := 0
  nFrags : Nat := 0
  nStored : Nat := 0
deriving DecidableEq, Repr

/-- A tiler: the descriptor addresses that wait, and the job that runs (R421). -/
structure Tiler where
  queue : List Nat := []
  job : Option RasJob := .none
deriving DecidableEq, Repr

/-- A camera frame that a stream pipeline takes (R382, R394, R406): FRAME_SEQ, the stamps of its frame-start and frame-end packets,
the page settings latched at its start (the words from 0x100), the pixel rows, its STATUS, and the latched hint with VALID. -/
structure AsFrame where
  seq : Nat
  sof : Nat
  eof : Nat := 0
  cfg : List Nat
  rows : List (List Nat) := []
  status : Nat := 0
  hint : List Byte := []
  valid : Bool := false
deriving DecidableEq, Repr

/-- A stream pipeline (R406, R409): the next FRAME_SEQ, the frame that arrives, the frame whose feature lists are not yet
written, and the last completed frame with its STATUS and settings. -/
structure AssaySt where
  next : Nat := 0
  frame : Option AsFrame := .none
  ended : Option AsFrame := .none
  last : Option (Nat × Nat × List Nat) := .none
deriving DecidableEq, Repr

/-- A matcher or flow job (R410): its stream and frame, the settings and the hint, and for a matcher job that runs the stream,
the frame and the settings of its reference list (R395). -/
structure AsJob where
  stream : Nat
  seq : Nat
  cfg : List Nat
  hint : List Byte
  valid : Bool
  refStream : Nat := 0
  ref : Option (Nat × List Nat) := .none
deriving DecidableEq, Repr

/-- The shared unit (R411): its two queues and the jobs that run. -/
structure MfUnit where
  matchQ : List AsJob := []
  matchJob : Option AsJob := .none
  flowQ : List AsJob := []
  flowJob : Option AsJob := .none
deriving DecidableEq, Repr

/-- A flow (R477, R481, R488, R500): the frame that it has open, the greatest sequence number accepted and those of the window
with the copies that came (bit 0 the first port, bit 1 the second), the frame and timestamp of reference, the planes that have
ended, the readings at which packets last came on either path. -/
structure FlowSt where
  openN : Option Nat := .none
  top : Option Nat := .none
  seen : NMap Nat := []
  tsRef : Option (Nat × Nat) := .none
  ended : Nat := 0
  lastA : Option Nat := .none
  lastB : Option Nat := .none
deriving DecidableEq, Repr

/-- A sample of an SPI port (R497): its stamp, SYNTH, OVERRUN. -/
structure SpiSample where
  stamp : Nat
  synth : Bool
  overrun : Bool := false
deriving DecidableEq, Repr

/-- An SPI port (R497, R498): the transaction that runs, the pending one, and the reading at the last accepted edge or synthetic
start. -/
structure SpiSt where
  job : Option SpiSample := .none
  waiting : Option SpiSample := .none
  last : Option Nat := .none
deriving DecidableEq, Repr

/-- A camera port (R492, R493): a frame is open, its lines and the last error of the frame. -/
structure CamSt where
  inFrame : Bool := false
  lines : Nat := 0
  err : Nat := 0
deriving DecidableEq, Repr

/-- The job that a sorter runs (R281-R288): its descriptor, and 0 or the STATUS with which it ends. -/
structure SortJob where
  desc : List Byte
  status : Nat := 0
deriving DecidableEq, Repr

/-- A sorter: the descriptor addresses that wait, and the job that runs (R281). -/
structure Sorter where
  queue : List Nat := []
  job : Option SortJob := .none
deriving DecidableEq, Repr

/-- A crosscut port (R561, R564, R570): SEQ of the next flit sent and of the next expected, the replay buffer, the flits that
wait, the outstanding tags, the consecutive heartbeat misses, and the replays of the oldest held flit. -/
structure XcPort where
  txSeq : Nat := 0
  rxSeq : Nat := 0
  held : List (List Byte) := []
  queue : List (List Byte) := []
  tags : NMap TagUse := []
  misses : Nat := 0
  /-- GCOUNT of the last heartbeat that arrived within its window -/
  hbGot : Option Nat := .none
  replays : Nat := 0
  /-- reset count that the peer reported at the last training -/
  peerReset : Option Nat := .none
deriving DecidableEq, Repr

/-- An Adpor session (R543, R550): the reply that it keeps, MASK, REPEAT and DPORT of its last STREAM_CTRL. -/
structure Session where
  kept : Option (List Byte) := .none
  mask : Nat := 0
  rep : Nat := 0
  dport : Nat := 0
deriving DecidableEq, Repr

/-- A gate control list (R536): its base and cycle on T of CAL_LAUNCH, and the gates and interval of each entry. -/
structure GateList where
  base : Nat
  cycle : Nat
  rows : List (Nat × Nat)
deriving DecidableEq, Repr

/-- The egress of an Adit port (R536, R537): the operating list, the pending list with the instant at which it takes over, and
the frames that wait for a gate, each with its traffic class. -/
structure AditSt where
  oper : Option GateList := .none
  pending : Option (GateList × Nat) := .none
  queue : List (Nat × Out) := []
deriving DecidableEq, Repr

/-- A frame of the receive queue of the Adit ports (R552): its port, its bytes, and ADIT_IPV4 and ADIT_UDP as they stood when it came
(R555). -/
structure RxFrame where
  port : Nat
  frame : List Byte
  ip : Nat
  udp : Nat
deriving DecidableEq, Repr

/-- A stream of the recovery function (R539): source MAC address and VLAN ID, the latest sequence number, and the history bits,
bit 0 the latest, and of those places the ones whose second copy has come. -/
structure CbStream where
  mac : Nat
  vid : Nat
  recov : Nat
  hist : Nat
  both : Nat := 0
deriving DecidableEq, Repr

/-- What the cage keeps of a launched or due band (R73-R89). -/
structure BandRun where
  launched : Bool := false
  /-- the deadline line has passed -/
  due : Bool := false
  complete : Bool := false
  fallback : Bool := false
  fbNone : Bool := false
  inputMissing : Bool := false
  haloMissing : Bool := false
  listFault : Bool := false
  poseNone : Bool := false
  spareActive : Bool := false
  switched : Bool := false
  ready : Nat := 0
  deadline : Nat := 0
  /-- source frame of a substitution (R85) -/
  src : Nat := 0
  poseSeq : Nat := 0
  /-- bytes of the latched pose, when latched (R461) -/
  pose : Option (List Byte) := .none
  /-- handle of the context in which it was launched -/
  handle : Nat := 0
  /-- its pose latch has taken place; the STANDBY device still waits for the forwarded pose (R573) -/
  latched : Bool := false
  poseWait : Bool := false
  /-- heads whose band record has been written, bit per head -/
  recorded : Nat := 0
  /-- at the edge of its deadline line: when its done flag had been set, if it had, and the time-unit reading (R83, R89) -/
  edge : Option (Option Nat × Nat) := .none
deriving DecidableEq, Repr

/-- What the cage keeps of a head group (R96, R97, R102): the first frame that it runs, the last frame whose band 0 launch line
has passed, the weight set and slot in force, those before the last switch, the frames of the last switches, and the frame and line at
which schedule entries of the group last fired, with those entries (R78). -/
structure GroupSt where
  start : Option Nat := .none
  last0 : Option Nat := .none
  weights : Nat := 0
  oldWeights : Nat := 0
  wAt : Option Nat := .none
  oldSlot : Nat := 0
  sAt : Option Nat := .none
  fired : Option (Nat × Nat × List Nat) := .none
  /-- the last reference frame dropped (R95) -/
  refDrop : Option Nat := .none
deriving DecidableEq, Repr

/-- Adaptation of a head group (R292-R314): the current step, 0 waiting, 1 launched, 2 armed; what befell it; its context. -/
structure AdaptSt where
  step : Nat := 0
  phase : Nat := 0
  /-- the list failed to load -/
  failed : Bool := false
  /-- the reducer abandoned a request of the step (R306) -/
  mismatch : Bool := false
  handle : Nat := 0
  /-- at the first cycle of its decision line: every adapting group had set STEP_DONE (R309) -/
  edge : Option Bool := .none
  /-- steps committed since the enable (R313) -/
  commits : List Nat := []
deriving DecidableEq, Repr

/-- The reduction in progress (R303-R306): its key, the results' addresses, the local total, the partial sums that have
arrived from W and N and the totals, by byte offset. -/
structure RedJob where
  step : Nat
  seq : Nat
  op : Nat
  elems : Nat
  bufs : List Nat
  localSum : List Byte
  fromW : NMap (List Byte) := []
  fromN : NMap (List Byte) := []
  total : NMap (List Byte) := []
  /-- bytes of the chunk in progress that each port has brought -/
  pos : NMap Nat := []
deriving DecidableEq, Repr

/-- One line buffer of a head's layers (R459): its frame and line, and for each layer the pixels whose bytes have arrived, in order: the
effective alpha and the colour, none where the layer does not show. A layer that lacks pixels at the end of the line underruns
there. -/
structure LineBuf where
  frame : Nat := 0
  line : Nat := 0
  layers : List (List (Option (Nat × List Nat))) := []
deriving DecidableEq, Repr

/-- A head (R449-R469): its timing (0 off, 1 waits for a frame start, 2 runs, 3 completes its frame before a rephase), the
frame and line in progress, what it latched at the layer latch, and Panel Replay. -/
structure HeadSt where
  timing : Nat := 0
  frame : Nat := 0
  line : Nat := 0
  /-- latched layer words (0x200-0x2FC), the latched background and MUTE (R453) -/
  layers : List Nat := []
  bg : Nat := 0
  mute : Bool := false
  /-- layers switched off at some line of the band in progress, bit per layer (R460, R89) -/
  bandUnder : NMap Nat := []
  /-- Panel Replay: 0 none, 1 requested, 2 the whole next frame is sent as an update, 4 it has been sent, 3 holding (R467) -/
  hold : Nat := 0
  /-- the line at which HOLD_REQ was cleared during hold: frame, line (R469) -/
  wake : Option (Nat × Nat) := .none
  /-- what the sink supports, as read at HPD: rates in [3:0], lane counts in [6:4], Panel Replay in [8] (R445) -/
  sink : Nat := 0
  /-- the link configuration that is being trained, by its place among those of R445 -/
  training : Option Nat := .none
  /-- the buffers of the line in progress and of the line that is being fetched (R459) -/
  cur : Option LineBuf := .none
  next : Option LineBuf := .none
deriving DecidableEq, Repr

/-- What ingress keeps of a slot of an input or reference store (R486-R489): the pixels that have arrived, as intervals by
plane × 16384 + row; the row groups flagged; whether a pose has arrived; the flows that have ended the frame. -/
structure SlotSt where
  rows : NMap (List (Nat × Nat)) := []
  flagged : List Nat := []
  pose : Bool := false
  ended : List Nat := []
deriving DecidableEq, Repr

/-- The machine. -/
structure State where
  /-- commands that wait, first in, first out (the model's own) -/
  pending : List Instr
  /-- register file: the words written since reset, by page × 1024 + offset / 4; others hold their reset value -/
  regs : NMap Word
  /-- low words of 64-bit registers written and held (R9) -/
  held : NMap Word
  /-- high words of 64-bit registers latched by a read of the low word (R9) -/
  latch : NMap Word
  /-- reply to the last access -/
  bus : BusReply
  /-- DRAM, galleries and face stores, by device address (R240) -/
  mem : NMap Byte
  /-- addresses of the 8-byte words that hold an uncorrectable error (R262) -/
  eccBad : List Nat
  /-- addresses of the 8-byte words that hold a single-bit error, which the next read corrects (R262) -/
  eccOne : List Nat
  /-- gallery flags that are set: drift × 4096 + index (R199) -/
  gflags : List Nat
  /-- stope flags that are set: stope × 256 + index (R199) -/
  sflags : List Nat
  /-- the sump ring (R636) -/
  sump : NMap SumpEntry
  /-- FAULT_OUT is asserted (R575) -/
  faultOut : Bool
  /-- TAKE_OUT is high (R577) -/
  takeOut : Bool
  /-- an unrepairable fault has occurred, or FAULT_SET was written, since the last reset (R575) -/
  unrepairable : Bool
  time : TimeUnit
  boot : Boot
  power : Power
  /-- logical faces that have run something, by number -/
  faces : NMap FaceSt
  /-- resident context entries, by handle (R327) -/
  ctxs : NMap Ctx
  /-- what each context runs, by handle -/
  runs : NMap Run
  /-- the context last swapped out of each table slot (R330) -/
  slotLast : NMap SlotLast
  parts : NMap PartSt
  /-- launches by site (R43, R326): a page index, or 0x10000 + 64 × partition + slot for PART_CMD -/
  launches : NMap Launch
  windows : NMap Window
  /-- outcome of the context command in progress (R329) -/
  ctxCmd : Option Nat
  batchReqs : List BatchReq
  members : NMap (List Member)
  /-- hoist queues, the head first (R237) -/
  hoists : NMap (List HoistJob)
  /-- the bands, by `bandKey` -/
  bands : NMap BandRun
  /-- what the cage keeps of the head groups -/
  groups : NMap GroupSt
  /-- the schedule: four words of each entry (R77) -/
  sched : NMap (List Nat)
  /-- model slots that load (R67) -/
  slotLoading : List Nat
  /-- forwarded poses that the STANDBY device has not latched, by `bandKey` (R573) -/
  fwdPoses : NMap (List Byte)
  adapt : NMap AdaptSt
  /-- steps for which a late notice has been sent or taken (R309, R311) -/
  lateSeen : NMap Bool
  red : Option RedJob
  /-- REDUCE payloads that wait for the local request: port, bytes -/
  redWait : List (Nat × List Byte)
  /-- done flags that the cage watches, by drift × 4096 + index, with the time-unit reading at which each was set (R83,
  R89) -/
  doneWatch : NMap (Option Nat)
  /-- the heads, by number -/
  heads : NMap HeadSt
  /-- the counts of the frame in progress that FRAME_SUM will hold (R366): replays on N, E, S and W, link retrains, frames
  recovered, corrected errors, and the changes of the throttle step in it -/
  frameSum : List Nat
  /-- rings with a GAP pending (0 input record, 1 timing record) and the entries lost since the last GAP (R368) -/
  recGap : NMap Nat
  /-- SEQ of the next timing record entry (R362) -/
  trecSeq : Nat
  /-- planes whose halo strips have arrived, bit per plane, by (group × 4 + slot) × 512 + row group × 2 + side, side 1 for
  E (R91) -/
  haloGot : NMap Nat
  /-- slots of the frame stores, by (group × 2 + reference) × 4 + slot -/
  slots : NMap SlotSt
  /-- descriptors of the valid model slots, as loaded (R66, R67) -/
  slotDesc : NMap (List Byte)
  /-- crosscut ports -/
  xc : NMap XcPort
  /-- the last NUMBER accepted from, or sent as, an origin, by ROW × 8 + COL (R567) -/
  bcastLast : NMap Nat
  /-- the level of PEER_FAULT as recognised (R576) -/
  peerFault : Bool
  /-- a takeover event waits for a line start (R577) -/
  takePend : Bool
  /-- the Adpor sessions -/
  sess : NMap Session
  /-- the egress of the Adit ports -/
  adits : NMap AditSt
  /-- the receive queue that the two Adit ports share, oldest first (R552) -/
  rxq : List RxFrame
  /-- streams of the recovery function, by entry -/
  cb : NMap CbStream
  /-- number of the next hoist job (the model's own) -/
  jobSeq : Nat
  /-- the tilers, by die -/
  tilers : NMap Tiler
  /-- the sorters, by die -/
  sorters : NMap Sorter
  /-- the stream pipelines, by number -/
  assay : NMap AssaySt
  mf : MfUnit
  /-- the camera ports -/
  cams : NMap CamSt
  /-- the flows -/
  flows : NMap FlowSt
  /-- the SPI ports -/
  spis : NMap SpiSt
  /-- the cage has stopped because a replay entry did not match (R372) -/
  replayStop : Bool
  /-- what the block has sent (the model's own) -/
  out : List Out
  /-- counter of the free values drawn (the model's own) -/
  free : Nat
deriving DecidableEq, Repr

/-- The machine right after reset: no register written, nothing stored, FAULT_OUT asserted (R614, R661), the boot window
open at step 1 (R589). -/
def State.reset : State where
  pending := []
  regs := []
  held := []
  latch := []
  bus := {}
  mem := []
  eccBad := []
  eccOne := []
  gflags := []
  sflags := []
  sump := []
  faultOut := true
  takeOut := false
  unrepairable := false
  time := {}
  boot := {}
  power := {}
  faces := []
  ctxs := []
  runs := []
  slotLast := []
  parts := []
  launches := []
  windows := []
  ctxCmd := none
  batchReqs := []
  members := []
  hoists := []
  bands := []
  groups := []
  sched := []
  slotLoading := []
  fwdPoses := []
  adapt := []
  lateSeen := []
  red := none
  redWait := []
  doneWatch := []
  heads := []
  frameSum := List.replicate 8 0
  recGap := []
  trecSeq := 0
  haloGot := []
  slots := []
  slotDesc := []
  xc := []
  bcastLast := []
  peerFault := false
  takePend := false
  sess := []
  adits := []
  rxq := []
  cb := []
  jobSeq := 0
  tilers := []
  sorters := []
  assay := []
  mf := {}
  cams := []
  flows := []
  spis := []
  replayStop := false
  out := []
  free := 0

end Sys2Proof.Machine
end

