-- ==== Sys2Proof/Machine/Ops.lean ====
section
/-! DEFINITION. The named operations of the machine: reading and writing register words, the time-unit reading and
GCOUNT, tally counters (R40), interrupt causes (R35), faults and the sump (R37, R634, R636), the FAULT_OUT pin (R575),
access checks (R28-R32, R590, R599) and replies. -/
namespace Sys2Proof.Machine

/-! ### Registers -/

/-- The register word at an offset of a page, as the register file holds it. -/
def State.rd (s : State) (p off : Nat) : Nat := (NMap.get (regReset (regKey p off)) s.regs (regKey p off)).toNat

/-- The state with a register word written. -/
def State.wr (s : State) (p off v : Nat) : State := { s with regs := NMap.put s.regs (regKey p off) (BitVec.ofNat 32 v) }

/-- A 64-bit register, its low word at `off` (R9). -/
def State.rd64 (s : State) (p off : Nat) : Nat := s.rd p off + 2 ^ 32 * s.rd p (off + 4)

/-- The state with a 64-bit register written. -/
def State.wr64 (s : State) (p off v : Nat) : State := (s.wr p off v).wr p (off + 4) (v / 2 ^ 32)

/-- A field of a register. -/
def State.rf (s : State) (p off hi lo : Nat) : Nat := fld (s.rd p off) hi lo

/-- The state with a field of a register written. -/
def State.wf (s : State) (p off hi lo v : Nat) : State := s.wr p off (setFld (s.rd p off) hi lo v)

/-- A bit of a register. -/
def State.rb (s : State) (p off b : Nat) : Bool := bit (s.rd p off) b

/-- The state with a bit of a register written. -/
def State.wb (s : State) (p off b : Nat) (v : Bool) : State := s.wr p off (setBit (s.rd p off) b v)

/-- A counter register incremented, holding at its greatest value. -/
def State.incSat (s : State) (p off : Nat) (n : Nat := 1) : State := s.wr p off (min 0xFFFFFFFF (s.rd p off + n))

/-- A counter register incremented modulo 2^32. -/
def State.incWrap (s : State) (p off : Nat) (n : Nat := 1) : State := s.wr p off ((s.rd p off + n) % 2 ^ 32)

/-- A 64-bit counter register incremented modulo 2^64. -/
def State.inc64 (s : State) (p off : Nat) (n : Nat := 1) : State := s.wr64 p off ((s.rd64 p off + n) % 2 ^ 64)

/-- CTRL.EN of a page (R35). -/
def State.en (s : State) (p : Nat) : Bool := s.rb p 0x008 0

/-- CTRL.QUIESCE of a page: the block takes no work beyond what is in progress (R35, log entry 29). -/
def State.quiet (s : State) (p : Nat) : Bool := s.rb p 0x008 1

/-! ### Memory and flags -/

/-- `n` bytes of device memory as a little-endian number. -/
def State.ld (s : State) (a n : Nat) : Nat := Memory.readLe s.mem a n

/-- `n` bytes of device memory. -/
def State.ldBytes (s : State) (a n : Nat) : List Byte := Memory.readBytes s.mem a n

/-- Addresses of the 8-byte words that a range touches. -/
def wordsOf (a n : Nat) : List Nat := if n = 0 then [] else (List.range ((a + n - 1) / 8 - a / 8 + 1)).map fun k => 8 * (a / 8 + k)

/-- The first word of a range that holds an uncorrectable error, if any (R264). -/
def State.ueIn (s : State) (a n : Nat) : Option Nat := s.eccBad.find? fun w => decide (a / 8 * 8 ≤ w) && decide (w < a + n)

/-- A range touches an 8-byte word. -/
def touchesWord (a n w : Nat) : Bool := decide (a / 8 * 8 ≤ w) && decide (w < a + n)

/-- A range covers an 8-byte word. -/
def coversWord (a n w : Nat) : Bool := decide (a ≤ w) && decide (w + 8 ≤ a + n)

/-- The words of a range that hold an uncorrectable error. -/
def State.badWords (s : State) (a n : Nat) : List Nat := s.eccBad.filter (touchesWord a n)

/-- The words that a write of a range leaves in error: they hold an error and are covered in part (R266). -/
def State.stuckWords (s : State) (a n : Nat) : List Nat := s.eccBad.filter fun w => touchesWord a n w && !coversWord a n w

/-- Bytes written to memory: a whole word written loses its error, a word written in part keeps an uncorrectable one and stays unwritten
(R262, R266). -/
def State.stBytes (s : State) (a : Nat) (bs : List Byte) : State :=
  let n := bs.length
  let stuck := s.stuckWords a n
  { s with
    mem := if stuck = [] then Memory.writeBytes s.mem a bs
      else ((List.range n).zip bs).foldl (fun m e => if stuck.contains ((a + e.1) / 8 * 8) then m else Memory.write m (a + e.1) e.2) s.mem
    eccBad := s.eccBad.filter fun w => !coversWord a n w
    eccOne := s.eccOne.filter fun w => !coversWord a n w }

/-- Memory from `a` up to `b` cleared, with the errors of its words. -/
def State.zero (s : State) (a b : Nat) : State :=
  let out : List Nat → List Nat := List.filter fun w => !(decide (a ≤ w) && decide (w < b))
  { s with mem := Memory.zeroRange s.mem a b, eccBad := out s.eccBad, eccOne := out s.eccOne }

/-- A number written to memory as `n` little-endian bytes. -/
def State.st (s : State) (a n v : Nat) : State := s.stBytes a (leBytes n v)


/-! ### Time -/

/-- The time-unit reading (R508). -/
def State.reading (s : State) : Nat :=
  ((s.time.offset : Int) + (((s.time.count - s.time.base : Nat) : Int) * (s.rd64 timePage 0x140 : Nat) + s.time.acc0) / (2 ^ 32 : Nat)).toNat % 2 ^ 64

/-- The state with gallery flag `i` of drift `d` set or cleared (R199); a done flag that the cage watches takes the
reading at which it is first set (R89). -/
def State.setG (s : State) (d i : Nat) (v : Bool) : State :=
  let k := d * 4096 + i
  { s with
    gflags := NSet.set s.gflags k v
    doneWatch := if v && NMap.find s.doneWatch k == some none then NMap.put s.doneWatch k (some s.reading) else s.doneWatch }

/-- Gallery flag `i` of drift `d`. -/
def State.gflag (s : State) (d i : Nat) : Bool := NSet.has s.gflags (d * 4096 + i)

/-- Every gallery flag of a range set or cleared. -/
def State.setGRange (s : State) (d i n : Nat) (v : Bool) : State := (List.range n).foldl (fun t k => t.setG d (i + k) v) s

/-- T of a calendar clock: SEC × 10^9 + NS modulo 2^64 (chapter Time unit). -/
def Clock.t (c : Clock) : Nat := (c.sec * 1000000000 + c.ns) % 2 ^ 64

/-- GCOUNT: floor of T of CAL_LAUNCH over 1,024 (R359). -/
def State.gcount (s : State) : Nat := s.time.c2.t / 1024

/-! ### Tallies and interrupts -/

/-- The offset of tally counter `k`. -/
def tallyOff (k : Nat) : Nat := 0x030 + 8 * k

/-- Counter `k` counts an event of a source: its SEL names the source, its EN is 1 and FREEZE is 0 (R40). -/
def State.tallyHit (s : State) (p code k : Nat) : Bool :=
  decide (s.rf p 0x020 (8 * k + 7) (8 * k) = code) && s.rb p 0x024 k && !s.rb p 0x024 8 && code != 0

/-- Counter `k` counts `n` events, saturating (R40). -/
def State.tallyOne (s : State) (p code n k : Nat) : State :=
  if s.tallyHit p code k then s.wr64 p (tallyOff k) (min (2 ^ 64 - 1) (s.rd64 p (tallyOff k) + n)) else s

/-- `n` events of a tally source of a page (R40). -/
def State.tallyN (s : State) (p code n : Nat) : State :=
  (((s.tallyOne p code n 0).tallyOne p code n 1).tallyOne p code n 2).tallyOne p code n 3

/-- One event of a tally source of a page (R40). -/
def State.tally (s : State) (p code : Nat) : State := s.tallyN p code 1

/-- An interrupt cause raised in IRQ_STAT (R35). -/
def State.irq (s : State) (p b : Nat) : State := s.wb p 0x010 b true

/-! ### Faults -/

/-- FAULT_OUT asserted (R575). -/
def State.assertFaultOut (s : State) : State :=
  { s with unrepairable := true, faultOut := true, out := if s.faultOut then s.out else s.out ++ [.pin "FAULT_OUT" true] }

/-- A sump entry stands after another of the same cycle: the greater PAGE, then the greater CODE (R637, R671). -/
def SumpEntry.behind (a b : SumpEntry) : Bool := a.time == b.time && (decide (b.page < a.page) || (a.page == b.page && decide (b.code < a.code)))

/-- An entry put into the ring before place `w`'s successor: it moves ahead of the unread entries, at most `n`, of its own cycle that
stand after it (R637, log entry 2). -/
def sumpInsert (e : SumpEntry) : Nat → Nat → NMap SumpEntry → NMap SumpEntry
  | 0, w, m => NMap.put m w e
  | n + 1, w, m => match NMap.find m ((w + 4095) % 4096) with
    | some x => if x.behind e then sumpInsert e n ((w + 4095) % 4096) (NMap.put m w x) else NMap.put m w e
    | none => NMap.put m w e

/-- A sump entry written (R636, R637): a full ring overwrites its oldest unread entry and counts LOST. -/
def State.sumpWrite (s : State) (e : SumpEntry) : State :=
  let w := s.rf sumpPage 0x104 11 0
  let n := s.rf sumpPage 0x100 12 0
  let s1 := { s with sump := sumpInsert e (min n 4095) w s.sump }
  let s2 := (s1.wr sumpPage 0x104 ((w + 1) % 4096)).incWrap sumpPage 0x110
  let s3 :=
    if n < 4096 then s2.wf sumpPage 0x100 12 0 (n + 1)
    else ((s2.wr sumpPage 0x108 ((s2.rf sumpPage 0x108 11 0 + 1) % 4096)).wf sumpPage 0x100 31 16
      (min 0xFFFF (s2.rf sumpPage 0x100 31 16 + 1))).tally sumpPage 0xA5
  let s4 := (s3.irq sumpPage 8).tally sumpPage 0xA4
  let s5 := if e.device then s4.irq sumpPage 9 else s4
  if n + 1 = 2048 then s5.irq sumpPage 10 else s5

/-- A fault as the manual describes it: its code, the identity of the master that caused it, the context torn down, the
detail of the sump, and whether it is a device fault and unrepairable (R37, R634, R636). -/
structure FaultInfo where
  page : Nat
  code : Nat
  source : Nat := 7
  handle : Nat := 0x7FF
  detail : Nat := 0
  device : Bool := false
  unrep : Bool := false

/-- The page's FAULT register takes the first fault; a further one sets MORE (R37). -/
def State.faultReg (s : State) (f : FaultInfo) : State :=
  if s.rf f.page 0x01C 15 0 = 0 then (s.wr f.page 0x01C (f.code + f.source * 65536)).irq f.page 0
  else s.wb f.page 0x01C 31 true

/-- A fault is raised: FAULT, the tally FAULT_RAISED, the sump, and FAULT_OUT when it is unrepairable (R37, R634). -/
def State.fault (s : State) (f : FaultInfo) : State :=
  let s1 := (s.faultReg f).tally f.page 3
  let s2 := s1.sumpWrite ⟨f.code, f.source, f.device, f.unrep, f.page, f.handle, s.reading, s.gcount, f.detail⟩
  if f.unrep then s2.assertFaultOut else s2

/-- A fault of a code on a page, caused by a master. -/
def State.faultBy (s : State) (page code source : Nat) : State := s.fault { page := page, code := code, source := source }

/-! ### Free values -/

/-- The next free value of `n` bits, and the state that has drawn it (log entry 8). -/
def State.draw (s : State) (n : Nat) : Nat × State := ((Config.freeValue s.free).toNat % 2 ^ n, { s with free := s.free + 1 })

/-! ### Accesses -/

/-- A power domain is on. -/
def State.domOn (s : State) (d : Nat) : Bool := s.rb pwrPage 0x10C d

/-- The domain of a page is on. -/
def State.pageOn (s : State) (p : Nat) : Bool := s.domOn (pageDomain p)

/-- A bus error: no register changes, the target page (the device page when the index is unassigned) counts BUS_ERROR,
and the master is told the cause (R32). -/
def State.busFail (s : State) (p cause : Nat) : State :=
  { s.tally (if pageAssigned p then p else devPage) 2 with bus := ⟨cause, 0⟩ }

/-- The identity of a control core (R46). -/
def isCore (id : Nat) : Bool := (decide (1 ≤ id) && decide (id ≤ 3)) || (decide (0x20 ≤ id) && decide (id < 0x40))

/-- A bus error of an access by an identity: firmware records the cause in the sump when a control core made it (R33, R636; its CODE
and PAGE are log entry 44). -/
def State.busErr (s : State) (id p cause : Nat) : State :=
  let t := s.busFail p cause
  if isCore id then t.sumpWrite ⟨0, id, false, false, if pageAssigned p then p else devPage, 0x7FF, s.reading, s.gcount, cause⟩ else t

/-- The access right of an identity to a page's class (R599). -/
def State.accOk (s : State) (id p : Nat) (write : Bool) : Bool :=
  bit (s.rd64 bootPage ((if write then 0x300 else 0x380) + 8 * pClass p)) id

/-- The cause in which an access to control space ends before the page sees it; 0 when it reaches the page
(R28, R29, R31, R590, R599; the order of the checks is log entry 9). -/
def State.accessErr (s : State) (id p off : Nat) (write : Bool) : Nat :=
  if off % 4 ≠ 0 then 2
  else if !pageAssigned p then 1
  else if s.boot.window && id != 0 && !(!write && p == bootPage && decide (off < 0x200)) then 3
  else if !s.accOk id p write then 3
  else if !s.pageOn p && !(!write && decide (off < 0x010)) then 5
  else 0

/-- A reply with a word and no error. -/
def State.reply (s : State) (v : Nat) : State := { s with bus := ⟨0, BitVec.ofNat 32 v⟩ }

/-- A write of an identity to an offset of a page: the action runs when the access reaches the page. -/
def guardW (id p off : Nat) (s : State) (act : State → State) : State :=
  let c := s.accessErr id p off true
  if c = 0 then act (s.reply 0) else s.busErr id p c

/-- A read of an identity of an offset of a page: the action runs when the access reaches the page. -/
def guardR (id p off : Nat) (s : State) (act : State → State) : State :=
  let c := s.accessErr id p off false
  if c = 0 then act (s.reply 0) else s.busErr id p c

/-- A write of CTRL of a page whose enable is checked: EN is set unless a fault code refuses it, the other bits take effect, and
setting or clearing EN has its effect. -/
def ctrlWrite (id p v : Nat) (refuse : State → Nat) (on off : State → State) (s : State) : State :=
  let n := v % 4
  let old := s.en p
  if bit n 0 && !old then
    let t := s.wr p 0x008 (setBit n 0 false)
    if refuse t = 0 then on (t.wb p 0x008 0 true) else t.faultBy p (refuse t) id
  else if !bit n 0 && old then off (s.wr p 0x008 n) else s.wr p 0x008 n

/-- CTRL of a page with EN set, and with EN cleared. -/
def State.ctrlWith (s : State) (p : Nat) (en : Bool) : Nat := setBit (s.rd p 0x008) 0 en

/-- An item sent to the outside. -/
def State.send (s : State) (o : Out) : State := { s with out := s.out ++ [o] }

/-- The pages of a domain. -/
def domPages (d : Nat) : List Nat := allPages.filter fun p => pageDomain p == d

end Sys2Proof.Machine
end

