-- ==== Sys2Proof/Machine/Clock.lean ====
section
/-! DEFINITION. The time unit (R507-R533): the tick, the calendar clocks, adjustment requests and jump refusal, PTP and
GENLOCK, the timestamp channels, and the meanings of their commands. -/
namespace Sys2Proof.Machine

/-- Clock `c` of the time unit. -/
def TimeUnit.clock (t : TimeUnit) (c : Nat) : Clock := match c with
  | 0 => t.c0
  | 1 => t.c1
  | _ => t.c2

/-- The time unit with clock `c` replaced. -/
def TimeUnit.setClock (t : TimeUnit) (c : Nat) (k : Clock) : TimeUnit := match c with
  | 0 => { t with c0 := k }
  | 1 => { t with c1 := k }
  | _ => { t with c2 := k }

/-- Clock `c`. -/
def State.clock (s : State) (c : Nat) : Clock := s.time.clock c

/-- The state with clock `c` replaced. -/
def State.setClock (s : State) (c : Nat) (k : Clock) : State := { s with time := s.time.setClock c k }

/-- Offset of the register block of clock `c` (R530). -/
def clkOff (c : Nat) : Nat := 0x140 + 0x40 * c

/-- RATE of clock `c`, in 2^-32 ns per tick. -/
def State.rate (s : State) (c : Nat) : Nat := s.rd64 timePage (clkOff c)

/-- The half nanosecond, in 2^-32 ns, that a tick adds for a slew (R517). -/
def Clock.half (k : Clock) : Int := if 0 < k.halves then 2 ^ 31 else if k.halves < 0 then -(2 ^ 31) else 0

/-- The half nanoseconds left after a tick. -/
def Clock.halvesNext (k : Clock) : Int := if 0 < k.halves then k.halves - 1 else if k.halves < 0 then k.halves + 1 else 0

/-- Seconds, nanoseconds normalised by carry or borrow into SEC modulo 2^48 (R511). -/
def Clock.setTotal (k : Clock) (ns : Int) : Clock :=
  let t := (ns % (2 ^ 48 * 1000000000)).toNat
  { k with sec := t / 1000000000, ns := t % 1000000000 }

/-- A tick of a calendar clock: RATE and the slew's half nanosecond added to NS and the fraction (R511, R517). -/
def Clock.tick (rate : Nat) (k : Clock) : Clock :=
  let f := (k.frac : Int) + rate + k.half
  { k.setTotal ((k.sec * 1000000000 + k.ns : Nat) + f / 2 ^ 32) with frac := (f % 2 ^ 32).toNat, halves := k.halvesNext }

/-- Any clock has slew left to apply. -/
def TimeUnit.slewing (t : TimeUnit) : Bool := t.c0.slew != 0 || t.c1.slew != 0 || t.c2.slew != 0

/-- The time unit after a tick: the count and both calendars advance, clock 0 gathers its slew (R507, R508, R511, R517). -/
def TimeUnit.tick (r1 r2 : Nat) (t : TimeUnit) : TimeUnit :=
  { t with
    count := (t.count + 1) % 2 ^ 64
    acc0 := t.acc0 + t.c0.half
    c0 := { t.c0 with halves := t.c0.halvesNext }
    c1 := t.c1.tick r1
    c2 := t.c2.tick r2 }

/-- One tick of the time unit; the sources CYCLE and SLEW_ACTIVE of the time page count it (R654). -/
def State.tick (s : State) : State :=
  let s1 := { s with time := s.time.tick (s.rate 1) (s.rate 2) }
  let s2 := s1.tally timePage 1
  if s.time.slewing then s2.tally timePage 0x71 else s2

/-- RATE of a clock installed: clock 0 is rebased first, so that its reading does not jump (R508, R509). -/
def setRate (c r : Nat) (s : State) : State :=
  let s1 := if c = 0 then { s with time := { s.time with offset := s.reading, base := s.time.count, acc0 := 0 } } else s
  s1.wr64 timePage (clkOff c) r

/-- A step of CAL_LAUNCH marks the armed launches whose GCOUNT it carries from below the armed value to or beyond it (R360). -/
def markJumped (old : Nat) (s : State) : State :=
  { s with launches := s.launches.map fun e => (e.1, match e.2.arm with
    | some a => if e.2.state = 2 ∧ old < a ∧ a ≤ s.gcount then { e.2 with jumped := some s.gcount } else e.2
    | none => e.2) }

/-- A clock stepped by a difference (R511, R516). -/
def stepClock (c : Nat) (d : Int) (s : State) : State :=
  if c = 0 then { s with time := { s.time with offset := (((s.time.offset : Int) + d) % 2 ^ 64).toNat } }
  else
    let t := s.setClock c ((s.clock c).setTotal (((s.clock c).sec * 1000000000 + (s.clock c).ns : Nat) + d))
    if c = 2 then markJumped s.gcount t else t

/-- JUMP_MAX in ns. -/
def State.jumpMax (s : State) : Nat := s.rf timePage 0x110 19 0

/-- The three outcomes of a request (R516). -/
inductive Adjust where
  | stepped | accepted | refused
deriving DecidableEq, Repr

/-- How a request of difference `d` ends on clock `c` (R516). -/
def State.adjust (s : State) (c : Nat) (d : Int) : Adjust :=
  if (s.clock c).arm then .stepped
  else if ((s.clock c).slew + d).natAbs ≤ s.jumpMax then .accepted else .refused

/-- A request of difference `d` on clock `c` (R516). -/
def request (c : Nat) (d : Int) (s : State) : State :=
  match s.adjust c d with
  | .stepped =>
    let s1 := stepClock c d s
    (s1.setClock c { s1.clock c with slew := 0, arm := false }).irq timePage 9
  | .accepted => s.setClock c { s.clock c with slew := (s.clock c).slew + d }
  | .refused => (s.irq timePage 8).tally timePage 0x70

/-- CLK_STAT.STATE of a clock set; a change raises CLK_STATE (R533). -/
def setClkState (c v : Nat) (s : State) : State :=
  if (s.clock c).state = v then s else (s.setClock c { s.clock c with state := v }).irq timePage 12

/-- The source that TU_SOURCE selects for calendar `c` (R520). -/
def State.calSource (s : State) (c : Nat) : Nat :=
  if c = 1 then s.rf timePage 0x120 1 0 else if c = 2 then s.rf timePage 0x120 3 2 else 0

/-- An identity may write the time unit's privileged registers (R514). -/
def State.tuPriv (s : State) (id : Nat) : Bool :=
  decide (id < 2) || (decide (8 ≤ id ∧ id < 16) && s.rb timePage 0x114 (id - 8))

/-- A privileged write to the time page (R514): DENIED from any other identity. -/
def guardTU (id off : Nat) (s : State) (act : State → State) : State :=
  guardW id timePage off s fun t => if t.tuPriv id then act t else t.busErr id timePage 3

/-- A write of CLK_RATE: an unlisted rate is discarded (R512), as is a session's while the calendar is disciplined
(R514). -/
def actRate (id c r : Nat) (s : State) : State :=
  if !rateOk (r % 2 ^ 40) then s
  else if decide (8 ≤ id ∧ id < 16) && s.calSource c != 0 then s
  else setRate c (r % 2 ^ 40) s

/-- CLK_RATE_WRITE (R509). -/
def execClkRateWrite (id : Ident) (clk : Fin 3) (rate : Nat) (s : State) : Host.Outcome State Fault Refusal :=
  .next (guardTU id (clkOff clk) s (actRate id clk rate))

/-- A write of CLK_ADJ requests the signed 64-bit difference (R515). -/
def actAdj (c d : Nat) (s : State) : State := request c (sext 64 d) s

/-- CLK_ADJ (R515, R516). -/
def execClkAdj (id : Ident) (clk : Fin 3) (delta : Nat) (s : State) : Host.Outcome State Fault Refusal :=
  .next (guardTU id (clkOff clk + 0x0C) s (actAdj clk delta))

/-- A write of CLK_SET_NS requests the set of a calendar as a difference; clock 0 has no such register (R515). -/
def actSet (c sec ns : Nat) (s : State) : State :=
  if c = 0 then s
  else request c (((sec % 2 ^ 48 * 1000000000 + ns % 2 ^ 30 : Nat) : Int) - ((s.clock c).sec * 1000000000 + (s.clock c).ns : Nat)) s

/-- CLK_SET (R515): CLK_SET_SEC is written, then CLK_SET_NS. -/
def execClkSet (id : Ident) (clk : Fin 3) (sec : Nat) (ns : Word) (s : State) : Host.Outcome State Fault Refusal :=
  .next (guardTU id (clkOff clk + 0x18) s fun t =>
    actSet clk sec ns.toNat (if clk.val = 0 then t else t.wr64 timePage (clkOff clk + 0x10) (sec % 2 ^ 48)))

/-- A write of CLK_CTRL: DISARM prevails over JUMP_ARM (R518). -/
def actClkCtrl (c v : Nat) (s : State) : State :=
  if bit v 1 then s.setClock c { s.clock c with arm := false }
  else if bit v 0 then s.setClock c { s.clock c with arm := true } else s

/-- JUMP_ARM (R518). -/
def execJumpArm (id : Ident) (clk : Fin 3) (s : State) : Host.Outcome State Fault Refusal :=
  .next (guardTU id (clkOff clk + 0x1C) s (actClkCtrl clk 1))

/-- DISARM (R518). -/
def execDisarm (id : Ident) (clk : Fin 3) (s : State) : Host.Outcome State Fault Refusal :=
  .next (guardTU id (clkOff clk + 0x1C) s (actClkCtrl clk 2))

/-- A slew point: S moves 1 ns towards zero, and the next two ticks each add or take half a nanosecond (R517). -/
def slewPoint (c : Nat) (s : State) : State :=
  let k := s.clock c
  if k.slew = 0 then s
  else if 0 < k.slew then s.setClock c { k with slew := k.slew - 1, halves := k.halves + 2 }
  else s.setClock c { k with slew := k.slew + 1, halves := k.halves - 2 }

/-- SLEW_POINT (R517). -/
def execSlewPoint (clk : Fin 3) (s : State) : Host.Outcome State Fault Refusal := .next (slewPoint clk s)

/-- A read of CLK_NS latches both words of CLK_SEC (R513); clock 0 has neither. -/
def actClkNs (c : Nat) (s : State) : State :=
  if c = 0 then s.reply 0
  else
    let k := s.clock c
    let s1 := s.reply k.ns
    { s1 with
      latch := NMap.put (NMap.put s1.latch (regKey timePage (clkOff c + 0x28)) (BitVec.ofNat 32 k.sec))
        (regKey timePage (clkOff c + 0x2C)) (BitVec.ofNat 32 (k.sec / 2 ^ 32)) }

/-- CLK_NS_READ (R513). -/
def execClkNsRead (id : Ident) (clk : Fin 3) (s : State) : Host.Outcome State Fault Refusal :=
  .next (guardR id timePage (clkOff clk + 0x20) s (actClkNs clk))

/-- A calendar whose source has changed goes to ACQUIRING, or to FREE for source 0 (R532). -/
def sourceChange (c old new : Nat) (s : State) : State :=
  if old = new then s else setClkState c (if new = 0 then 0 else 1) s

/-- A write of TU_SOURCE (R532); GENLOCK newly selected owes its first correction (R529). -/
def actTuSource (v : Nat) (s : State) : State :=
  match regAt timePage 0x120 with
  | none => s
  | some r =>
    let o1 := s.calSource 1
    let o2 := s.calSource 2
    let s1 := s.wr timePage 0x120 (mergeWrite r.row (s.rd timePage 0x120) v)
    let s2 := sourceChange 2 o2 (s1.calSource 2) (sourceChange 1 o1 (s1.calSource 1) s1)
    if o1 ≠ 2 ∧ s1.calSource 1 = 2 then { s2 with time := { s2.time with glFirst := true } } else s2

/-- TU_SOURCE_WRITE (R532). -/
def execTuSourceWrite (id : Ident) (value : Word) (s : State) : Host.Outcome State Fault Refusal :=
  .next (guardTU id 0x120 s (actTuSource value.toNat))

/-- A signed value saturated to 32 bits, as a field. -/
def sat32 (x : Int) : Nat := toField 32 (clampI (-(2 ^ 31)) (2 ^ 31 - 1) x)

/-- A measurement of the PTP servo of a calendar: CLK_OFFSET_MEAS takes it, and the request of its negative gives LOCKED
when it is accepted or steps, HOLDOVER when it is refused (R521). -/
def ptpMeasure (c : Nat) (o : Int) (s : State) : State :=
  if s.calSource c ≠ 1 then s
  else
    let s1 := s.wr timePage (clkOff c + 0x38) (sat32 o)
    let a := s1.adjust c (-o)
    setClkState c (if a = .refused then 3 else 2) (request c (-o) s1)

/-- PTP_MEASUREMENT (R521). -/
def execPtpMeasurement (clk : Fin 3) (offset : Int) (s : State) : Host.Outcome State Fault Refusal :=
  .next (ptpMeasure clk offset s)

/-- ANNOUNCE_TIMEOUT (R521): the servo of a calendar in PTP mode enters HOLDOVER. -/
def execAnnounceTimeout (clk : Fin 3) (s : State) : Host.Outcome State Fault Refusal :=
  .next (if s.calSource clk = 1 then setClkState clk 3 s else s)

/-- N and D of a rate register of the form of GL_RATE and DISP_RATE: N = RATE, D = 1, or N = 1,000 × RATE, D = 1,001
(R449, R527). -/
def rateND (rate : Nat) (frac : Bool) : Nat × Nat := if frac then (1000 * rate, 1001) else (rate, 1)

/-- N and D of GL_RATE (R527). -/
def State.glND (s : State) : Nat × Nat := rateND (s.rf timePage 0x204 8 0) (s.rb timePage 0x204 16)

/-- The expected instant E_k of GENLOCK edge `k` (R527). -/
def State.glExpected (s : State) (k : Int) : Int := (s.rd64 timePage 0x208 : Int) + (k * 1000000000 * s.glND.2) / (s.glND.1 : Int)

/-- The phase error of an edge at time `t`: its distance from the nearest E_k (R527). -/
def State.glError (s : State) (t : Int) : Int :=
  let k := ((t - s.rd64 timePage 0x208) * (s.glND.1 : Int)) / (1000000000 * s.glND.2 : Int)
  let e (j : Int) : Int := t - s.glExpected (k + j)
  let best (a b : Int) : Int := if b.natAbs < a.natAbs then b else a
  best (best (e 0) (e 1)) (e (-1))

/-- The rate that the GENLOCK loop leaves: within 2^32 ± 100 ppm, and the manual fixes no more of it (R529, log entry
8). -/
def glRate (s : State) : State :=
  let d := s.draw 32
  setRate 1 (2 ^ 32 - 429496 + d.1 % 858993) d.2

/-- What the loop does with a usable edge of phase error `e` (R529). -/
def glLoop (e : Int) (s : State) : State :=
  if s.time.glFirst || (s.clock 1).state != 2 then
    match s.adjust 1 (-e) with
    | .refused => setClkState 1 3 ((request 1 (-e) s).wb timePage 0x210 4 true)
    | _ =>
      let s1 := ((request 1 (-e) s).wb timePage 0x210 2 false).wb timePage 0x210 4 false
      let s2 := (setClkState 1 2 s1).irq timePage 11
      { s2 with time := { s2.time with glFirst := false } }
  else glRate s

/-- An active GENLOCK edge (R527-R529): a glitch is rejected and counted; any other edge is stamped, and steers the loop
when it is usable. -/
def genlockEdge (s0 : State) : State :=
  let s := s0.wb timePage 0x210 3 (!s0.rb timePage 0x200 0)
  let t := (s.clock 1).t
  let glitch := match s.time.glLast with
    | some l => decide (4 * s.glND.1 * (t - l) < 1000000000 * s.glND.2) && decide (l ≤ t)
    | none => false
  if glitch then (s.incSat timePage 0x218).tally timePage 0x72
  else
    let e := s.glError t
    let s1 := ((s.wr timePage 0x214 (sat32 e)).wr64 timePage 0x220 s.reading)
    let s2 := { s1 with time := { s1.time with glLast := some t } }
    if e.natAbs ≤ s.rf timePage 0x21C 19 0 ∨ (s.calSource 1 = 2 ∧ (s.clock 1).state = 1) then
      (if s.calSource 1 = 2 then glLoop e s2 else s2)
    else s2.tally timePage 0x73

/-- GENLOCK_EDGE (R527). -/
def execGenlockEdge (s : State) : Host.Outcome State Fault Refusal := .next (genlockEdge s)

/-- No usable GENLOCK edge for 2P: REF_LOST is set and raised, and the loop enters HOLDOVER (R528). -/
def refLost (s : State) : State :=
  let s1 := ((s.wb timePage 0x210 2 true).irq timePage 10).tally timePage 0x74
  if s.calSource 1 = 2 then
    let s2 := setClkState 1 3 s1
    { s2 with time := { s2.time with glFirst := true } }
  else s1

/-- REF_LOST (R528). -/
def execRefLost (s : State) : Host.Outcome State Fault Refusal := .next (refLost s)

/-! ### Timestamp channels -/

/-- Picoseconds rounded once to the nearest nanosecond, ties away from zero (R524). -/
def psToNs (x : Int) : Int := if x < 0 then -((-x * 2 + 1000) / 2000) else (x * 2 + 1000) / 2000

/-- D_rx or D_tx of the port of a channel, in ps (R524). -/
def State.tsDelay (s : State) (k : Nat) : Nat :=
  let p := k / 2
  if p < 4 then
    if s.rb (portPage p) 0x104 0 then (if k % 2 = 0 then 86400 else 38400) else (if k % 2 = 0 then 22400 else 17600)
  else if k % 2 = 0 then 310400 else 182400

/-- The correction of a stamp in ns: taken off a receive stamp, added to a transmit stamp (R524). -/
def State.tsCorrection (s : State) (k : Nat) : Int :=
  let c := psToNs ((s.tsDelay k : Int) + sext 32 (s.rd (tsPage k) 0x100))
  if k % 2 = 0 then -c else c

/-- The calendar whose PTP instance uses port `p`, for a message of a domain (R520, R522, R525). -/
def State.tsCalendar (s : State) (p dom : Nat) : Option Nat :=
  let disp := decide (s.calSource 1 = 1) && decide (s.rf timePage 0x120 10 8 = p)
  let lau := decide (s.calSource 2 = 1) && decide (s.rf timePage 0x120 14 12 = p)
  if disp && lau then (if s.rf timePage 0x124 15 8 = dom && s.rf timePage 0x124 7 0 != dom then some 2 else some 1)
  else if disp then some 1 else if lau then some 2 else none

/-- The queue of a timestamp channel. -/
def State.tsQueue (s : State) (k : Nat) : List TsEntry := NMap.get [] s.time.ts k

/-- The state with the queue of a timestamp channel replaced. -/
def State.setTsQueue (s : State) (k : Nat) (q : List TsEntry) : State := { s with time := { s.time with ts := NMap.put s.time.ts k q } }

/-- The stamp of a message on channel `k`: the corrected reading and the corrected time of the calendar, with the message's header
fields (R524, R525). With no calendar on the port the manual gives no calendar time: a free value. -/
def tsStamp (k info : Nat) (s : State) : TsEntry × State :=
  let cor := s.tsCorrection k
  let r := (((s.reading : Int) + cor) % 2 ^ 64).toNat
  match s.tsCalendar (k / 2) (fld info 15 8) with
  | some c =>
    let t := (s.clock c).setTotal (((s.clock c).sec * 1000000000 + (s.clock c).ns : Nat) + cor)
    (⟨r, t.sec, t.ns, info &&& 0xFFFFFF0F⟩, s)
  | none =>
    let d1 := s.draw 48
    let d2 := d1.2.draw 30
    (⟨r, d1.1, d2.1, info &&& 0xFFFFFF0F⟩, d2.2)

/-- One-step is enabled for the calendar of a message that channel `k` transmits (R526). -/
def State.oneStep (s : State) (k info : Nat) : Bool :=
  k % 2 == 1 && (s.tsCalendar (k / 2) (fld info 15 8)).any fun c => s.rb timePage 0x124 (17 + c)

/-- What the port does with a stamped message (R526): with one-step enabled a transmitted Sync carries the calendar time of its
stamp, and a Pdelay_Resp the time from the stamp of the Pdelay_Req with its domainNumber and sequenceId (a free value when none has
been stamped, log entry 40); the stamp of a received Pdelay_Req is kept. -/
def tsOneStep (k info : Nat) (e : TsEntry) (s : State) : State :=
  let p := k / 2
  if k % 2 = 0 then
    if e.info % 16 = 2 then { s with time := { s.time with pdelay := NMap.put s.time.pdelay p e } } else s
  else if !s.oneStep k info then s
  else if e.info % 16 = 0 then s.send (.sync p e.info e.calSec e.calNs)
  else if e.info % 16 = 3 then
    match (NMap.find s.time.pdelay p).filter fun q => q.info / 256 == e.info / 256 with
    | some q => s.send (.pdelayResp p e.info ((e.reading + 2 ^ 64 - q.reading) % 2 ^ 64))
    | none =>
      let d := s.draw 64
      d.2.send (.pdelayResp p e.info d.1)
  else s

/-- A PTP event message crosses the port of channel `k`: it is stamped into the queue, or its stamp is dropped when 16 entries
wait (R524-R526). -/
def tsCapture (k info : Nat) (s : State) : State :=
  let x := tsStamp k info s
  let s1 := tsOneStep k info x.1 x.2
  if 16 ≤ (s.tsQueue k).length then (s1.tally (tsPage k) 0x76).irq (tsPage k) 9
  else ((s1.setTsQueue k (s.tsQueue k ++ [x.1])).tally (tsPage k) 0x75).irq (tsPage k) 8

/-- TS_CAPTURE (R525). -/
def execTsCapture (chan : Fin 12) (info : Nat) (s : State) : Host.Outcome State Fault Refusal := .next (tsCapture chan info s)

/-- A write of TS_POP with POP set removes the oldest entry (R525). -/
def actTsPop (k v : Nat) (s : State) : State := if bit v 0 then s.setTsQueue k (s.tsQueue k).tail else s

/-- TS_POP (R525). -/
def execTsPop (id : Ident) (chan : Fin 12) (s : State) : Host.Outcome State Fault Refusal :=
  .next (guardW id (tsPage chan) 0x124 s (actTsPop chan 1))

end Sys2Proof.Machine
end

