-- ==== Sys2Proof/Machine/Link.lean ====
section
/-! DEFINITION. The link layer of the crosscut ports: flits, their CRC, sequence numbers and replay buffer (R560-R563), and
the transaction tags (R564). -/
namespace Sys2Proof.Machine

/-- A crosscut port. -/
def State.port (s : State) (p : Nat) : XcPort := NMap.get {} s.xc p

/-- The state with a crosscut port changed. -/
def State.modPort (s : State) (p : Nat) (f : XcPort → XcPort) : State := { s with xc := NMap.put s.xc p (f (s.port p)) }

/-- XC_STAT.STATE of a port: 0 DOWN, 1 TRAINING, 2 UP, 3 MISMATCH, 4 PEER_RESET (R581). -/
def State.xcState (s : State) (p : Nat) : Nat := s.rf (xcPage p) 0x104 2 0
/-- XC_CFG.ROLE of a port: 0 OFF, 1 WALL, 2 PAIR (R558). -/
def State.xcRole (s : State) (p : Nat) : Nat := s.rf (xcPage p) 0x100 1 0
/-- The port is UP. -/
def State.xcUp (s : State) (p : Nat) : Bool := s.xcState p == 2
/-- The port is UP in a role. -/
def State.xcUpIn (s : State) (p role : Nat) : Bool := s.xcUp p && s.xcRole p == role
/-- PAIR_CFG.ROLE reads STANDBY (R582). -/
def State.standby (s : State) : Bool := s.rb (xcPage 0) 0x200 1

/-- CLASS of a flit. -/
def flitClass (f : List Byte) : Nat := leAt f 0 1 % 16
/-- LAST of a flit. -/
def flitLast (f : List Byte) : Bool := bit (leAt f 0 1) 5
/-- LEN of a flit. -/
def flitLen (f : List Byte) : Nat := leAt f 1 1
/-- SEQ of a flit. -/
def flitSeq (f : List Byte) : Nat := leAt f 2 2
/-- ACK of a flit. -/
def flitAck (f : List Byte) : Nat := leAt f 4 2
/-- TAG of a flit. -/
def flitTag (f : List Byte) : Nat := leAt f 6 2
/-- ARG of a flit. -/
def flitArg (f : List Byte) : Nat := leAt f 8 8
/-- The payload bytes of a flit. -/
def flitPayload (f : List Byte) : List Byte := sliceL f 16 (min 236 (flitLen f))
/-- The CRC of a flit holds. -/
def flitCrcOk (f : List Byte) : Bool := decide (f.length = 256) && crc32 (f.take 252) == leAt f 0xFC 4

/-- The 252 bytes of a flit before its CRC. -/
def flitBody (cls : Nat) (nak last : Bool) (len seq ack tag arg : Nat) (payload : List Byte) : List Byte :=
  leBytes 1 (cls + 16 * b2n nak + 32 * b2n last) ++ leBytes 1 len ++ leBytes 2 seq ++ leBytes 2 ack ++ leBytes 2 tag ++
    leBytes 8 arg ++ payload ++ List.replicate (236 - payload.length) 0

/-- A flit with its CRC. -/
def sealFlit (b : List Byte) : List Byte := b ++ leBytes 4 (crc32 b)

/-- The last SEQ received in order on a port. -/
def XcPort.ack (x : XcPort) : Nat := (x.rxSeq + 0xFFFF) % 2 ^ 16

/-- A flit leaves a port: it is counted and sent (R581). -/
def xcEmit (p : Nat) (f : List Byte) (s : State) : State := ((s.inc64 (xcPage p) 0x120).tally (xcPage p) 0x88).send (.flit p f)

/-- The order in which classes leave a port (R563). -/
def classRank (c : Nat) : Nat := match c with
  | 0xE => 0
  | 0x7 => 1
  | 0x8 => 2
  | 0x4 | 0x3 => 3
  | _ => 4

/-- A flit placed behind the queued flits of its own rank or before it (R563). -/
def rankInsert (f : List Byte) : List (List Byte) → List (List Byte)
  | [] => [f]
  | g :: q => if classRank (flitClass f) < classRank (flitClass g) then f :: g :: q else g :: rankInsert f q

/-- The first queued flit takes its SEQ and leaves, while the port is UP and its replay buffer has room (R561). -/
def xcPumpOne (p : Nat) (s : State) : State :=
  let x := s.port p
  match x.queue with
  | [] => s
  | b :: q =>
    if s.xcUp p && decide (x.held.length < 64) then
      let f := sealFlit (b.take 2 ++ leBytes 2 x.txSeq ++ leBytes 2 x.ack ++ b.drop 6)
      xcEmit p f (s.modPort p fun y => { y with queue := q, held := y.held ++ [f], txSeq := (y.txSeq + 1) % 2 ^ 16 })
    else s

/-- Up to `n` queued flits leave. -/
def xcPump (p : Nat) : Nat → State → State
  | 0, s => s
  | n + 1, s => xcPump p n (xcPumpOne p s)

/-- A flit given to a port: it is queued by its class and leaves as soon as the port lets it (R563). -/
def xcPush (p cls : Nat) (last : Bool) (tag arg : Nat) (payload : List Byte) (s : State) : State :=
  let b := flitBody cls false last payload.length 0 0 tag arg payload
  let t := s.modPort p fun y => { y with queue := rankInsert b y.queue }
  xcPump p (t.port p).queue.length t

/-- An IDLE flit, which carries no SEQ; with NAK it names the next SEQ expected (R560, R561). -/
def xcIdle (p : Nat) (nak : Bool) (s : State) : State :=
  xcEmit p (sealFlit (flitBody 0 nak false 0 0 (if nak then (s.port p).rxSeq else (s.port p).ack) 0 0 [])) s

/-- The flits up to an acknowledged SEQ leave the replay buffer, and queued ones follow (R561). -/
def xcAcked (p a : Nat) (s : State) : State :=
  let x := s.port p
  let n := ((x.held.map flitSeq).idxOf a)
  if n < x.held.length then
    let t := s.modPort p fun y => { y with held := y.held.drop (n + 1), replays := 0 }
    xcPump p (t.port p).queue.length t
  else s

/-- A flit that arrives on a port of a class: discarded with a NAK when its CRC fails or its SEQ is not the next expected
(R561); otherwise counted, its ACK taken, and acted on. Nothing arrives on a port that is not UP. -/
def xcReceive (p cls : Nat) (f : List Byte) (act : State → State) (s : State) : State :=
  if !s.xcUp p || flitClass f != cls then s
  else if !flitCrcOk f then xcIdle p true ((s.incSat (xcPage p) 0x110).tally (xcPage p) 0x8A)
  else if flitSeq f ≠ (s.port p).rxSeq then xcIdle p true ((s.incSat (xcPage p) 0x10C).tally (xcPage p) 0x89)
  else act (xcAcked p (flitAck f) ((s.modPort p fun y => { y with rxSeq := (y.rxSeq + 1) % 2 ^ 16 }).inc64 (xcPage p) 0x128))

/-- A free transaction tag of a port (R564). -/
def State.freeTag (s : State) (p : Nat) : Option Nat := (List.range 64).find? fun k => (NMap.find (s.port p).tags k).isNone

/-- The ports in a role that are UP. -/
def State.upPorts (s : State) (role : Nat) : List Nat := (List.range 4).filter fun p => s.xcUpIn p role

end Sys2Proof.Machine
end

