-- ==== Sys2Proof/Machine/Records.lean ====
section
/-! DEFINITION. The rings of the input record and the timing record (R362-R369): entries, padding, overflow and gaps. -/
namespace Sys2Proof.Machine

/-- A head. -/
def State.head (s : State) (h : Nat) : HeadSt := NMap.get {} s.heads h

/-- The state with a head changed. -/
def State.modHead (s : State) (h : Nat) (g : HeadSt → HeadSt) : State := { s with heads := NMap.put s.heads h (g (s.head h)) }

/-- The heads of head group `g` (R100). -/
def State.hgHeads (s : State) (g : Nat) : List Nat := (List.range 4).filter fun j => s.rb cagePage (0x100 + 0x80 * g) (4 + j)

/-- The head by whose lines the cage acts for head group `g`: the lowest whose timing runs. -/
def State.leadHead (s : State) (g : Nat) : Option Nat := (s.hgHeads g).find? fun j => decide (2 ≤ (s.head j).timing)

/-- Frame and line of head group `g`: those of its lead head; frame 0, line 0 with none. -/
def State.hgPos (s : State) (g : Nat) : Nat × Nat :=
  match s.leadHead g with
  | some j => ((s.head j).frame, (s.head j).line)
  | none => (0, 0)

/-- Offset of the base register of a ring: 0 the input record, 1 the timing record (R376). -/
def recOff (ring : Nat) : Nat := if ring = 0 then 0x608 else 0x620
/-- Offset of WPTR of a ring. -/
def recWptr (ring : Nat) : Nat := if ring = 0 then 0x618 else 0x62C
/-- Offset of RPTR of a ring. -/
def recRptr (ring : Nat) : Nat := if ring = 0 then 0x61C else 0x630
/-- Bytes of a ring (R367). -/
def State.recSize (s : State) (ring : Nat) : Nat := 4096 * 2 ^ s.rf cagePage (recOff ring + 8) 3 0
/-- Bytes between RPTR and WPTR of a ring. -/
def State.recUsed (s : State) (ring : Nat) : Nat :=
  (s.rd cagePage (recWptr ring) + s.recSize ring - s.rd cagePage (recRptr ring) % s.recSize ring) % s.recSize ring
/-- SEQ of the next entry of a ring. -/
def State.recSeq (s : State) (ring : Nat) : Nat := if ring = 0 then s.rd cagePage 0x634 else s.trecSeq
/-- The state with one SEQ of a ring consumed. -/
def recSeqNext (ring : Nat) (s : State) : State :=
  if ring = 0 then s.incWrap cagePage 0x634 else { s with trecSeq := (s.trecSeq + 1) % 2 ^ 32 }

/-- `n` bytes fit: WPTR does not come to within 32 bytes of RPTR (R367). -/
def State.recFits (s : State) (ring n : Nat) : Bool := decide (s.recUsed ring + n + 32 ≤ s.recSize ring)

/-- The header unit of an entry (R362). -/
def recHeader (s : State) (ring type units a0 a1 : Nat) : List Byte :=
  let pos := s.hgPos (s.rf cagePage 0x600 3 2)
  leBytes 4 (type + units * 256) ++ leBytes 4 (s.recSeq ring) ++ leBytes 8 s.gcount ++ leBytes 4 pos.1 ++
    leBytes 4 (pos.2 % 8192) ++ leBytes 4 a0 ++ leBytes 4 a1

/-- Units of an entry with a body. -/
def recUnits (body : List Byte) : Nat := 1 + ceilDiv body.length 32

/-- One entry written at WPTR, which moves past it (R367, R369); REC_THRESHOLD is raised when the ring is filled beyond
THRESH / 256 (R377). -/
def recPut (ring type units a0 a1 : Nat) (body : List Byte) (s : State) : State :=
  let w := s.rd cagePage (recWptr ring)
  let bytes := recHeader s ring type units a0 a1 ++ body ++ List.replicate ((32 - body.length % 32) % 32) 0
  let n := if units = 0 then s.recSize ring - w else bytes.length
  let s1 := (s.stBytes (s.rd64 cagePage (recOff ring) + w) (bytes ++ List.replicate (n - bytes.length) 0)).wr cagePage (recWptr ring)
    ((w + n) % s.recSize ring)
  if s1.recSize ring * s1.rf cagePage 0x600 23 16 < s1.recUsed ring * 256 then s1.irq cagePage 17 else s1

/-- A GAP entry written once space for two units has freed (R368), while the ring's enable is 1 (R378). -/
def recGapWrite (ring : Nat) (s : State) : State :=
  match NMap.find s.recGap ring with
  | none => s
  | some n =>
    if !s.rb cagePage 0x600 ring || !s.recFits ring 32 then s
    else recSeqNext ring { recPut ring 0x0E 1 (min n 0xFFFFFFFF) 0 [] s with recGap := NMap.del s.recGap ring }

/-- An entry that finds its ring full: its SEQ is consumed, LOST counts it, and the first drop since the last GAP raises
REC_OVERFLOW and RECORD_OVERFLOW (R368). -/
def recDrop (ring : Nat) (s : State) : State :=
  let s1 := (recSeqNext ring s).tally cagePage 0x25
  let s2 := if ring = 0 then s1.wf cagePage 0x604 31 16 (min 0xFFFF (s1.rf cagePage 0x604 31 16 + 1)) else s1.incSat cagePage 0x65C
  match NMap.find s2.recGap ring with
  | some n => { s2 with recGap := NMap.put s2.recGap ring (n + 1) }
  | none => ({ s2 with recGap := NMap.put s2.recGap ring 1 }.irq cagePage 16).fault { page := cagePage, code := 0xA001 }

/-- An entry of a ring that is enabled: preceded by a pending GAP, and by a PAD when it would cross the end (R367, R368). -/
def recAppend (ring type a0 a1 : Nat) (body : List Byte) (s : State) : State :=
  if !s.rb cagePage 0x600 ring then s
  else
    let s1 := recGapWrite ring s
    let n := 32 * recUnits body
    let w := s1.rd cagePage (recWptr ring)
    let pad := if s1.recSize ring < w + n then s1.recSize ring - w else 0
    if (NMap.find s1.recGap ring).isSome || !s1.recFits ring (pad + n) then recDrop ring s1
    else
      let s2 := if pad = 0 then s1 else recPut ring 0 0 0 0 [] s1
      (recSeqNext ring (recPut ring type (recUnits body) a0 a1 body s2)).tally cagePage (if ring = 0 then 0x24 else 0x26)

/-- An entry of the input record (R363). -/
def recInput (type a0 a1 : Nat) (body : List Byte) (s : State) : State := recAppend 0 type a0 a1 body s

/-- An entry of the timing record (R366). -/
def recTiming (type a0 a1 : Nat) (body : List Byte) (s : State) : State := recAppend 1 type a0 a1 body s

/-- REC_GAP_WRITE (R368). -/
def execRecGapWrite (ring : Fin 2) (s : State) : Host.Outcome State Fault Refusal := .next (recGapWrite ring s)

/-- A write of REC_MARK writes a MARK entry (R376). -/
def actRecMark (v : Nat) (s : State) : State := recInput 0x0F v 0 [] s

/-- REC_MARK (R376). -/
def execRecMark (id : Ident) (value : Word) (s : State) : Host.Outcome State Fault Refusal :=
  .next (guardW id cagePage 0x614 s (actRecMark value.toNat))

/-- The state with the pointers of a ring zeroed, as setting its enable does (R377). -/
def recZero (ring : Nat) (s : State) : State :=
  let s1 := ((s.wr cagePage (recWptr ring) 0).wr cagePage (recRptr ring) 0)
  let s2 := { s1 with recGap := NMap.del s1.recGap ring }
  if ring = 0 then s2.wr cagePage 0x634 0 else { s2 with trecSeq := 0 }

/-- A write of REC_CTRL: an enable that is set zeroes its ring's pointers (R377); a change of REPLAY while a head group is
enabled discards the write (R378). -/
def actRecCtrl (v : Nat) (s : State) : State :=
  match regAt cagePage 0x600 with
  | none => s
  | some r =>
    let old := s.rd cagePage 0x600
    if bit old 4 != bit v 4 && (List.range 4).any (fun g => s.rb cagePage (0x100 + 0x80 * g) 0) then s
    else
      let s1 := s.wr cagePage 0x600 (mergeWrite r.row old v)
      let s2 := if bit v 0 && !bit old 0 then recZero 0 s1 else s1
      if bit v 1 && !bit old 1 then recZero 1 s2 else s2

/-- REC_ENABLE (R377). -/
def execRecEnable (id : Ident) (value : Word) (s : State) : Host.Outcome State Fault Refusal :=
  .next (guardW id cagePage 0x600 s (actRecCtrl value.toNat))

/-- TREC_ENABLE (R377). -/
def execTrecEnable (id : Ident) (value : Word) (s : State) : Host.Outcome State Fault Refusal :=
  .next (guardW id cagePage 0x600 s (actRecCtrl value.toNat))

end Sys2Proof.Machine
end

