-- ==== Sys2Proof/Machine/Modes.lean ====
section
/-! DEFINITION. Display modes (R447-R449) and the timing of frames and lines. -/
namespace Sys2Proof.Machine

/-- A display mode (R447): active width and height, rate, H total, V total, pixel clock in 100 Hz, whether it also runs at the
fractional rate, and the greatest bpc at 4:4:4. -/
structure Mode where
  w : Nat
  h : Nat
  rate : Nat
  ht : Nat
  vt : Nat
  clk : Nat
  frac : Bool
  bpc : Nat
deriving DecidableEq, Repr

/-- The modes, by code (R447). -/
def modeTable : List Mode := [
  ⟨1920, 1080, 24, 2750, 1125, 742500, true, 12⟩, ⟨1920, 1080, 25, 2640, 1125, 742500, false, 12⟩,
  ⟨1920, 1080, 30, 2200, 1125, 742500, true, 12⟩, ⟨1920, 1080, 48, 2750, 1125, 1485000, true, 12⟩,
  ⟨1920, 1080, 50, 2640, 1125, 1485000, false, 12⟩, ⟨1920, 1080, 60, 2200, 1125, 1485000, true, 12⟩,
  ⟨1920, 1080, 100, 2640, 1125, 2970000, false, 12⟩, ⟨1920, 1080, 120, 2200, 1125, 2970000, true, 12⟩,
  ⟨1920, 1080, 240, 2000, 1215, 5832000, false, 12⟩, ⟨3840, 2160, 24, 5500, 2250, 2970000, true, 12⟩,
  ⟨3840, 2160, 25, 5280, 2250, 2970000, false, 12⟩, ⟨3840, 2160, 30, 4400, 2250, 2970000, true, 12⟩,
  ⟨3840, 2160, 48, 5500, 2250, 5940000, true, 12⟩, ⟨3840, 2160, 50, 5280, 2250, 5940000, false, 12⟩,
  ⟨3840, 2160, 60, 4400, 2250, 5940000, true, 12⟩, ⟨3840, 2160, 100, 5280, 2250, 11880000, false, 12⟩,
  ⟨3840, 2160, 120, 4400, 2250, 11880000, true, 12⟩, ⟨3840, 2160, 240, 3920, 2429, 22852032, false, 10⟩,
  ⟨4096, 2160, 24, 5500, 2250, 2970000, true, 12⟩, ⟨4096, 2160, 48, 5500, 2250, 5940000, true, 12⟩,
  ⟨4096, 2160, 60, 4400, 2250, 5940000, true, 12⟩, ⟨7680, 4320, 24, 11000, 4500, 11880000, true, 12⟩,
  ⟨7680, 4320, 25, 10560, 4500, 11880000, false, 12⟩, ⟨7680, 4320, 30, 8800, 4500, 11880000, true, 12⟩,
  ⟨7680, 4320, 48, 11000, 4500, 23760000, true, 10⟩, ⟨7680, 4320, 50, 10560, 4500, 23760000, false, 10⟩,
  ⟨7680, 4320, 60, 8800, 4500, 23760000, true, 10⟩ ]

/-- The mode 0x1A, which HEAD_CFG names at reset. -/
def mode1A : Mode := ⟨7680, 4320, 60, 8800, 4500, 23760000, true, 10⟩

/-- THR_STAT.STEP (R626). -/
def State.thrStep (s : State) : Nat := s.rf clkPage 0x200 1 0

/-- The mode of a head (R471). -/
def State.headMode (s : State) (h : Nat) : Mode := nth mode1A modeTable (s.rf (headPage h) 0x100 4 0)

/-- FRAC of a head. -/
def State.headFrac (s : State) (h : Nat) : Bool := s.rb (headPage h) 0x100 5

/-- N and D of a head's frame rate (R449). -/
def State.headRate (s : State) (h : Nat) : Nat × Nat :=
  let m := s.headMode h
  if s.headFrac h then (1000 * m.rate, 1001) else (m.rate, 1)

/-- The instant t_F at which frame `n` begins (R449). -/
def State.frameStart (s : State) (h n : Nat) : Nat := s.rd64 (headPage h) 0x110 + n * 1000000000 * (s.headRate h).2 / (s.headRate h).1

/-- T of CAL_DISPLAY less HEAD_EPOCH, none before the epoch. -/
def State.sinceEpoch (s : State) (h : Nat) : Option Nat :=
  let e := s.rd64 (headPage h) 0x110
  if s.time.c1.t < e then none else some (s.time.c1.t - e)

/-- The first frame that begins `after` ns or more after the present time of CAL_DISPLAY (R449). -/
def State.frameAfter (s : State) (h after : Nat) : Nat :=
  match s.sinceEpoch h with
  | none => 0
  | some t => ceilDiv ((t + after) * (s.headRate h).1) (1000000000 * (s.headRate h).2)

/-- The mode of a head group: that of its lowest head; none for a group without heads. -/
def State.hgMode (s : State) (g : Nat) : Option Mode := (s.hgHeads g).head?.map s.headMode

/-- The active lines A of a head group. -/
def State.hgA (s : State) (g : Nat) : Nat := ((s.hgMode g).map (·.h)).getD 0
/-- The total lines V of a head group. -/
def State.hgV (s : State) (g : Nat) : Nat := ((s.hgMode g).map (·.vt)).getD 0
/-- The region width of a head group (R55). -/
def State.hgW (s : State) (g : Nat) : Nat := ((s.hgHeads g).map fun h => (s.headMode h).w).foldl (· + ·) 0

/-- The head group that holds a head, enabled groups first (R54, R470). -/
def State.groupOfHead (s : State) (h : Nat) : Option Nat :=
  ((List.range 4).find? fun g => s.rb cagePage (0x100 + 0x80 * g) 0 && (s.hgHeads g).contains h).orElse fun _ =>
    (List.range 4).find? fun g => (s.hgHeads g).contains h

/-- XOFF of a head: the active widths of the heads of its group numbered below it (R454). -/
def State.headXoff (s : State) (g h : Nat) : Nat :=
  (((s.hgHeads g).filter fun k => decide (k < h)).map fun k => (s.headMode k).w).foldl (· + ·) 0

end Sys2Proof.Machine
end

