-- ==== Sys2Proof/Machine/Replay.lean ====
section
/-! DEFINITION. The replay ring (R370-R372): the next entry, consuming it, and what the cage does when it does not match. -/
namespace Sys2Proof.Machine

/-- Replay mode (R377). -/
def State.replay (s : State) : Bool := s.rb cagePage 0x600 4

/-- Bytes of the replay ring (R367). -/
def State.replaySize (s : State) : Nat := 4096 * 2 ^ s.rf cagePage 0x640 3 0

/-- An entry of the replay ring: its offset in the ring, type, units, A0, A1. -/
structure ReplayEntry where
  off : Nat
  type : Nat
  units : Nat
  a0 : Nat
  a1 : Nat
deriving DecidableEq, Repr

/-- The entry at an offset of the replay ring (R362). -/
def State.replayAt (s : State) (off : Nat) : ReplayEntry :=
  let a := s.rd64 cagePage 0x638 + off
  ⟨off, s.ld a 1, fld (s.ld a 4) 13 8, s.ld (a + 0x18) 4, s.ld (a + 0x1C) 4⟩

/-- The next unread entry of the replay ring; a PAD leads to offset 0 (R367). -/
def State.replayPeek (s : State) : Option ReplayEntry :=
  let r := s.rd cagePage 0x648
  let w := s.rd cagePage 0x644
  if r = w then none
  else
    let e := s.replayAt r
    if e.type = 0 then (if w = 0 then none else some (s.replayAt 0)) else some e

/-- The body of an entry. -/
def State.replayBody (s : State) (e : ReplayEntry) (n : Nat) : List Byte := s.ldBytes (s.rd64 cagePage 0x638 + e.off + 32) n

/-- The entry is consumed: RPTR moves past it, and the cage no longer waits for one (R372). -/
def replayPop (e : ReplayEntry) (s : State) : State :=
  (s.wr cagePage 0x648 ((e.off + 32 * max 1 e.units) % s.replaySize)).wb cagePage 0x604 3 false

/-- The cage waits for an entry (R372). -/
def replayWait (s : State) : State := s.wb cagePage 0x604 3 true

/-- The next entry does not match the key that the cage expects: the cage stops (R372). -/
def replayDiverge (s : State) : State :=
  ({ s with replayStop := true }.irq cagePage 18).fault { page := cagePage, code := 0xA002 }

end Sys2Proof.Machine
end

