-- ==== Sys2Proof/Machine/Operands.lean ====
section
/-! DEFINITION. The operand forms of work-list words (R196, R198, R202, R204-R228): the fields that every opcode names,
the values they list, face-store operands with an index register, flags, and the byte spans of the face store that a word
touches. -/
namespace Sys2Proof.Machine

/-- Opcode of a word (R198). -/
def wOp (w : Nat) : Nat := fld w 7 0
/-- V of a word (R198). -/
def wV (w : Nat) : Bool := bit w 8
/-- W of a word (R198). -/
def wW (w : Nat) : Bool := bit w 9

/-- The flag a word names: space, index, drift (R199). -/
structure FlagRef where
  space : Nat
  index : Nat
  drift : Nat
deriving DecidableEq, Repr

/-- Size of a flag space (R199); space 3 is not listed. -/
def flagSpace (sp : Nat) : Nat := match sp with
  | 0 => 32
  | 1 => 256
  | 2 => 4096
  | _ => 0

/-- The flag lies in its space (R199). -/
def FlagRef.listed (r : FlagRef) : Bool := decide (r.index < flagSpace r.space)

/-- The flag of COND: the drift is the issuing face's own (R199). -/
def condRef (f w : Nat) : FlagRef := ⟨fld w 23 22, fld w 21 10, driftOfFace f⟩

/-- The flag of SIG and WAIT, before the index register (R211). -/
def sigRef (w : Nat) : FlagRef := ⟨fld w 25 24, fld w 37 26, fld w 40 38⟩

/-- The flag that the done fields of a hoist word name (R223). -/
def hoistDoneRef (w : Nat) : FlagRef := ⟨fld w 50 49, fld w 62 51, fld w 65 63⟩

/-- The flag that the done fields of GALLERY.ADDU name (R228). -/
def adduDoneRef (w : Nat) : FlagRef := ⟨fld w 88 87, fld w 100 89, fld w 103 101⟩

/-- Index register `k`; X0 reads 0 (R203). -/
def xreg (xs : List Nat) (k : Nat) : Nat := if k = 0 then 0 else nth 0 xs k

/-- The effective offset of an FS field whose least significant bit is `lo`: OFF + X[XR], in 32 bits (R202). -/
def fsEff (xs : List Nat) (w lo : Nat) : Nat := (fld w (lo + 17) lo + xreg xs (fld w (lo + 20) (lo + 18))) % 2 ^ 32

/-- The signed 12-bit step field at bit `lo`. -/
def step12 (w lo : Nat) : Int := sext 12 (fld w (lo + 11) lo)

/-- A span of face-store bytes: offset, which may lie outside the store, and length. -/
structure Span where
  off : Int
  len : Nat
deriving DecidableEq, Repr

/-- The span lies in the face store (R126). -/
def Span.inStore (s : Span) : Bool := decide (0 ≤ s.off) && decide (s.off + s.len ≤ 0x40000)

/-- The span starts at a multiple of `n`. -/
def Span.aligned (s : Span) (n : Nat) : Bool := decide (s.off % n = 0)

/-- Two spans share a byte. -/
def Span.meets (a b : Span) : Bool := decide (a.off < b.off + b.len) && decide (b.off < a.off + a.len)

/-- Two lists of spans share a byte. -/
def spansMeet (as bs : List Span) : Bool := as.any fun a => bs.any a.meets

/-- The opcodes of R204 (the traps 0xF0-0xFF besides). -/
def opListed (o : Nat) : Bool :=
  decide (o ≤ 0x0A) || o == 0x0F || decide (0x10 ≤ o && o ≤ 0x12) || decide (0x20 ≤ o && o ≤ 0x22) || o == 0x28 || o == 0x29 ||
  decide (0x40 ≤ o && o ≤ 0x42) || decide (0x60 ≤ o && o ≤ 0x63) || decide (0x70 ≤ o && o ≤ 0x73) ||
  decide (0x80 ≤ o && o ≤ 0x83) || decide (0x90 ≤ o && o ≤ 0x92) || decide (0xA0 ≤ o && o ≤ 0xA2)

/-- The operand fields [hi:lo] that the tables of an opcode name; the other bits above 23 are reserved (R205). -/
def opFields (o : Nat) : List (Nat × Nat) := match o with
  | 0x02 => [(25, 24), (30, 28), (47, 32)]
  | 0x03 => [(25, 24)]
  | 0x04 => [(27, 24), (51, 32)]
  | 0x06 | 0x07 => [(26, 24), (63, 32)]
  | 0x08 => [(101, 24)]
  | 0x09 => [(52, 24)]
  | 0x0A => [(57, 24)]
  | 0x0F => [(51, 24)]
  | 0x10 | 0x11 => [(45, 24)]
  | 0x12 => [(27, 24)]
  | 0x20 | 0x21 => [(97, 24)]
  | 0x22 => [(24, 24), (109, 26)]
  | 0x28 => [(25, 24)]
  | 0x29 => [(24, 24), (69, 26)]
  | 0x40 => [(46, 24)]
  | 0x41 => [(25, 24)]
  | 0x42 => [(123, 24)]
  | 0x60 => [(79, 24)]
  | 0x61 => [(112, 24)]
  | 0x62 => [(24, 24), (120, 26)]
  | 0x63 => [(70, 24)]
  | 0x70 | 0x71 | 0x72 | 0x73 => [(65, 24)]
  | 0x80 => [(45, 24)]
  | 0x81 => [(62, 24)]
  | 0x82 => [(69, 24), (85, 74)]
  | 0x83 => [(24, 24), (69, 26), (85, 74), (109, 98)]
  | 0x90 => [(46, 24)]
  | 0x91 => [(56, 24)]
  | 0x92 => [(45, 24)]
  | 0xA0 => [(105, 24)]
  | 0xA1 => [(44, 24)]
  | 0xA2 => [(103, 24)]
  | _ => []

/-- No reserved bit of a word is 1 (R205). -/
def reservedClear (w : Nat) : Bool :=
  (opFields (wOp w)).foldl (fun v f => setFld v f.1 f.2 0) (w / 2 ^ 24 * 2 ^ 24) == 0

/-- The FS fields of an opcode, by least significant bit, with the alignment each requires. -/
def opFs (w : Nat) : List (Nat × Nat) := match wOp w with
  | 0x0A => [(27, 4)]
  | 0x20 | 0x21 | 0x22 => [(32, 64), (53, 64)]
  | 0x29 => if fld w 27 26 = 3 then [(28, 64)] else [(28, 64), (49, 64)]
  | 0x40 => [(26, 64)]
  | 0x60 => [(59, 32)]
  | 0x61 => [(71, 64), (92, 32)]
  | 0x62 => if bit w 119 then [(32, 16), (98, 64)] else [(32, 16), (53, 64), (98, 64)]
  | 0x63 => [(50, 64)]
  | 0x70 | 0x71 | 0x72 | 0x73 => [(24, 32)]
  | 0x80 => [(25, 64)]
  | 0x82 | 0x83 => [(32, 64)]
  | 0x90 | 0x91 => [(24, 64)]
  | 0x92 => [(24, 1)]
  | 0xA0 => [(24, 64)]
  | 0xA1 => [(24, 8)]
  | 0xA2 => [(24, 64)]
  | _ => []

/-- The values that an opcode's tables list, beyond the reserved bits (R206-R228). -/
def valuesListed (w : Nat) : Bool := match wOp w with
  | 0x02 => if fld w 30 28 = 0 then fld w 47 32 != 0 else fld w 47 32 == 0
  | 0x04 => fld w 27 26 != 3
  | 0x06 | 0x07 => fld w 26 24 != 0
  | 0x08 =>
    let n := fld w 26 25
    n != 0 && (List.range n).all fun k => let l := fld w (51 + 25 * k) (39 + 25 * k); decide (1 ≤ l && l ≤ 4096)
  | 0x09 =>
    let c := if fld w 49 38 = 0 then 4096 else fld w 49 38
    decide (fld w 25 24 < 3) && decide (fld w 37 26 + c ≤ flagSpace (fld w 25 24))
  | 0x0A => fld w 26 24 != 0 && decide (fld w 52 48 + fld w 57 53 ≤ 31)
  | 0x10 => (sigRef w).listed
  | 0x11 => (sigRef w).listed && (!bit w 42 || fld w 25 24 == 0)
  | 0x28 => fld w 25 24 != 0
  | 0x29 => fld w 27 26 != 3 || fld w 69 49 == 0
  | 0x62 => !bit w 119 || (fld w 73 69 == 0 && fld w 85 74 == 0)
  | 0x70 | 0x71 | 0x72 | 0x73 => fld w 47 46 != 3 && (hoistDoneRef w).listed
  | 0x90 => fld w 46 45 == 0
  | 0x91 => fld w 56 45 != 0
  | 0xA0 => fld w 62 61 != 3
  | 0xA2 => fld w 68 45 % 64 == 0 && decide (fld w 85 84 < 2) && (adduDoneRef w).listed
  | _ => true

/-- The field checks of a word (LIST_FIELD of R236). -/
def fieldsOk (w : Nat) : Bool :=
  (if wW w then decide (fld w 21 10 < flagSpace (fld w 23 22)) else fld w 23 10 == 0) && reservedClear w && valuesListed w &&
  (opFs w).all fun e => fld w (e.1 + 20) (e.1 + 18) != 0 || fld w (e.1 + 17) e.1 % e.2 == 0

/-- R231 requires the word to carry V = 1. -/
def needsV (w : Nat) : Bool :=
  wOp w == 0xA1 || wOp w == 0xA2 || (decide (0x70 ≤ wOp w && wOp w ≤ 0x73) && bit w 45)

/-- Word 0 is a valid LISTHDR (R196). -/
def headerOk (w : Nat) : Bool :=
  wOp w == 0x0F && fld w 23 8 == 0 && fld w 31 24 == 1 && decide (2 ≤ fld w 51 32 && fld w 51 32 ≤ 1048575) && fld w 127 52 == 0

/-- WORDS of a LISTHDR (R196). -/
def headerWords (w : Nat) : Nat := fld w 51 32

/-- The ranges of a LIVE word, as (start, length) in 64-byte units (R206). -/
def liveRanges (w : Nat) : List (Nat × Nat) :=
  (List.range (fld w 26 25)).map fun k => (fld w (38 + 25 * k) (27 + 25 * k), fld w (51 + 25 * k) (39 + 25 * k))

/-- The word goes to the matrix queue and completes by a matrix operation (R204, R226). -/
def isMatrixOp (o : Nat) : Bool := decide (0x20 ≤ o && o ≤ 0x22) || o == 0x82 || o == 0x83
/-- The word is a lattice instruction (R219). -/
def isLatticeOp (o : Nat) : Bool := o == 0x40 || o == 0x42 || decide (0x60 ≤ o && o ≤ 0x63)
/-- The word is QM.MEASURE, QM.CONVERT or QM.REBLOCK. -/
def isQuantWord (o : Nat) : Bool := o == 0x60 || o == 0x61 || o == 0x63
/-- The word is a copy descriptor (R223, R230). -/
def isCopyOp (o : Nat) : Bool := decide (0x70 ≤ o && o ≤ 0x73) || o == 0xA2

/-- The accumulator banks that a word touches, bit per bank; LAT.RUN's are those of its configuration (R143, R215). -/
def wordBanks (w : Nat) : Nat := match wOp w with
  | 0x20 | 0x21 | 0x82 => 1 + fld w 25 25
  | 0x22 | 0x83 => 3
  | 0x28 => fld w 25 24
  | 0x29 => 1 + fld w 24 24
  | 0x62 => 1 + fld w 24 24
  | _ => 0

end Sys2Proof.Machine
end

