-- ==== Sys2Proof/Machine/Flags.lean ====
section
/-! DEFINITION. Faces and flags: which physical face carries a logical face (R14), the state of a face, and the reading,
setting and clearing of local, stope and gallery flags (R199, R201). -/
namespace Sys2Proof.Machine

/-! ### Faces -/

/-- STOPE_SPARE.IN_USE of a stope (R645). -/
def State.spareUsed (s : State) (st : Nat) : Bool := s.rb (stopePage st) 0x100 0
/-- STOPE_SPARE.K of a stope (R645). -/
def State.spareK (s : State) (st : Nat) : Nat := s.rf (stopePage st) 0x100 4 1
/-- STOPE_SPARE.RETIRED of a stope (R643, R645). -/
def State.stopeRetired (s : State) (st : Nat) : Bool := s.rb (stopePage st) 0x100 6

/-- The physical face that carries a logical face (R14). -/
def State.physOf (s : State) (f : Nat) : Nat :=
  let st := stopeOfFace f
  if s.spareUsed st && s.spareK st == f % 16 then 17 * st + 16 else 17 * st + f % 16

/-- The logical face that a physical face carries, if any (R14, R145). -/
def State.logicalOf (s : State) (p : Nat) : Option Nat :=
  let st := p / 17
  let k := p % 17
  if k = 16 then (if s.spareUsed st then some (16 * st + s.spareK st) else none)
  else if s.spareUsed st && s.spareK st == k then none else some (16 * st + k)

/-- The page of the physical face that carries a logical face. -/
def State.facePg (s : State) (f : Nat) : Nat := facePage (s.physOf f)

/-- The state of a logical face. -/
def State.face (s : State) (f : Nat) : FaceSt := NMap.get {} s.faces f

/-- The state with a logical face replaced. -/
def State.setFace (s : State) (f : Nat) (x : FaceSt) : State := { s with faces := NMap.put s.faces f x }

/-- The state with a logical face changed. -/
def State.modFace (s : State) (f : Nat) (g : FaceSt → FaceSt) : State := s.setFace f (g (s.face f))

/-! ### Flags -/

/-- Flag `r` as face `f` sees it (R199). -/
def State.flag (s : State) (f : Nat) (r : FlagRef) : Bool := match r.space with
  | 0 => bit (s.face f).lflags r.index
  | 1 => NSet.has s.sflags (stopeOfFace f * 256 + r.index)
  | 2 => s.gflag r.drift r.index
  | _ => false

/-- The state with flag `r` of face `f` set or cleared (R199). -/
def State.setFlag (s : State) (f : Nat) (r : FlagRef) (v : Bool) : State := match r.space with
  | 0 => s.modFace f fun x => { x with lflags := setBit x.lflags r.index v }
  | 1 => { s with sflags := NSet.set s.sflags (stopeOfFace f * 256 + r.index) v }
  | 2 => s.setG r.drift r.index v
  | _ => s

end Sys2Proof.Machine
end

