-- ==== Sys2Proof/Machine/Contexts.lean ====
section
/-! DEFINITION. Partitions, context entries, windows, teardown and the turns that contexts take (R323-R336, R342), and
what the device does about an uncorrectable memory error (R263-R266, R635). -/
namespace Sys2Proof.Machine

/-! ### Partitions -/

/-- The stopes of partition `p`; none when it is not VALID (R323, R348). -/
def State.partStopes (s : State) (p : Nat) : List Nat :=
  let v := s.rd devPage (0x100 + 4 * p)
  if p < 32 && bit v 12 then (List.range (2 ^ fld v 10 8)).map fun k => fld v 4 0 + k else []

/-- The partition that holds a stope (R323). -/
def State.partOf (s : State) (st : Nat) : Option Nat := (List.range 32).find? fun p => (s.partStopes p).contains st

/-- The partition of a list of logical faces, when all lie in one (R17). -/
def State.partOfFaces (s : State) (fs : List Nat) : Option Nat :=
  match fs with
  | [] => none
  | f :: _ =>
    match s.partOf (stopeOfFace f) with
    | none => none
    | some p => if fs.all fun g => (s.partStopes p).contains (stopeOfFace g) then some p else none

/-- The logical faces of a partition. -/
def State.partFaces (s : State) (p : Nat) : List Nat := (s.partStopes p).flatMap fun st => (List.range 16).map fun k => 16 * st + k

/-- A stope of the partition has been retired (R643). -/
def State.partRetired (s : State) (p : Nat) : Bool := (s.partStopes p).any s.stopeRetired

/-- How partition `p` takes turns. -/
def State.part (s : State) (p : Nat) : PartSt := NMap.get {} s.parts p

/-- The state with a partition's turns replaced. -/
def State.setPart (s : State) (p : Nat) (x : PartSt) : State := { s with parts := NMap.put s.parts p x }

/-! ### Context entries -/

/-- The sixteen words of an entry (R328). -/
def Ctx.words (c : Ctx) (h : Nat) (resident : Bool) : List Nat :=
  [ h + c.part * 2 ^ 16 + c.cls * 2 ^ 22 + c.hg * 2 ^ 24 + c.bidx * 2 ^ 26 + b2n c.batch * 2 ^ 28,
    c.state + b2n resident * 8 + (if resident then c.slot * 16 else 0) + c.fault * 2 ^ 16,
    c.slice, c.wmask, c.save % 2 ^ 32, c.save / 2 ^ 32, c.gsave, c.glen, c.btable, c.pool, c.clip % 2 ^ 32, c.clip / 2 ^ 32,
    c.elem % 2 ^ 32, c.elem / 2 ^ 32, c.blockedAt, 0 ]

/-- The entry that sixteen words spell (R328). -/
def Ctx.ofWords (w : Nat → Nat) : Ctx where
  part := fld (w 0) 21 16
  cls := fld (w 0) 23 22
  hg := fld (w 0) 25 24
  bidx := fld (w 0) 27 26
  batch := bit (w 0) 28
  state := fld (w 1) 2 0
  fault := fld (w 1) 31 16
  slice := fld (w 2) 16 0
  wmask := fld (w 3) 7 0
  save := (fld (w 4) 31 12) * 4096 + fld (w 5) 7 0 * 2 ^ 32
  gsave := fld (w 6) 26 6 * 64
  glen := fld (w 7) 13 0
  btable := fld (w 8) 26 6 * 64
  pool := fld (w 9) 23 0
  clip := w 10 + w 11 * 2 ^ 32
  elem := w 12 + w 13 * 2 ^ 32
  blockedAt := w 14
  slot := fld (w 1) 9 4

/-- Address of an entry in the handle table (R327). -/
def State.handleAddr (s : State) (h : Nat) : Nat := s.rd64 devPage 0x1B0 + 64 * h

/-- The handle names a resident context. -/
def State.resident (s : State) (h : Nat) : Bool := (NMap.find s.ctxs h).isSome

/-- The entry of a handle: in the context table, or in the handle table (R327). -/
def State.ctx (s : State) (h : Nat) : Ctx :=
  match NMap.find s.ctxs h with
  | some c => c
  | none => Ctx.ofWords fun k => s.ld (s.handleAddr h + 4 * k) 4

/-- The bytes of an entry. -/
def Ctx.bytes (c : Ctx) (h : Nat) (resident : Bool) : List Byte := (c.words h resident).flatMap (leBytes 4)

/-- The state with the entry of a handle replaced where it stands. -/
def State.setCtx (s : State) (h : Nat) (c : Ctx) : State :=
  if s.resident h then { s with ctxs := NMap.put s.ctxs h c } else s.stBytes (s.handleAddr h) (c.bytes h false)

/-- The state with the entry of a handle changed where it stands. -/
def State.modCtx (s : State) (h : Nat) (g : Ctx → Ctx) : State := s.setCtx h (g (s.ctx h))

/-- The handle of the context in a table slot. -/
def State.slotHandle (s : State) (slot : Nat) : Option Nat := (s.ctxs.find? fun e => e.2.slot == slot).map (·.1)

/-- The lowest free table slot. -/
def State.freeSlot (s : State) : Option Nat := (List.range 64).find? fun k => s.ctxs.all fun e => e.2.slot != k

/-- The handles of the resident contexts of a partition. -/
def State.residents (s : State) (p : Nat) : List Nat := (s.ctxs.filter fun e => e.2.part == p).map (·.1)

/-- A further context of the partition can become resident (R327). -/
def State.slotFree (s : State) (p : Nat) : Bool := decide ((s.residents p).length < 8) && decide (s.ctxs.length < 64)

/-- The handles of the contexts that are not FREE, resident or swapped out. -/
def State.liveHandles (s : State) : List Nat :=
  (List.range 1024).filter fun h => s.resident h || ((NMap.find s.runs h).isSome && (s.ctx h).state != 0) ||
    (!s.resident h && s.handleAddr 0 != 0 && (s.ctx h).state != 0)

/-- What a handle runs. -/
def State.run (s : State) (h : Nat) : Run := NMap.get {} s.runs h

/-- The state with what a handle runs replaced. -/
def State.setRun (s : State) (h : Nat) (r : Run) : State := { s with runs := NMap.put s.runs h r }

/-- The context that runs on a face now: its partition's RUNNING context, while no switch is in progress. -/
def State.faceCtx (s : State) (f : Nat) : Option Nat :=
  match s.partOf (stopeOfFace f) with
  | none => none
  | some p =>
    match (s.part p).running with
    | some h => if !(s.part p).switching && !(s.part p).held && (s.run h).faces.contains f then some h else none
    | none => none

/-- The context that holds a face's stores: running on it, or leaving it in a switch. -/
def State.faceOwner (s : State) (f : Nat) : Option Nat :=
  match s.partOf (stopeOfFace f) with
  | none => none
  | some p =>
    match (if (s.part p).switching then (s.part p).outgoing else (s.part p).running) with
    | some h => if (s.run h).faces.contains f then some h else none
    | none => none

/-! ### Windows -/

/-- Window `k` of the window table (R325). -/
def State.window (s : State) (k : Nat) : Window := NMap.get {} s.windows k

/-- The VALID windows that a context holds (R325, R328). -/
def State.ctxWindows (s : State) (c : Ctx) : List Window :=
  ((List.range 8).filter fun w => bit c.wmask w && bit (s.window (8 * c.part + w)).attr 0).map fun w => s.window (8 * c.part + w)

/-- The VALID windows of a partition (R325). -/
def State.partWindows (s : State) (p : Nat) : List Window :=
  ((List.range 8).filter fun w => bit (s.window (8 * p + w)).attr 0).map fun w => s.window (8 * p + w)

/-- The end of the run of bytes from `a` that windows with a right cover, followed through at most `n` windows. -/
def coverEnd (ws : List Window) (right : Nat) : Nat → Nat → Nat
  | 0, a => a
  | n + 1, a =>
    match ws.find? fun w => bit w.attr right && decide (w.base ≤ a) && decide (a < w.limit + 0x10000) with
    | some w => coverEnd ws right n (w.limit + 0x10000)
    | none => a

/-- Every byte of a range lies in a window of the context with the right (1 R, 2 W, 3 X) (R325). -/
def State.winAllow (s : State) (c : Ctx) (right a n : Nat) : Bool := decide (a + n ≤ coverEnd (s.ctxWindows c) right 9 a)

/-- Every byte of a range lies in a window of a partition with the right. -/
def State.partAllow (s : State) (p right a n : Nat) : Bool := decide (a + n ≤ coverEnd (s.partWindows p) right 9 a)

/-- A range lies wholly in DRAM, in one gallery or in one remote window (R240, R241). -/
def rangeInMemory (a n : Nat) : Bool :=
  match regionOf a, regionOf (a + n - 1) with
  | .dram, .dram => true
  | .gallery _, .gallery _ => true
  | .remote p, .remote q => p == q && decide ((a - remBase) % 0x1000000000 + n ≤ 0xC08000000)
  | _, _ => false

/-! ### Turns -/

/-- The key of band `b` of output frame `F` of head group `g`. -/
def bandKey (g F b : Nat) : Nat := g * 2 ^ 40 + F * 256 + b

/-- The band of a key. -/
def State.band (s : State) (k : Nat) : BandRun := NMap.get {} s.bands k

/-- The state with a band changed. -/
def State.modBand (s : State) (k : Nat) (g : BandRun → BandRun) : State := { s with bands := NMap.put s.bands k (g (s.band k)) }

/-- The entry moved to the handle table and its slot freed (SWAP_OUT of R329). -/
def swapOut (h : Nat) (s : State) : State :=
  match NMap.find s.ctxs h with
  | none => s
  | some c =>
    let s1 := { s with ctxs := NMap.del s.ctxs h, slotLast := NMap.put s.slotLast c.slot { handle := h } }
    ((s1.stBytes (s1.handleAddr h) (c.bytes h false)).tally devPage 0x12).irq devPage 10

/-- The entry made resident in the lowest free slot (SWAP_IN of R329). -/
def swapIn (h : Nat) (s : State) : State :=
  match s.freeSlot with
  | none => s
  | some k =>
    let c := s.ctx h
    let s1 := { s with ctxs := NMap.put s.ctxs h { c with slot := k } }
    let s2 := s1.setPart c.part { s1.part c.part with ready := (s1.part c.part).ready.filter fun x => x != h }
    (s2.tally devPage 0x13).irq devPage 10

/-- The context has a list in progress (R335). -/
def Ctx.active (c : Ctx) : Bool := c.state == 2 || c.state == 3 || c.state == 4

/-- The resident BLOCKED context with the earliest BLOCKED_AT, the lower handle on a tie (R335). -/
def State.earliestBlocked (s : State) (p : Nat) : Option Nat :=
  ((s.residents p).filter fun h => (s.ctx h).state == 4).foldl (fun b h => match b with
    | none => some h
    | some g => if (s.ctx h).blockedAt < (s.ctx g).blockedAt then some h else some g) none

/-- The swap rule: when every resident context of the partition with a list in progress is BLOCKED, the first READY
swapped-out context comes in, in a free slot or in place of the earliest BLOCKED one (R335). -/
def swapRule (p : Nat) (s : State) : State :=
  match (s.part p).ready with
  | [] => s
  | h :: _ =>
    if ((s.residents p).filter fun g => (s.ctx g).active).all fun g => (s.ctx g).state == 4 then
      if s.slotFree p then swapIn h s
      else match s.earliestBlocked p with
        | some g => swapIn h (swapOut g s)
        | none => s
    else s

/-- The READY ASYNC resident context with the least distance in slot order after the last one that ran (R332). -/
def State.nextAsync (s : State) (p : Nat) : Option Nat :=
  let last := (s.part p).lastSlot
  let dist (h : Nat) : Nat := ((s.ctx h).slot + 127 - last) % 64
  ((s.residents p).filter fun h => (s.ctx h).cls == 0 && (s.ctx h).state == 2).foldl (fun b h => match b with
    | none => some h
    | some g => if dist h < dist g then some h else some g) none

/-- The context that runs next on a partition that runs none (R331, R332). -/
def State.nextCtx (s : State) (p : Nat) : Option Nat :=
  match (s.part p).bands.find? fun h => (s.ctx h).state == 2 with
  | some h => some h
  | none =>
    match (s.part p).preempted with
    | some h => if (s.ctx h).state == 2 && s.resident h then some h else s.nextAsync p
    | none => s.nextAsync p

/-- A switch to a context that the partition starts from step 5 (R337). -/
def startSwitch (p h : Nat) (s : State) : State :=
  s.setPart p { s.part p with switching := true, outgoing := none, outBlocked := false, incoming := some h }

/-- The partition, when it runs nothing, goes on with the next context (R331-R335). -/
def sched (p : Nat) (s : State) : State :=
  if (s.part p).switching || (s.part p).running.isSome || (s.part p).held || s.partRetired p then s
  else match s.nextCtx p with
    | some h => startSwitch p h s
    | none =>
      let t := swapRule p s
      match t.nextCtx p with
      | some h => startSwitch p h t
      | none => t

/-- A band context that the cage has launched takes precedence over ASYNC contexts (R331, R337). -/
def bandArrive (p h : Nat) (s : State) : State :=
  let x := s.part p
  let s1 := s.setPart p { x with bands := x.bands ++ [h] }
  let y := s1.part p
  if x.switching then
    match x.incoming with
    | some g => if (s.ctx g).cls = 1 then s1 else s1.setPart p { y with incoming := some h, preempted := if x.preempted = none && x.outgoing = none then some g else x.preempted }
    | none => s1.setPart p { y with incoming := some h }
  else match x.running with
    | none => sched p s1
    | some g =>
      if (s.ctx g).cls = 1 then s1
      else s1.setPart p { y with switching := true, outgoing := some g, outBlocked := false, incoming := some h, preempted := some g }

/-- A context that has become READY takes its turn, or waits in the queue of swapped-out contexts (R332, R336). -/
def becomeReady (h : Nat) (s : State) : State :=
  let s1 := s.modCtx h fun c => { c with state := 2 }
  let p := (s.ctx h).part
  if (s.ctx h).cls = 1 then bandArrive p h s1
  else if s.resident h then sched p s1
  else sched p (s1.setPart p { s1.part p with ready := (s1.part p).ready ++ [h] })

/-- A context starts the list it has been given (R337: every start passes through step 5). -/
def startContext (h : Nat) (r : Run) (s : State) : State := becomeReady h (s.setRun h r)

/-! ### Teardown -/

/-- The untaken descriptors of a context leave the hoist queues; a copy already begun completes (R342). -/
def dropJobs (h : Nat) (s : State) : State :=
  { s with hoists := s.hoists.map fun e => (e.1, e.2.filter fun j => j.taken || j.handle != h) }

/-- The raster jobs in which a context owns a tile end with OWNER_LOST (R439). -/
def loseTiles (h : Nat) (s : State) : State :=
  { s with tilers := s.tilers.map fun e => (e.1, { e.2 with job := e.2.job.map fun j =>
    if j.status == 0 && (j.owners.any fun o => o.handle == h) then { j with status := 3 } else j }) }

/-- A face's work is abandoned. -/
def FaceSt.abandon (x : FaceSt) : FaceSt := { x with issued := [], redo := [], hold := .none, stopped := true, finished := true }

/-- The partition without a context: it leaves the band queue and the ready queue, and the partition goes on with the
next one (R342, R331-R335). -/
def leavePart (p h : Nat) (s : State) : State :=
  let x := s.part p
  let y := { x with
    bands := x.bands.filter fun g => g != h
    ready := x.ready.filter fun g => g != h
    preempted := if x.preempted = some h then none else x.preempted }
  if x.switching then
    let z := { y with outgoing := if x.outgoing = some h then none else x.outgoing, running := if x.running = some h then none else x.running }
    if x.incoming = some h then
      let s1 := s.setPart p { z with incoming := none }
      match s1.nextCtx p with
      | some g => s1.setPart p { z with incoming := some g }
      | none => if z.outgoing = none then sched p (s1.setPart p { z with incoming := none, switching := false, running := none }) else s1
    else s.setPart p z
  else if x.running = some h then sched p (s.setPart p { y with running := none })
  else s.setPart p y

/-- A context is torn down with a fault code, 0 for a STOP: its work is abandoned, its entry reads FAULTED, a band
context torn down by a fault gives its band LIST_FAULT, and the partition continues (R342, R105, R350). -/
def teardown (h code : Nat) (s : State) : State :=
  let c := s.ctx h
  if c.state = 0 ∨ c.state = 6 then s
  else
    let s1 := s.modCtx h fun x => { x with state := 6, fault := code }
    let held := s.faceOwner
    let s2 := (loseTiles h ∘ dropJobs h) ((s.run h).faces.foldl (fun t f => if held f = some h then t.modFace f FaceSt.abandon else t) s1)
    let s3 := if code = 0 then s2 else s2.irq devPage 8
    let s4 := match (s.run h).band with
      | some k => if code = 0 then s3 else (s3.modBand k fun b => { b with listFault := true }).fault { page := cagePage, code := 0x2003, handle := h }
      | none => s3
    leavePart c.part h s4

/-- A fault of the context that runs on a face, recorded on the face's page; it tears the context down. -/
def faceFault (f h code detail : Nat) (s : State) : State :=
  teardown h code (s.fault { page := s.facePg f, code := code, handle := h, detail := detail })

/-! ### Uncorrectable errors -/

/-- The address ranges of the planes of a slot header (R57): from the top-left margin to the bottom-right one. -/
def State.planeRanges (s : State) (hd : Nat) : List (Nat × Nat) :=
  let h := s.ld (hd + 0x0A) 2
  let m := s.ld (hd + 0x0F) 1
  let plane (k str px : Nat) : Nat × Nat :=
    let a := s.ld (hd + 0x10 + 8 * k) 8
    let st := s.ld (hd + str) 4
    (a - m * st - m * px, (h + 2 * m) * st + 2 * m * px)
  let masks := fld (s.ld (hd + 0x0C) 4) 10 8
  [plane 0 0x48 (if s.ld (hd + 0x0C) 1 % 16 = 0 then 4 else 8), plane 1 0x4C 4, plane 2 0x50 4] ++
    (List.range (min masks 4)).map fun k => plane (3 + k) 0x54 1

/-- Offset of the register block of head group `g` (R99). -/
def hgOff (g : Nat) : Nat := 0x100 + 0x80 * g

/-- INPUT_DEPTH of a head group (R100). -/
def State.inputDepth (s : State) (g : Nat) : Nat := 2 + s.rf cagePage (hgOff g + 4) 11 10

/-- Frame slots of the band buffer (R76). -/
def State.hgDepth (s : State) (g : Nat) : Nat := 2 + s.rf cagePage (hgOff g + 4) 9 9
/-- Bytes of a frame slot of the band buffer (R76). -/
def State.hgSlotSize (s : State) (g : Nat) : Nat := ceilDiv (6 * s.hgW g * s.hgA g) 65536 * 65536

/-- The stores of head group `g` that firmware owns: input and reference stores, and the band buffer (R263). -/
def State.hgRanges (s : State) (g : Nat) : List (Nat × Nat) :=
  let ring (base n : Nat) : List (Nat × Nat) :=
    if base = 0 then [] else (List.range n).flatMap fun i => (base + 256 * i, 256) :: s.planeRanges (base + 256 * i)
  let buf := s.rd64 cagePage (hgOff g + 0x20)
  ring (s.rd64 cagePage (hgOff g + 0x10)) (s.inputDepth g) ++ ring (s.rd64 cagePage (hgOff g + 0x18)) 2 ++
    (if buf = 0 then [] else [(buf, s.hgDepth g * s.hgSlotSize g)])

/-- The save areas, of resident and of swapped-out contexts, and the model slot descriptors, which firmware owns (R263, R338). -/
def State.fwRanges (s : State) : List (Nat × Nat) :=
  (s.liveHandles.map fun h => let c := s.ctx h; (c.save, 0x1000 + (s.run h).faces.length * 0x44000 + 64 * c.glen)) ++
  (List.range 4).filterMap fun k => let b := s.rd64 cagePage (0x300 + 16 * k); if b = 0 then none else some (b, 256)

/-- The owner of an address at which an error is found (R263). -/
inductive Owner where
  | context (h : Nat)
  | shared (hs : List Nat)
  | firmware
deriving DecidableEq, Repr

/-- The owner of an address (R263). -/
def State.ownerOf (s : State) (a : Nat) : Owner :=
  match regionOf a with
  | .face f => match s.faceOwner f with
    | some h => .context h
    | none => .firmware
  | .dram | .gallery _ =>
    if ((List.range 4).flatMap s.hgRanges ++ s.fwRanges).any fun r => decide (r.1 ≤ a) && decide (a < r.1 + r.2) then .firmware
    else
      match s.liveHandles.filter fun h => (s.ctxWindows (s.ctx h)).any fun w => decide (w.base ≤ a) && decide (a < w.limit + 0x10000) with
      | [] => .firmware
      | [h] => .context h
      | hs => .shared hs
  | _ => .firmware

/-- The page that records an error at an address: the face, drift or memory-side die page. -/
def State.uePage (s : State) (a : Nat) : Nat := match regionOf a with
  | .face f => s.facePg f
  | .gallery d => driftPage d
  | _ => memPage

/-- The error-address register of the store takes the word (R145, R259, R261). -/
def ueRegister (a : Nat) (scrub : Bool) (s : State) : State :=
  match regionOf a with
  | .face f => s.wr (s.facePg f) 0x124 ((a % fsSize) / 8 * 8 + 2 ^ 31)
  | .gallery d => s.wr (driftPage d) 0x108 ((a % galOne) / 8 * 8 + 2 ^ 31)
  | _ => (s.wr64 memPage 0x110 (a / 8 * 8 + (if scrub then 2 ^ 62 else 0) + 2 ^ 63)).incSat memPage 0x10C

/-- The owner of an uncorrectable word answers for it (R263, R264, R635); `src` is the master whose read met it (R46). -/
def strikeOwner (w src : Nat) (own : Owner) (s : State) : State :=
  let f : FaultInfo := { page := s.uePage w, code := 0x6006, source := src, detail := w, device := true }
  match own with
  | .context h =>
    let code := match regionOf w with
      | .face _ => 0x3004
      | _ => 0x6005
    teardown h code (s.fault { page := s.uePage w, code := code, source := src, handle := h, detail := w })
  | .shared hs => hs.foldl (fun t h => teardown h 0x6006 t) (s.fault f)
  | .firmware => s.fault { f with unrep := true }

/-- The context for which a word was read, other than its owner, cannot produce its result (R264). -/
def strikeReader (w src : Nat) (reader : Option Nat) (own : Owner) (s : State) : State :=
  match reader with
  | some h =>
    if own = .context h ∨ (s.ctx h).state = 6 ∨ (s.ctx h).state = 0 then s
    else teardown h 0x6005 (s.fault { page := s.uePage w, code := 0x6005, source := src, handle := h, detail := w })
  | none => s

/-- What the device does about an uncorrectable error met by a read for context `reader` by a master (R127, R263, R264, R635): the
faults of one page come in ascending code (R671), so that MEM_UE of the reader precedes MEM_UE_SHARED. -/
def ueStrike (a : Nat) (reader : Option Nat) (scrub : Bool) (s : State) (src : Nat := 7) : State :=
  let w := a / 8 * 8
  let s1 := ueRegister w scrub s
  let own := s.ownerOf w
  match own with
  | .context _ => strikeReader w src reader own (strikeOwner w src own s1)
  | _ => strikeOwner w src own (strikeReader w src reader own s1)

/-- A read of a range for a context: when it meets an uncorrectable error, the strike, otherwise none. -/
def State.ueRead (s : State) (a n : Nat) (reader : Option Nat) (src : Nat := 7) : Option State :=
  (s.ueIn a n).map fun w => ueStrike w reader false s src

/-- The state with one of the counts of FRAME_SUM advanced (R366). -/
def State.sumAdd (s : State) (k n : Nat) : State := { s with frameSum := setNth s.frameSum k ((nth 0 s.frameSum k + n) % 2 ^ 32) }

/-- The DRAM channel of an address (R243). -/
def dramChan (a : Nat) : Nat := fld a 12 8 ^^^ fld a 21 17

/-- A corrected error is counted in its store's register (R262). -/
def eccCorrected (a : Nat) (s : State) : State :=
  let s1 := match regionOf a with
    | .face f => (((s.incSat (s.facePg f) 0x120).tally (s.facePg f) 0x0A)).irq (s.facePg f) 9
    | .gallery d => (s.incSat (driftPage d) 0x104).tally (driftPage d) 0x0A
    | _ =>
      let c := dramChan a
      let off := 0x120 + 4 * (c / 4)
      let b := 8 * (c % 4)
      ((s.incSat memPage 0x108).wf memPage off (b + 7) b (min 255 (s.rf memPage off (b + 7) b + 1))).tally memPage 0x0A
  s1.sumAdd 6 1

/-- A read of a range corrects its single-bit errors and writes the words back (R262). -/
def State.correct (s : State) (a n : Nat) : State :=
  (s.eccOne.filter (touchesWord a n)).foldl (fun t w => eccCorrected w { t with eccOne := t.eccOne.filter (· != w) }) s

/-- A read of ranges corrects their single-bit errors. -/
def State.correctAll (s : State) (rs : List (Nat × Nat)) : State := rs.foldl (fun t r => t.correct r.1 r.2) s

/-- What follows a read of a range for a context: an uncorrectable error strikes in its place, and a single-bit error is corrected
first (R262, R264). -/
def readThen (a n : Nat) (reader : Option Nat) (go : State → State) (s : State) (src : Nat := 7) : State :=
  match s.ueRead a n reader src with
  | some t => t
  | none => go (s.correct a n)

/-- Every word of a list that a master reads is struck (R264). -/
def strikeAll (src : Nat) (reader : Option Nat) (bad : List Nat) (s : State) : State := bad.foldl (fun t w => ueStrike w reader false t src) s

/-- What a block's own read of ranges does besides bringing their bytes: words in error are struck, single-bit errors corrected (R262, R264). -/
def readStrike (rs : List (Nat × Nat)) (s : State) : State :=
  strikeAll 7 none (rs.flatMap fun r => s.badWords r.1 r.2).eraseDups (s.correctAll rs)

/-- The bytes of a range that a copy of a block to `dst` writes there: those that depend on a word in error stay as they were (R264). -/
def State.goodBytes (s : State) (src dst n : Nat) : List Byte :=
  let bad := s.badWords src n
  if bad = [] then s.ldBytes src n
  else (List.range n).map fun k => if bad.contains ((src + k) / 8 * 8) then (s.ldBytes (dst + k) 1).headD 0 else (s.ldBytes (src + k) 1).headD 0

/-- Bytes written by a master; the words in error that they cover in part are struck (R264, R266). -/
def storeBytes (src : Nat) (reader : Option Nat) (a : Nat) (bs : List Byte) (s : State) : State :=
  strikeAll src reader (s.stuckWords a bs.length) (s.stBytes a bs)

/-- A number of `n` bytes written by a block of the device. -/
def storeNum (a n v : Nat) (s : State) : State := storeBytes 7 none a (leBytes n v) s

end Sys2Proof.Machine
end

