-- ==== Sys2Proof/Machine/Slots.lean ====
section
/-! DEFINITION. The slots of the input and reference stores (R56, R57): header fields, opening a slot (R249), row-group
flags (R487), and halo strips (R91, R92). -/
namespace Sys2Proof.Machine

/-- Frame `a` is later than frame `b`, modulo 2^32 as signed values (R64). -/
def laterFrame (a b : Nat) : Bool := decide (0 < sext 32 ((a + 2 ^ 32 - b % 2 ^ 32) % 2 ^ 32))

/-- Address of the header of slot `i` of head group `g` (R56). -/
def State.slotHdr (s : State) (g : Nat) (ref : Bool) (i : Nat) : Nat :=
  s.rd64 cagePage (hgOff g + (if ref then 0x18 else 0x10)) / 256 * 256 % 2 ^ 40 + 256 * i

/-- Slots of a store (R56). -/
def State.slotCount (s : State) (g : Nat) (ref : Bool) : Nat := if ref then 2 else s.inputDepth g

/-- A field of a slot header: `n` bytes at an offset, bits [hi:lo]. -/
def State.hf (s : State) (h off n hi lo : Nat) : Nat := fld (s.ld (h + off) n) hi lo

/-- FRAME_N of a header (R57). -/
def State.hFrame (s : State) (h : Nat) : Nat := s.ld h 4
/-- Bit `b` of the header word 0x04: OPEN, COMPLETE, LOSS, HELD. -/
def State.hBit (s : State) (h b : Nat) : Bool := bit (s.ld (h + 4) 4) b
/-- WIDTH of a header. -/
def State.hWidth (s : State) (h : Nat) : Nat := s.ld (h + 8) 2
/-- HEIGHT of a header. -/
def State.hHeight (s : State) (h : Nat) : Nat := s.ld (h + 0x0A) 2
/-- COLOUR_FMT of a header. -/
def State.hColour (s : State) (h : Nat) : Nat := s.hf h 0x0C 4 3 0
/-- MASKS of a header, at most 4. -/
def State.hMasks (s : State) (h : Nat) : Nat := min 4 (s.hf h 0x0C 4 10 8)
/-- ROWGROUP of a header. -/
def State.hRowGroup (s : State) (h : Nat) : Nat := s.hf h 0x0C 4 23 16
/-- MARGIN of a header. -/
def State.hMargin (s : State) (h : Nat) : Nat := s.hf h 0x0C 4 31 24
/-- Address of pixel (0, 0) of plane `k`: 0 colour, 1 depth, 2 motion, 3-6 masks. -/
def State.hPlane (s : State) (h k : Nat) : Nat := s.ld (h + 0x10 + 8 * k) 8
/-- Stride of plane `k`. -/
def State.hStride (s : State) (h k : Nat) : Nat := s.ld (h + 0x48 + 4 * min k 3) 4
/-- Bytes of a pixel of plane `k` (R58). -/
def State.hPixel (s : State) (h k : Nat) : Nat := if k = 0 then (if s.hColour h = 0 then 4 else 8) else if k < 3 then 4 else 1
/-- FLAG_BASE of a header. -/
def State.hFlagBase (s : State) (h : Nat) : Nat := s.hf h 0x58 4 11 0
/-- FLAG_DRIFT of a header. -/
def State.hFlagDrift (s : State) (h : Nat) : Nat := s.hf h 0x58 4 14 12
/-- Row groups of a slot (R62). -/
def State.hGroups (s : State) (h : Nat) : Nat := if s.hRowGroup h = 0 then 0 else ceilDiv (s.hHeight h) (s.hRowGroup h)
/-- Planes of a slot: colour, depth, motion and its masks. -/
def State.hPlanes (s : State) (h : Nat) : Nat := 3 + s.hMasks h

/-- Key of a slot. -/
def slotKey (g : Nat) (ref : Bool) (i : Nat) : Nat := (2 * g + b2n ref) * 4 + i

/-- What ingress keeps of a slot. -/
def State.slot (s : State) (k : Nat) : SlotSt := NMap.get {} s.slots k

/-- The state with a slot changed. -/
def State.modSlot (s : State) (k : Nat) (f : SlotSt → SlotSt) : State := { s with slots := NMap.put s.slots k (f (s.slot k)) }

/-- Halo flag base of a head group (R99). -/
def State.haloBase (s : State) (g : Nat) : Nat := s.rf cagePage (hgOff g + 0x64) 11 0
/-- Drift of the halo flags of a head group. -/
def State.haloDrift (s : State) (g : Nat) : Nat := s.rf cagePage (hgOff g + 0x64) 14 12

/-- A slot opens for frame `n`: FRAME_N = n, OPEN = 1, COMPLETE = 0, LOSS = 0; every row-group flag of the slot is cleared,
and its halo flags for an input slot; nothing has arrived (R249, R486). VALID of its RENDER_POSE is cleared (R489, log entry
23). -/
def openSlot (g : Nat) (ref : Bool) (i n : Nat) (s : State) : State :=
  let h := s.slotHdr g ref i
  let s1 := storeNum h 4 n s
  let s2 := storeNum (h + 4) 4 (s1.ld (h + 4) 4 / 8 * 8 + 1) s1
  let s3 := storeNum (h + 0x64) 4 (setBit (s2.ld (h + 0x64) 4) 8 false) s2
  let s4 := s3.setGRange (s3.hFlagDrift h) (s3.hFlagBase h) (s3.hGroups h) false
  let s5 := if ref then s4
    else ((s4.setGRange (s4.haloDrift g) (s4.haloBase g) (s4.hGroups h) false).setG (s4.haloDrift g) (s4.haloBase g + 256) false).setG
      (s4.haloDrift g) (s4.haloBase g + 257) false
  let k := (4 * g + i) * 512
  { s5.modSlot (slotKey g ref i) (fun _ => {}) with haloGot := if ref then s5.haloGot else NMap.delRange s5.haloGot k (k + 512) }

/-! ### Halo strips -/

/-- Where a destination lies: head group, slot, plane, row and column, the margins counted negative. -/
structure StripAt where
  g : Nat
  i : Nat
  plane : Nat
  row : Int
  col : Int

/-- The plane of an input store in which a device address lies. -/
def State.stripAt (s : State) (a : Nat) : Option StripAt :=
  ((List.range 4).flatMap fun g => (List.range (s.inputDepth g)).map fun i => (g, i)).findSome? fun e =>
    let h := s.slotHdr e.1 false e.2
    if s.rd64 cagePage (hgOff e.1 + 0x10) = 0 then none
    else (List.range (s.hPlanes h)).findSome? fun k =>
      let m := s.hMargin h
      let st := s.hStride h k
      let px := s.hPixel h k
      let lo := s.hPlane h k - m * st - m * px
      if lo ≤ a ∧ a < lo + (s.hHeight h + 2 * m) * st ∧ 0 < st then
        some ⟨e.1, e.2, k, (((a - lo) / st : Nat) : Int) - m, (((a - lo) % st / px : Nat) : Int) - m⟩
      else none

/-- KIND of side `d` (0 W, 1 E, 2 N, 3 S) of HG_NBR (R90). -/
def State.nbrKind (s : State) (g d : Nat) : Nat := s.rf cagePage (hgOff g + 0x38) (8 * d + 1) (8 * d)

/-- The low 32 bits of the slot DIGEST of a head group, when its slot is valid (R92). -/
def State.slotDigest (s : State) (g : Nat) : Option Nat :=
  (NMap.find s.slotDesc (s.rf cagePage (hgOff g) 9 8)).map fun d => leAt d 8 4

/-- The strip of row group `rg`, frame `n` and a digest is accepted at a destination (R92). -/
def State.haloOk (s : State) (p : StripAt) (n digest : Nat) : Bool :=
  let h := s.slotHdr p.g false p.i
  decide (n % s.inputDepth p.g = p.i) && (s.hFrame h == n || laterFrame n (s.hFrame h)) && s.slotDigest p.g == some digest

/-- The side from which a strip came: 0 W, 1 E, 2 N, 3 S (R91, R251). -/
def stripSide (s : State) (p : StripAt) (rg : Nat) : Nat :=
  if rg = 0xFE then 2 else if rg = 0xFF then 3 else if p.col < (s.hWidth (s.slotHdr p.g false p.i) : Int) / 2 then 0 else 1

/-- The planes that have arrived of a row group from a side. -/
def State.haloPlanes (s : State) (g i rg e : Nat) : Nat := NMap.get 0 s.haloGot ((4 * g + i) * 512 + 2 * rg + e)

/-- Every plane of a row group has arrived from a side. -/
def State.haloAll (s : State) (g i rg e : Nat) : Bool :=
  decide (s.haloPlanes g i rg e = 2 ^ s.hPlanes (s.slotHdr g false i) - 1)

/-- The slot is opened for frame `n` when it holds an older frame (R92). -/
def haloOpen (p : StripAt) (n : Nat) (s : State) : State :=
  if s.hFrame (s.slotHdr p.g false p.i) = n then s else openSlot p.g false p.i n s

/-- A strip of one plane has arrived: with the last plane of its row group from its side the input record enters it (R62, R363; log entry
30). The side of N and S strips counts as 0 in the places that `haloGot` keeps. -/
def haloNote (p : StripAt) (rg : Nat) (s : State) : State :=
  let d := stripSide s p rg
  let e := if d < 2 then d else 0
  let k := (4 * p.g + p.i) * 512 + 2 * rg + e
  let s1 := { s with haloGot := NMap.put s.haloGot k (setBit (NMap.get 0 s.haloGot k) p.plane true) }
  if s1.haloAll p.g p.i rg e && !s.haloAll p.g p.i rg e then
    recInput 0x02 (p.g + 4 * d + 256 * rg) (s.hFrame (s.slotHdr p.g false p.i)) [] s1
  else s1

/-- A strip has arrived whole: it is noted, and the halo flag is set when the strips of the row group from every side that is not an edge
have arrived, or the strip flag of N or S (R91). -/
def haloArrived (p : StripAt) (rg : Nat) (s : State) : State :=
  let d := stripSide s p rg
  let e := d % 2
  let s1 := haloNote p rg s
  if d < 2 then
    if (s1.nbrKind p.g 0 = 0 ∨ s1.haloAll p.g p.i rg 0) ∧ (s1.nbrKind p.g 1 = 0 ∨ s1.haloAll p.g p.i rg 1) then
      s1.setG (s1.haloDrift p.g) (s1.haloBase p.g + rg) true
    else s1
  else if s1.haloAll p.g p.i rg 0 then s1.setG (s1.haloDrift p.g) (s1.haloBase p.g + 256 + e) true
  else s1

/-- A strip is discarded (R92). -/
def haloReject (s : State) : State := (s.tally cagePage 0x0B).irq cagePage 13

end Sys2Proof.Machine
end

