-- ==== Sys2Proof/Machine/Adapt.lean ====
section
/-! DEFINITION. What a step of on-device adaptation is (R292-R297, R309-R314): taken references, the commit and the drop of a
step, late notices, and the frame mapping of head groups (R64). -/
namespace Sys2Proof.Machine

/-! ### Frames of a head group -/

/-- EN of a head group. -/
def State.hgEn (s : State) (g : Nat) : Bool := s.rb cagePage (hgOff g) 0
/-- R_f of a head group (R100). -/
def State.hgRf (s : State) (g : Nat) : Nat := s.rf cagePage (hgOff g + 4) 6 4
/-- LAG of a head group. -/
def State.hgLag (s : State) (g : Nat) : Nat := s.rf cagePage (hgOff g + 4) 8 8
/-- HG_FRAME_ORIGIN. -/
def State.hgFo (s : State) (g : Nat) : Nat := s.rd cagePage (hgOff g + 8)
/-- HG_RENDER_ORIGIN. -/
def State.hgRo (s : State) (g : Nat) : Nat := s.rd cagePage (hgOff g + 0x0C)

/-- The rendered frame and the phase of output frame `F`; none where no band is launched (R64). -/
def State.frameMap (s : State) (g F : Nat) : Option (Nat × Nat) :=
  let k := sext 32 ((F + 2 ^ 32 - s.hgFo g) % 2 ^ 32)
  let r := k / (s.hgRf g : Int) - s.hgLag g
  if k < 0 ∨ r < 0 then none else some ((s.hgRo g + r.toNat) % 2 ^ 32, (k % (s.hgRf g : Int)).toNat)

/-! ### Adaptation registers and steps -/

/-- Offset of the adaptation block of head group `g` (R317). -/
def adOff (g : Nat) : Nat := 0x400 + 0x40 * g
/-- AD_CFG.EN of a head group. -/
def State.adEn (s : State) (g : Nat) : Bool := s.rb cagePage (adOff g) 0
/-- The adapting head groups of the device. -/
def State.adGroups (s : State) : List Nat := (List.range 4).filter s.adEn
/-- Adaptation of a head group. -/
def State.ad (s : State) (g : Nat) : AdaptSt := NMap.get {} s.adapt g
/-- The state with the adaptation of a head group changed. -/
def State.modAd (s : State) (g : Nat) (f : AdaptSt → AdaptSt) : State := { s with adapt := NMap.put s.adapt g (f (s.ad g)) }
/-- N of a head group (R292). -/
def State.adN (s : State) (g : Nat) : Nat := s.rf cagePage (adOff g) 15 8 + 1
/-- AD_CFG.D (R293). -/
def State.adD (s : State) (g : Nat) : Nat := s.rf cagePage (adOff g) 23 16
/-- n_j (R292). -/
def State.adRef (s : State) (g j : Nat) : Nat := (s.rd cagePage (adOff g + 4) + j * s.adN g) % 2 ^ 32
/-- F_j (R96, R292). -/
def State.adFrame (s : State) (g j : Nat) : Nat :=
  (s.hgFo g + (s.adRef g j + 2 ^ 32 - s.hgRo g + s.hgLag g) % 2 ^ 32 * s.hgRf g) % 2 ^ 32
/-- S_j (R293). -/
def State.adSwitch (s : State) (g j : Nat) : Nat := (s.adFrame g j + s.adD g) % 2 ^ 32
/-- References from one taken reference to the next: the least number whose output frames span D (R293). -/
def State.adPeriod (s : State) (g : Nat) : Nat := max 1 (ceilDiv (s.adD g) (s.adN g * s.hgRf g))
/-- The reference that a rendered frame is, if it is one (R292). -/
def State.adIndex (s : State) (g n : Nat) : Option Nat :=
  let d := (n + 2 ^ 32 - s.rd cagePage (adOff g + 4)) % 2 ^ 32
  if d < 2 ^ 31 ∧ d % s.adN g = 0 then some (d / s.adN g) else none
/-- AD_STAT.CUR. -/
def State.adCur (s : State) (g : Nat) : Nat := s.rf cagePage (adOff g + 0x28) 0 0
/-- Address of state set `k` of a head group. -/
def State.adSet (s : State) (g k : Nat) : Nat := s.rd64 cagePage (adOff g + 0x10 + 8 * k)
/-- WEIGHTS of a state set (R295). -/
def State.setWeights (s : State) (a : Nat) : Nat := s.ld (a + 8) 8 % 2 ^ 40
/-- A gallery flag of adaptation: 0 STEP_DONE, 1 RED_REQ, 2 RED_DONE (R302). -/
def State.adFlag (s : State) (g k : Nat) : Bool := s.gflag (s.rf cagePage (adOff g + 0x0C) 14 12) (s.rf cagePage (adOff g + 0x0C) 11 0 + k)
/-- The state with a gallery flag of adaptation set or cleared. -/
def State.setAdFlag (s : State) (g k : Nat) (v : Bool) : State :=
  s.setG (s.rf cagePage (adOff g + 0x0C) 14 12) (s.rf cagePage (adOff g + 0x0C) 11 0 + k) v

/-- The reference slot that holds the reference of a head group's current step, complete (R298, R310). -/
def State.refSlot (s : State) (g : Nat) : Option Nat :=
  (List.range 2).find? fun i => let h := s.slotHdr g true i; s.hFrame h == s.adRef g (s.ad g).step && s.hBit h 1

/-- HELD of a reference slot set or cleared (R57, R297). -/
def setHeld (g i : Nat) (v : Bool) (s : State) : State :=
  let a := s.slotHdr g true i + 4
  storeNum a 4 (setBit (s.ld a 4) 3 v) s

/-- Frame and line of the decision line of a head group's current step: line 0 of the frame before its switch frame (R293). -/
def State.decisionPos (s : State) (g : Nat) : Nat × Nat := ((s.adSwitch g (s.ad g).step + 2 ^ 32 - 1) % 2 ^ 32, 0)

/-- The outcome of a step enters the input record (R314, R363). -/
def recAdapt (g outcome cause j : Nat) (s : State) : State := recInput 0x07 (g + outcome * 16 + cause * 256) j [] s

/-- The references between a decided step and the next taken one are skipped: each is counted and entered in the record (R293, R314; when,
is log entry 32). In replay the ring supplies the skips (R370). -/
def skipRefs (g j n : Nat) (s : State) : State :=
  if s.replay then s else (List.range n).foldl (fun t k => recAdapt g 2 0 (j + 1 + k) (t.tally cagePage 0x21)) s

/-- A step is over: AD_STEP names it, HELD is cleared, and the next taken reference is the current step (R293, R312). -/
def stepOver (g : Nat) (s : State) : State :=
  let j := (s.ad g).step
  let s1 := match s.refSlot g with
    | some i => setHeld g i false s
    | none => s
  skipRefs g j (s1.adPeriod g - 1)
    ((s1.wr cagePage (adOff g + 0x2C) j).modAd g fun x => { step := j + s1.adPeriod g, commits := x.commits })

/-- The commit of an armed step (R296, R312). -/
def stepCommit (g : Nat) (s : State) : State :=
  let j := (s.ad g).step
  let next := 1 - s.adCur g
  let s1 := s.st (s.adSet g next + 0x28) 4 j
  let s2 := ((s1.wf cagePage (adOff g + 0x28) 0 0 next).incWrap cagePage (adOff g + 0x30)).modAd g fun x => { x with commits := x.commits ++ [j] }
  stepOver g (recAdapt g 0 0 j ((s2.tally cagePage 0x1F).irq cagePage 14))

/-- The adaptation context stops when it still runs (R309, R311). -/
def stopStep (g : Nat) (s : State) : State :=
  let h := (s.ad g).handle
  if (s.ad g).phase = 1 && (s.ctx h).active then teardown h 0 s else s

/-- A step is dropped with a cause (R309-R312): its context stops, an armed switch is cancelled. -/
def stepDrop (g cause : Nat) (s : State) : State :=
  let j := (s.ad g).step
  let s1 := stopStep g s
  let s2 := if (s.ad g).phase = 2 then s1.wb cagePage (hgOff g + 0x4C) 8 false else s1
  let s3 := (s2.wf cagePage (adOff g + 0x28) 11 8 cause).incWrap cagePage (adOff g + 0x34)
  stepOver g (recAdapt g 1 cause j ((s3.tally cagePage 0x20).irq cagePage 15))

/-! ### Broadcasts of late notices -/

/-- Byte 1 of a broadcast: COL in [2:0] and ROW in [5:3] of the origin (R567, log entry 31). -/
def State.wallByte (s : State) : Nat := s.rf cagePage 0x500 5 0

/-- The payload of a late notice: KIND, origin, the step in bytes 2-5, the head group in byte 6 (R567, log entry 31). -/
def latePayload (s : State) (g j : Nat) : List Byte := leBytes 1 2 ++ leBytes 1 s.wallByte ++ leBytes 4 j ++ leBytes 1 g

/-- A broadcast goes to every WALL port that is UP but the port of arrival, and to the PAIR port (R567, R572). -/
def bcastSend (except : Option Nat) (payload : List Byte) (s : State) : State :=
  let wall := if s.standby then [] else (s.upPorts 1).filter fun p => some p != except
  let pair := if s.standby then [] else (s.upPorts 2).filter fun p => some p != except
  (wall ++ pair).foldl (fun t p => xcPush p 0x7 true 0 0 payload t) s

/-- AD_WALL.MIRROR counts until a takeover (R308, R577). -/
def State.mirror (s : State) : Bool := s.rb cagePage 0x500 12 && !s.takeOut

/-- A device fault that ADAPT_SPLIT raises (R313). -/
def adaptSplit (s : State) : State := s.fault { page := cagePage, code := 0x8002, device := true }

/-- The device is late for a step: it sends a notice once, or, as the mirror of a pair, records ADAPT_SPLIT (R308, R309). -/
def sendLate (g j : Nat) (s : State) : State :=
  if (NMap.find s.lateSeen j).isSome then s
  else
    let s1 : State := { s with lateSeen := NMap.put s.lateSeen j false }
    if s.mirror then adaptSplit s1 else bcastSend none (latePayload s g j) s1

/-- The cause that a group's own current step has to be late, if it has one (R310). The reducer's abandoning counts before what else the
group's step lacks (R306). -/
def State.ownCause (s : State) (g : Nat) : Option Nat :=
  let x := s.ad g
  if x.mismatch then some 5
  else match s.refSlot g with
    | none => some 1
    | some i =>
      if s.hBit (s.slotHdr g true i) 2 then some 2
      else if x.phase = 0 then some (if s.rb cagePage (adOff g) 1 then 7 else 4)
      else if x.failed || (s.ctx x.handle).state == 6 then some 3
      else if s.adFlag g 0 then none else some 4

/-- The device is late for the step of a group with a cause: the notice goes out, and every adapting group drops the step, the others with a
cause of their own where they have one (R309, R310; log entry 32). -/
def stepLate (g cause : Nat) (s : State) : State :=
  let j := (s.ad g).step
  let s1 := stepDrop g cause (sendLate g j s)
  ((s.adGroups.filter fun e => e != g && (s.ad e).step == j)).foldl (fun t e => stepDrop e ((t.ownCause e).getD cause) t) s1

/-- The outcome that a replay supplies for a step that is dropped outside its decision line (R314, R370, R372). -/
def replayDrop (g : Nat) (s : State) : State :=
  match s.replayPeek with
  | none => replayWait s
  | some e =>
    if e.type = 7 ∧ fld e.a0 1 0 = g ∧ e.a1 = (s.ad g).step ∧ fld e.a0 5 4 = 1 then stepDrop g (fld e.a0 11 8) (replayPop e s) else replayDiverge s

/-- EN of adaptation or of the head group is cleared: the undecided step is late at once with DISABLED (R310, R320). -/
def adDisabled (g : Nat) (s : State) : State :=
  if !s.adEn g then s else if s.replay then (if s.replayStop then s else replayDrop g s) else stepLate g 8 s

/-- Adaptation of a group ends: no reference slot stays HELD for a step that will not come (R297, log entry 32). -/
def freeHeld (g : Nat) (s : State) : State :=
  (List.range 2).foldl (fun t i => if t.hBit (t.slotHdr g true i) 3 then setHeld g i false t else t) s

/-- A reference slot becomes COMPLETE (R293, R297): a taken reference that is not yet decided is HELD. -/
def refComplete (g i : Nat) (s : State) : State :=
  if !s.adEn g then s
  else match s.adIndex g (s.hFrame (s.slotHdr g true i)) with
    | none => s
    | some j => if j % s.adPeriod g = 0 ∧ (s.ad g).step ≤ j then setHeld g i true s else s

end Sys2Proof.Machine
end

