-- ==== Sys2Proof/Machine/Keccak.lean ====
section
/-! DEFINITION. Keccak-f[1600], SHAKE256 and KMAC256 as the FIPS 202 and SP 800-185 standards define them: the digests
and tags of R66, R355, R363, R541, R591, R594 and R602. -/
namespace Sys2Proof.Machine

/-- A 64-bit lane rotated left. -/
def rotl64 (x n : Nat) : Nat := ((x <<< (n % 64)) ||| (x >>> (64 - n % 64))) % 2 ^ 64

/-- Lane x + 5y of a state. -/
def lane (a : List Nat) (x y : Nat) : Nat := nth 0 a (x % 5 + 5 * (y % 5))

/-- The walk over the lanes other than the origin (FIPS 202, algorithm 2): from (1, 0), each step goes from (x, y) to
(y, 2x + 3y); the lane met at step t is rotated by the triangular number (t + 1)(t + 2) / 2. -/
def rhoWalk : Nat → Nat × Nat → Nat → List (Nat × Nat)
  | 0, _, _ => []
  | n + 1, p, t => (p.1 + 5 * p.2, (t + 1) * (t + 2) / 2 % 64) :: rhoWalk n (p.2, (2 * p.1 + 3 * p.2) % 5) (t + 1)

/-- Rotation offsets by lane number; the origin keeps 0. -/
def keccakRho : List Nat := (rhoWalk 24 (1, 0) 0).foldl (fun l e => setNth l e.1 e.2) (List.replicate 25 0)

/-- One step of the bit generator of the round constants (FIPS 202, algorithm 5), on its eight-bit register: x^8 + x^6 + x^5 +
x^4 + 1. -/
def rcStep (r : Nat) : Nat := if r < 128 then 2 * r else (2 * r - 256) ^^^ 0x71

/-- The register after `n` steps. -/
def rcAfter : Nat → Nat → Nat
  | 0, r => r
  | n + 1, r => rcAfter n (rcStep r)

/-- The constant of one round: the low bits of seven registers in turn stand at positions 2^j - 1. -/
def rcWord : Nat → Nat → Nat → Nat
  | 0, _, _ => 0
  | n + 1, j, r => r % 2 * 2 ^ (2 ^ j - 1) + rcWord n (j + 1) (rcStep r)

/-- The constants of `n` rounds from a register. -/
def rcList : Nat → Nat → List Nat
  | 0, _ => []
  | n + 1, r => rcWord 7 0 r :: rcList n (rcAfter 7 r)

/-- Round constants of the 24 rounds. -/
def keccakRc : List Nat := rcList 24 1

/-- One round of the permutation on 25 lanes. -/
def keccakRound (a : List Nat) (rc : Nat) : List Nat :=
  let c := (List.range 5).map fun x => (List.range 5).foldl (fun v y => v ^^^ lane a x y) 0
  let d := (List.range 5).map fun x => nth 0 c ((x + 4) % 5) ^^^ rotl64 (nth 0 c ((x + 1) % 5)) 1
  let t := (List.range 25).map fun k => nth 0 a k ^^^ nth 0 d (k % 5)
  let b := (List.range 25).map fun k =>
    let y := k / 5
    let x0 := (k % 5 + 3 * y) % 5
    rotl64 (lane t x0 (k % 5)) (nth 0 keccakRho (x0 + 5 * (k % 5)))
  let e := (List.range 25).map fun k =>
    let x := k % 5
    let y := k / 5
    lane b x y ^^^ ((2 ^ 64 - 1 - lane b (x + 1) y) &&& lane b (x + 2) y)
  (nth 0 e 0 ^^^ rc) :: e.drop 1

/-- The permutation. -/
def keccakF (a : List Nat) : List Nat := keccakRc.foldl keccakRound a

/-- A block of 136 bytes taken into the state. -/
def keccakAbsorb (a : List Nat) (block : List Byte) : List Nat :=
  keccakF ((List.range 25).map fun k => if k < 17 then nth 0 a k ^^^ leAt block (8 * k) 8 else nth 0 a k)

/-- The first `n` blocks of 136 bytes of a message taken in. -/
def keccakBlocks : Nat → List Byte → List Nat → List Nat
  | 0, _, a => a
  | n + 1, m, a => keccakBlocks n (m.drop 136) (keccakAbsorb a (m.take 136))

/-- A message padded to whole blocks with a domain suffix. -/
def keccakPad (suffix : Nat) (m : List Byte) : List Byte :=
  let z := 136 - m.length % 136
  if z = 1 then m ++ [BitVec.ofNat 8 (suffix + 0x80)]
  else m ++ [BitVec.ofNat 8 suffix] ++ List.replicate (z - 2) 0 ++ [0x80]

/-- `n` bytes squeezed from a state, in blocks of 136. -/
def keccakSqueeze : Nat → Nat → List Nat → List Byte
  | 0, _, _ => []
  | k + 1, n, a => ((a.take 17).flatMap (leBytes 8)).take n ++ keccakSqueeze k (n - 136) (keccakF a)

/-- The sponge with rate 136 and a domain suffix: `n` bytes of output. -/
def sponge (suffix n : Nat) (m : List Byte) : List Byte :=
  let p := keccakPad suffix m
  keccakSqueeze (ceilDiv n 136) n (keccakBlocks (p.length / 136) p (List.replicate 25 0))

/-- SHAKE256 with `n` bytes of output. -/
def shake256 (m : List Byte) (n : Nat) : List Byte := sponge 0x1F n m

/-- The bytes of a number, most significant first, without leading zeros but at least one. -/
def encBytes (x : Nat) : List Byte :=
  let k := ((List.range 8).find? fun k => decide (x < 256 ^ (k + 1))).getD 7
  beBytes (k + 1) x

/-- left_encode of SP 800-185. -/
def leftEncode (x : Nat) : List Byte := BitVec.ofNat 8 (encBytes x).length :: encBytes x
/-- right_encode of SP 800-185. -/
def rightEncode (x : Nat) : List Byte := encBytes x ++ [BitVec.ofNat 8 (encBytes x).length]
/-- encode_string of SP 800-185. -/
def encodeString (s : List Byte) : List Byte := leftEncode (8 * s.length) ++ s
/-- bytepad of SP 800-185 to 136 bytes. -/
def bytepad (m : List Byte) : List Byte :=
  let x := leftEncode 136 ++ m
  x ++ List.replicate ((136 - x.length % 136) % 136) 0

/-- The bytes of an ASCII string. -/
def ascii (s : String) : List Byte := s.toList.map fun c => BitVec.ofNat 8 c.toNat

/-- KMAC256 of a key, a message and a customisation string, with `n` bytes of output. -/
def kmac256 (key m : List Byte) (n : Nat) (custom : List Byte) : List Byte :=
  sponge 0x04 n (bytepad (encodeString (ascii "KMAC") ++ encodeString custom) ++ bytepad (encodeString key) ++ m ++ rightEncode (8 * n))

end Sys2Proof.Machine
end

