-- ==== Sys2Proof/Machine/Loader.lean ====
section
/-! DEFINITION. The loader checks (R231-R236). -/
namespace Sys2Proof.Machine

/-- The words of a list. -/
def State.listWords (s : State) (list n : Nat) : List Nat := (List.range n).map fun k => s.ld (list + 16 * k) 16

/-- A range lies wholly in DRAM or in one gallery. -/
def inDramOrGallery (a n : Nat) : Bool := match regionOf a, regionOf (a + n - 1) with
  | .dram, .dram => true
  | .gallery d, .gallery e => d == e
  | _, _ => false

/-- A list may lie at a range: for a context, also inside its X windows (R236, R325). -/
def State.listRange (s : State) (h : Option Nat) (a n : Nat) : Bool :=
  inDramOrGallery a n && (match h with
    | some k => s.winAllow (s.ctx k) 3 a n
    | none => true)

/-- A reserved trap: it passes the loader checks (R204). -/
def isTrap (w : Nat) : Bool := decide (0xF0 ≤ wOp w)

/-- The loops of a list, as (LOOP position, ENDLOOP position), when every LOOP and ENDLOOP pairs and nests (R236). -/
def loopPairs : List Nat → Nat → List (Nat × Nat) → List (Nat × Nat) → Option (List (Nat × Nat))
  | [], _, [], done => some done
  | [], _, _ :: _, _ => none
  | w :: r, i, stack, done =>
    if wOp w = 0x02 then loopPairs r (i + 1) ((fld w 25 24, i) :: stack) done
    else if wOp w = 0x03 then
      match stack with
      | (k, l) :: rest => if k = fld w 25 24 then loopPairs r (i + 1) rest ((l, i) :: done) else none
      | [] => none
    else loopPairs r (i + 1) stack done

/-- A BRANCH from `b` to `t` does not enter a loop body from outside (R236). -/
def jumpOk (loops : List (Nat × Nat)) (b t : Nat) : Bool :=
  loops.all fun l => !(decide (l.1 < t) && decide (t ≤ l.2)) || (decide (l.1 < b) && decide (b ≤ l.2))

/-- Every BRANCH of a list keeps to LIST_BRANCH, given its loops. -/
def branchesOk (n : Nat) (loops : List (Nat × Nat)) : List Nat → Nat → Bool
  | [], _ => true
  | w :: r, i =>
    (wOp w != 0x04 ||
      (let t := (i : Int) + sext 20 (fld w 51 32)
       decide (1 ≤ t) && decide (t < n) && jumpOk loops i t.toNat)) && branchesOk n loops r (i + 1)

/-- The last word is STOP or a BRANCH that is always taken (R236). -/
def lastOk (w : Nat) : Bool := wOp w == 0x01 || (wOp w == 0x04 && fld w 27 26 == 2)

/-- LIST_LIVE: ranges in the face store, at most 8 in the set at any position (R233). -/
def liveOk : List Nat → Nat → Bool
  | [], n => decide (n ≤ 8)
  | w :: r, n =>
    if wOp w = 0x08 then
      let m := if bit w 24 then n + fld w 26 25 else fld w 26 25
      ((liveRanges w).all fun e => decide (64 * (e.1 + e.2) ≤ 0x40000)) && decide (m ≤ 8) && liveOk r m
    else liveOk r n

/-- The flags of a space that a word covers, as a range (R236): SIG with POL 0, a done flag, EXTERN. -/
def coversFlags (w : Nat) : Option (Nat × Nat × Nat) := match wOp w with
  | 0x10 => if bit w 41 then none else if fld w 45 43 = 0 then some (fld w 25 24, fld w 37 26, 1) else some (fld w 25 24, 0, 4096)
  | 0x09 => some (fld w 25 24, fld w 37 26, if fld w 49 38 = 0 then 4096 else fld w 49 38)
  | 0x70 | 0x71 | 0x72 | 0x73 => if bit w 48 then some (fld w 50 49, fld w 62 51, 1) else none
  | 0xA2 => if bit w 86 then some (fld w 88 87, fld w 100 89, 1) else none
  | _ => none

/-- The local and stope flags that a word awaits set (R236). -/
def awaits (w : Nat) : List (Nat × Nat) :=
  (if wW w && decide (fld w 23 22 < 2) then [(fld w 23 22, fld w 21 10)] else []) ++
  (if wOp w == 0x11 && !bit w 41 && fld w 45 43 == 0 && decide (fld w 25 24 < 2) then [(fld w 25 24, fld w 37 26)] else [])

/-- No awaited flag is an orphan (LIST_FLAG_ORPHAN); a reserved opcode passes the checks (R204). -/
def flagsCovered (ws : List Nat) : Bool :=
  let cov := ws.filterMap coversFlags
  ws.all fun w => isTrap w || (awaits w).all fun f => cov.any fun c => c.1 == f.1 && decide (c.2.1 ≤ f.2) && decide (f.2 < c.2.1 + c.2.2)

/-- The checks from LIST_HEADER on over the words of a list: the first failing code, 0 for none (R236). -/
def wordsCheck (strict : Bool) (ws : List Nat) : Nat :=
  let body := ws.drop 1
  if body.any fun w => wOp w == 0x0F then 0x03
  else if body.any fun w => !isTrap w && !opListed (wOp w) then 0x04
  else if body.any fun w => !isTrap w && !fieldsOk w then 0x05
  else if body.any fun w => needsV w && !wV w then 0x06
  else if strict && ws.any wV then 0x07
  else if (match loopPairs ws 0 [] [] with
    | none => true
    | some l => !branchesOk ws.length l ws 0 || !lastOk (ws.getLast?.getD 0)) then 0x08
  else if !liveOk ws 1 then 0x09
  else if !flagsCovered ws then 0x0A
  else 0

/-- The checks of a list from LIST_RANGE on (R236); `h` is the context it is loaded for, none at a slot load. -/
def State.listCheck (s : State) (h : Option Nat) (list : Nat) (strict : Bool) : Nat :=
  if !s.listRange h list 16 then 0x02
  else
    let w0 := s.ld list 16
    if !headerOk w0 then 0x03
    else if !s.listRange h list (16 * headerWords w0) then 0x02
    else wordsCheck strict (s.listWords list (headerWords w0))

/-- Bytes of a list that the loader reads for a context: none of a word 0 out of range, and word 0 alone unless it is a header whose
list keeps to LIST_RANGE (R196, R236). -/
def State.listBytes (s : State) (h : Option Nat) (list : Nat) : Nat :=
  let w := s.ld list 16
  if !s.listRange h list 16 then 0 else if headerOk w && s.listRange h list (16 * headerWords w) then 16 * headerWords w else 16

/-- The load of a launch meets an uncorrectable error in what it reads, once LIST_UNBOUND and LIST_PARTITION hold (R236, R264). -/
def State.loadBad (s : State) (h : Option Nat) (faces : List Nat) (list : Nat) : Option State :=
  h.bind fun k => if s.partOfFaces faces ≠ some (s.ctx k).part then none else s.ueRead list (s.listBytes h list) (some k)

/-- The loader checks of a launch: LIST_UNBOUND, LIST_PARTITION, and those of the list (R236). -/
def State.launchCheck (s : State) (h : Option Nat) (faces : List Nat) (list : Nat) (strict : Bool) : Nat :=
  match h with
  | none => 0x01
  | some k => if s.partOfFaces faces ≠ some (s.ctx k).part then 0x0B else s.listCheck (some k) list strict

end Sys2Proof.Machine
end

