-- ==== Sys2Proof/Machine/Batch.lean ====
section
/-! DEFINITION. Batched streams (R345-R347): requests, and what the device does at a step boundary. -/
namespace Sys2Proof.Machine

/-- The members of a BATCH context. -/
def State.membersOf (s : State) (h : Nat) : List Member := NMap.get [] s.members h

/-- BATCH_STAT after a request or a boundary: PENDING and ERR (R348). -/
def batchStat (err : Nat) (s : State) : State := s.wr devPage 0x1BC (min 32 s.batchReqs.length + err * 256)

/-- The refusal of a request: 1 STEP_PAST, 2 NOT_MEMBER, 3 DUPLICATE, 0 for none (R345). -/
def batchRefusal (s : State) (q : BatchReq) : Nat :=
  let member := (s.membersOf q.handle).any fun m => m.stream == q.stream
  if !laterFrame q.step (s.run q.handle).step then 1
  else if q.leave && !member then 2
  else if !q.leave && (member || s.batchReqs.any fun r => r.handle == q.handle && !r.leave && r.stream == q.stream) then 3
  else 0

/-- The request that four words spell (R345). -/
def batchOf (w0 w1 w2 w3 : Nat) : BatchReq :=
  { handle := fld w0 9 0, leave := bit w0 16, stream := fld w1 15 0, step := w2, bytes := w3, deferred := false }

/-- The request that the staging words spell (R345). -/
def batchStaged (s : State) : BatchReq := batchOf (s.rd devPage 0x200) (s.rd devPage 0x204) (s.rd devPage 0x208) (s.rd devPage 0x20C)

/-- A request is queued, or refused (R345); it is the caller that ends a request beyond 32 in FULL. -/
def batchQueue (q : BatchReq) (s : State) : State :=
  let e := batchRefusal s q
  if e ≠ 0 then batchStat e s else batchStat 0 { s with batchReqs := s.batchReqs ++ [q] }

/-- A write of BATCH_CMD (R345, R348). -/
def actBatchCmd (id v : Nat) (s : State) : State :=
  if !bit v 0 then s
  else if 32 ≤ s.batchReqs.length then s.busErr id devPage 4
  else batchQueue (batchStaged s) s

/-- BATCH_SUBMIT (R345). -/
def execBatchSubmit (id : Ident) (s : State) : Host.Outcome State Fault Refusal := .next (guardW id devPage 0x1B8 s (actBatchCmd id 1))

/-- The BATCH entry of the input record (R363, R365). -/
def batchRecord (q : BatchReq) (deferred : Bool) (k : Nat) (s : State) : State :=
  recInput 0x08 (q.handle + b2n q.leave * 2 ^ 10 + b2n deferred * 2 ^ 11 + q.stream * 2 ^ 16) k [] s

/-- The lowest free member slot (R346). -/
def freeMember (ms : List Member) : Nat := ((List.range 64).find? fun k => ms.all fun m => m.slot != k).getD 0

/-- Units that members reserve. -/
def reserved (ms : List Member) : Nat := (ms.map (·.bytes)).foldl (· + ·) 0

/-- What a boundary works on: the members that stay, the free pool at this step, and the requests that wait after it. -/
structure Boundary where
  members : List Member
  free : Nat
  waiting : List BatchReq

/-- A LEAVE removes its member; its units stay out of this step's pool (R346). -/
def applyLeave (k : Nat) (a : Boundary × State) (q : BatchReq) : Boundary × State :=
  ({ a.1 with members := a.1.members.filter fun m => m.stream != q.stream }, batchRecord q false k a.2)

/-- A JOIN is admitted in the lowest free slot (R346). -/
def admitJoin (k : Nat) (a : Boundary × State) (q : BatchReq) : Boundary × State :=
  ({ a.1 with members := a.1.members ++ [⟨freeMember a.1.members, q.stream, q.bytes, k⟩], free := a.1.free - q.bytes },
    batchRecord q false k a.2)

/-- A JOIN is deferred to the next boundary (R346). -/
def deferJoin (k : Nat) (a : Boundary × State) (q : BatchReq) : Boundary × State :=
  ({ a.1 with waiting := a.1.waiting ++ [{ q with deferred := true }] }, batchRecord q true k ((a.2.tally devPage 0x16).irq devPage 9))

/-- A JOIN at a boundary: admitted when its units fit and fewer than 64 streams are members, otherwise deferred (R346). -/
def applyJoin (k : Nat) (a : Boundary × State) (q : BatchReq) : Boundary × State :=
  if q.bytes ≤ a.1.free ∧ a.1.members.length < 64 then admitJoin k a q else deferJoin k a q

/-- The requests of a context that are due at boundary `k`. -/
def State.batchDue (s : State) (h k : Nat) : List BatchReq := s.batchReqs.filter fun q => q.handle == h && (q.deferred || q.step == k)

/-- The boundary of a live run (R346): leaves, then deferred joins, then joins of this step. -/
def batchLive (h k : Nat) (s : State) : Boundary × State :=
  let ms := s.membersOf h
  let due := s.batchDue h k
  let b : Boundary := ⟨ms, (s.ctx h).pool - reserved ms, []⟩
  let a := (due.filter (·.leave)).foldl (applyLeave k) (b, s)
  let a1 := (due.filter fun q => !q.leave && q.deferred).foldl (applyJoin k) a
  (due.filter fun q => !q.leave && !q.deferred).foldl (applyJoin k) a1

/-- The BATCH entry of the replay ring is the next for a request of this boundary (R372). -/
def batchMatch (h k : Nat) (e : ReplayEntry) (q : BatchReq) : Bool :=
  e.type == 8 && e.a1 == k && fld e.a0 9 0 == h && bit e.a0 10 == q.leave && fld e.a0 31 16 == q.stream

/-- The boundary of a replay: the entries for boundary `k` in record order (R370); none while an entry is still missing
or when one does not match. -/
def batchReplay (h k : Nat) : Nat → List BatchReq → Boundary × State → Option (Boundary × State) × State
  | _, [], a => (some a, a.2)
  | 0, _, a => (none, a.2)
  | n + 1, due, a =>
    match a.2.replayPeek with
    | none => (none, replayWait a.2)
    | some e =>
      match due.find? (batchMatch h k e) with
      | none => (none, replayDiverge a.2)
      | some q =>
        let b := (a.1, replayPop e a.2)
        batchReplay h k n (due.erase q) (if q.leave then applyLeave k b q else if bit e.a0 11 then deferJoin k b q else admitJoin k b q)

/-- The member table at BTABLE (R347). -/
def memberTable (k : Nat) (b : Boundary) : List Byte :=
  leBytes 4 k ++ leBytes 4 b.members.length ++ leBytes 4 b.free ++ leBytes 52 0 ++
  (List.range 64).flatMap fun i => match b.members.find? fun m => m.slot == i with
    | some m => leBytes 4 (m.stream + 2 ^ 31) ++ leBytes 4 m.bytes ++ leBytes 4 m.join ++ leBytes 4 0
    | none => leBytes 16 0

/-- The requests after boundary `k`: those of the boundary go, but for the deferred JOINs, which keep their places in arrival order
(R346). -/
def batchAfter (h k : Nat) (waiting qs : List BatchReq) : List BatchReq :=
  qs.filterMap fun q =>
    if q.handle == h && (q.deferred || q.step == k) then
      (if !q.leave && waiting.any fun r => r.stream == q.stream then some { q with deferred := true } else none)
    else some q

/-- The boundary's outcome takes effect: the requests, the members, the table, and the faces are released (R346). -/
def batchFinish (h k : Nat) (b : Boundary) (s : State) : State :=
  let s1 := { s with batchReqs := batchAfter h k b.waiting s.batchReqs, members := NMap.put s.members h b.members }
  let s2 := (batchStat (s1.rf devPage 0x1BC 15 8) s1).stBytes (galBase + (s.ctx h).btable) (memberTable k b)
  (s.run h).faces.foldl (fun t f => t.modFace f fun x => { x with hold := .none }) (s2.setRun h { s.run h with step := k })

/-- Every face of a BATCH context has issued the STEP word of its next boundary: the boundary is worked off (R345, R346). -/
def batchBoundary (h : Nat) (s : State) : State :=
  let fs := (s.run h).faces
  if fs != [] && fs.all fun f => (s.face f).hold == .step then
    let k := (s.face (fs.headD 0)).step % 2 ^ 32
    if !s.replay then let a := batchLive h k s; batchFinish h k a.1 a.2
    else if s.replayStop then s
    else
      let ms := s.membersOf h
      match batchReplay h k 33 (s.batchDue h k) (⟨ms, (s.ctx h).pool - reserved ms, []⟩, s) with
      | (some a, _) => batchFinish h k a.1 a.2
      | (none, t) => if t.replayStop then replayDiverge s else replayWait s
  else s

/-- Boundaries that wait for a replay entry go on, as far as entries have come. -/
def batchRetry (s : State) : State :=
  (s.ctxs.filter fun e => e.2.batch && e.2.state == 3).foldl (fun t e => batchBoundary e.1 t) s

end Sys2Proof.Machine
end

