-- ==== Sys2Proof/Machine/Matrix.lean ====
section
/-! DEFINITION. The matrix cells and accumulators of a face (R111-R123, R154), the tap generator that forms B operands
(R270-R276), and the escape merge (R161-R164, R222). -/
namespace Sys2Proof.Machine

/-! ### Reading the face store -/

/-- A byte of the face store of logical face `f`. -/
def State.fsB (s : State) (f : Nat) (o : Nat) : Byte := Memory.read s.mem (fsAddr f o)
/-- `n` bytes of a face store. -/
def State.fsBytes (s : State) (f o n : Nat) : List Byte := s.ldBytes (fsAddr f o) n
/-- A signed byte of a face store. -/
def State.fsI8 (s : State) (f o : Nat) : Int := (s.fsB f o).toInt
/-- Bytes written to a face store. -/
def State.stFs (s : State) (f o : Nat) (bs : List Byte) : State := s.stBytes (fsAddr f o) bs

/-! ### Grid tables -/

/-- Entry `e` of the grid table of the face that carries logical face `f` (R145). -/
def State.gridEntry (s : State) (f e : Nat) : Int :=
  sext 6 (s.rf (s.facePg f) (0x108 + 4 * (e / 5)) (6 * (e % 5) + 5) (6 * (e % 5)))

/-- The entry of a grid code; the escape code 8 has none (R154). -/
def codeEntry (c : Nat) : Option Nat := if c = 8 then none else if c < 8 then some c else some (c - 1)

/-- The grid value of a G4 code; the escape code multiplies as 0 (R112). -/
def State.gridValue (s : State) (f c : Nat) : Int := match codeEntry c with
  | some e => s.gridEntry f e
  | none => 0

/-- The value of a UG4 code; 0 for the escape code (R154). -/
def ug4Value (c : Nat) : Int := nth 0 [0, 1, 2, 3, 4, 6, 8, 11, 0, 15, 20, 26, 33, 42, 52, 63] c

/-! ### Accumulators -/

/-- The greatest magnitude of an accumulator element (R116). -/
def accMax : Int := 2 ^ 31 - 1

/-- A value added to an element: a pinned element stays, a sum that reaches a bound pins (R116). -/
def accSum (old v : Int) : Int := if old.natAbs = 2 ^ 31 - 1 then old else clampI (-accMax) accMax (old + v)

/-- The addition pins an element that was not pinned (R117). -/
def accPins (old v : Int) : Bool := decide (old.natAbs ≠ 2 ^ 31 - 1 ∧ (accSum old v).natAbs = 2 ^ 31 - 1)

/-- The key of element C[r][c] of a bank. -/
def accKey (b r c : Nat) : Nat := 256 * b + 16 * r + c

/-- Accumulators and how many elements have become pinned. -/
structure AccRun where
  acc : NMap Int
  pins : Nat := 0
deriving DecidableEq, Repr

/-- A value added to one element. -/
def AccRun.add (x : AccRun) (k : Nat) (v : Int) : AccRun :=
  let old := NMap.get 0 x.acc k
  ⟨NMap.putD 0 x.acc k (accSum old v), x.pins + b2n (accPins old v)⟩

/-- Every element of the named banks set to 0 (R118). -/
def AccRun.clear (x : AccRun) (banks : Nat) : AccRun := { x with acc := x.acc.filter fun e => !bit banks (e.1 / 256) }

/-- One step: C[r][c] += Σ_k A[r][k] × B[k][c], the sum of the cycle exact (R112, R116). -/
def AccRun.step (x : AccRun) (bank K : Nat) (a b : Nat → Nat → Int) : AccRun :=
  (List.range 16).foldl (fun y r => (List.range 16).foldl (fun z c =>
    z.add (accKey bank r c) (((List.range K).map fun k => a r k * b k c).foldl (· + ·) 0)) y) x

/-- Newly pinned elements are counted in ACC_SAT, fire ACC_SATURATE and raise SATURATE (R117). -/
def countPins (f n : Nat) (s : State) : State :=
  if n = 0 then s else (((s.incSat (s.facePg f) 0x114 n).tallyN (s.facePg f) 0x2A n).irq (s.facePg f) 8)

/-- The state with the accumulators that a run leaves. -/
def putAcc (f : Nat) (x : AccRun) (s : State) : State := countPins f x.pins (s.modFace f fun y => { y with acc := x.acc })

/-! ### Tap descriptors -/

/-- A tap descriptor (R271), read from its bytes. -/
structure Tap where
  cbw : Nat
  pad : Nat
  base : Nat
  rstride : Nat
  cbstride : Nat
  iw : Int
  ih : Int
  x0 : Int
  y0 : Int
  ring : Nat
  ncb : Nat
  kw : Nat
  kh : Nat
  kx0 : Nat
  ky0 : Nat
  fkw : Nat
  fkh : Nat
  sx : Int
  sy : Int
  dx : Int
  dy : Int
  padW : Int
  padE : Int
  padN : Int
  padS : Int
  padValue : Int

/-- The fields of the 64 bytes of a descriptor (R271). -/
def Tap.of (bs : List Byte) : Tap :=
  let w (o : Nat) : Nat := leAt bs o 4
  { cbw := if bit (w 0) 24 then 32 else 16, pad := fld (w 0) 26 25, base := fld (w 4) 17 0, rstride := fld (w 8) 17 0,
    cbstride := fld (w 0x0C) 17 0, iw := fld (w 0x10) 15 0, ih := fld (w 0x10) 31 16, x0 := sext 16 (fld (w 0x14) 15 0),
    y0 := sext 16 (fld (w 0x14) 31 16), ring := fld (w 0x18) 7 0, ncb := fld (w 0x18) 16 8, kw := fld (w 0x1C) 3 0,
    kh := fld (w 0x1C) 7 4, kx0 := fld (w 0x1C) 13 8, ky0 := fld (w 0x1C) 21 16, fkw := fld (w 0x1C) 27 22 + 1,
    fkh := fld (w 0x20) 5 0 + 1, sx := fld (w 0x20) 11 8, sy := fld (w 0x20) 15 12, dx := fld (w 0x20) 19 16,
    dy := fld (w 0x20) 23 20, padW := fld (w 0x24) 5 0, padE := fld (w 0x24) 13 8, padN := fld (w 0x24) 21 16,
    padS := fld (w 0x24) 29 24, padValue := sext 8 (fld (w 0x28) 7 0) }

/-- Output width of a descriptor (R272). -/
def Tap.ow (t : Tap) : Int := (t.padW + t.iw + t.padE - ((t.fkw - 1 : Nat) * t.dx + 1)) / t.sx + 1
/-- Output height of a descriptor (R272). -/
def Tap.oh (t : Tap) : Int := (t.padN + t.ih + t.padS - ((t.fkh - 1 : Nat) * t.dy + 1)) / t.sy + 1

/-- The bits that R271 names, word by word; the others are reserved. -/
def tapMask (o : Nat) : Nat := match o with
  | 0x00 => 0x07FFFFFF
  | 0x04 | 0x08 | 0x0C => 0x3FFFF
  | 0x10 | 0x14 => 0xFFFFFFFF
  | 0x18 => 0x1FFFF
  | 0x1C => 0x0FFF3FFF
  | 0x20 => 0x00FFFF3F
  | 0x24 => 0x3F3F3F3F
  | 0x28 => 0xFF
  | _ => 0

/-- No reserved bit of a tap descriptor is 1. -/
def tapReservedClear (bs : List Byte) : Bool :=
  (List.range 16).all fun k => let w := leAt bs (4 * k) 4; (w &&& tapMask (4 * k)) == w

/-- A tap descriptor passes the checks of R272. -/
def tapOk (bs : List Byte) : Bool :=
  let t := Tap.of bs
  leAt bs 0 2 == 0x5441 && leAt bs 2 1 == 1 && tapReservedClear bs && t.pad != 3 && t.base % 64 == 0 && t.rstride % 64 == 0 &&
  t.cbstride % 64 == 0 && decide (1 ≤ t.iw ∧ t.iw ≤ 16383 ∧ 1 ≤ t.ih ∧ t.ih ≤ 16383) && decide (1 ≤ t.ncb ∧ t.ncb ≤ 256) &&
  decide (1 ≤ t.kw ∧ t.kw ≤ 11 ∧ 1 ≤ t.kh ∧ t.kh ≤ 11) && decide (1 ≤ t.sx ∧ t.sx ≤ 8 ∧ 1 ≤ t.sy ∧ t.sy ≤ 8) &&
  decide (1 ≤ t.dx ∧ t.dx ≤ 8 ∧ 1 ≤ t.dy ∧ t.dy ≤ 8) && decide (t.kx0 + t.kw ≤ t.fkw ∧ t.ky0 + t.kh ≤ t.fkh) &&
  decide (1 ≤ t.ow ∧ 1 ≤ t.oh)

/-- The mirror position of R274. -/
def mirrorPos (x w : Int) : Int := if w = 1 then 0 else let p := 2 * (w - 1); let m := x % p; if m < w then m else p - m

/-- What column `c` of a tap step reads (R273, R274): nothing (masked), the padding value, or an input position. -/
inductive TapAt where
  | zero
  | pad
  | pos (x y : Int)
deriving DecidableEq, Repr

/-- The channel groups per window tap: NG of R276. -/
def Tap.ng (t : Tap) (ks : Nat) : Nat := t.ncb * t.cbw / ks

/-- The tap steps of a descriptor (R276). -/
def Tap.steps (t : Tap) (ks : Nat) : Nat := t.kw * t.kh * t.ng ks

/-- What column `c` reads in tap step `st` at origin (ox, oy) (R273, R274, R276). -/
def Tap.at (t : Tap) (ks st : Nat) (ox oy : Int) (c : Nat) : TapAt :=
  let px := ox + c
  if px < 0 ∨ t.ow ≤ px ∨ oy < 0 ∨ t.oh ≤ oy then .zero
  else
    let tap := st / t.ng ks
    let x := px * t.sx - t.padW + ((t.kx0 + tap % t.kw : Nat) : Int) * t.dx
    let y := oy * t.sy - t.padN + ((t.ky0 + tap / t.kw : Nat) : Int) * t.dy
    if 0 ≤ x ∧ x < t.iw ∧ 0 ≤ y ∧ y < t.ih then .pos x y
    else match t.pad with
      | 0 => .pos (clampI 0 (t.iw - 1) x) (clampI 0 (t.ih - 1) y)
      | 1 => .pad
      | _ => .pos (mirrorPos x t.iw) (mirrorPos y t.ih)

/-- The face-store offset of channel `ch` at stored position (x, y) (R270). -/
def Tap.offset (t : Tap) (ch : Nat) (x y : Int) : Int :=
  let r := if t.ring = 0 then y - t.y0 else (y - t.y0) % t.ring
  t.base + r * t.rstride + ((ch / t.cbw * t.cbstride : Nat) : Int) + (x - t.x0) * t.cbw + ((ch % t.cbw : Nat) : Int)

/-- The first check that a tap step fails at its issue: 0x7002 TAP_RANGE, 0x3003 STORE_RANGE, 0 for none (R275, R276). -/
def Tap.check (t : Tap) (ks st : Nat) (ox oy : Int) : Nat :=
  if t.steps ks ≤ st then 0x7002
  else (List.range 16).foldl (fun r c =>
    if r ≠ 0 then r
    else match t.at ks st ox oy c with
      | .pos x y =>
        if x < t.x0 ∨ y < t.y0 then 0x7002
        else if 0x40000 < t.offset (st % t.ng ks * ks) x y + ks then 0x3003 else 0
      | _ => 0) 0

/-- The offsets of the 64-byte words that hold the bytes of a tap step: those of its group, since the bytes of a pixel in a channel block
lie in one word (R277). -/
def Tap.wordsAt (t : Tap) (ks st : Nat) (ox oy : Int) : List Nat :=
  ((List.range 16).filterMap fun c => match t.at ks st ox oy c with
    | .pos x y => some ((t.offset (st % t.ng ks * ks) x y).toNat / 64 * 64)
    | _ => none).eraseDups

/-- The face-store words that a tap step fetches (R277, R278). -/
def Tap.spans (t : Tap) (ks st : Nat) (ox oy : Int) : List Span := (t.wordsAt ks st ox oy).map fun (o : Nat) => ⟨(o : Int), 64⟩

/-- The words held for a tap step: a word already held is not read again (R277). -/
def tapFetch (s : State) (f : Nat) (held : NMap (List Byte)) (words : List Nat) : NMap (List Byte) :=
  words.foldl (fun m o => NMap.put m o ((NMap.find held o).getD (s.fsBytes f o 64))) []

/-- The words held at each of a run of tap steps, in order. -/
def tapScan (s : State) (f : Nat) : List (List Nat) → NMap (List Byte) → List (NMap (List Byte))
  | [], _ => []
  | ws :: r, held => let m := tapFetch s f held ws; m :: tapScan s f r m

/-- The words that each of a run of tap steps must read: those it does not find held. -/
def tapMissing : List (List Nat) → List Nat → List Nat
  | [], _ => []
  | ws :: r, held => (ws.filter fun o => !held.contains o).length :: tapMissing r ws

/-- B[k][c] of a tap step from the words held (R276). -/
def tapB (held : NMap (List Byte)) (t : Tap) (ks st : Nat) (ox oy : Int) (k c : Nat) : Int :=
  match t.at ks st ox oy c with
  | .zero => 0
  | .pad => t.padValue
  | .pos x y => let o := (t.offset (st % t.ng ks * ks + k) x y).toNat; sext 8 (leAt (NMap.get [] held (o / 64 * 64)) (o % 64) 1)

/-! ### Matrix words -/

/-- The data that a tap word takes at issue: the slot's 64 descriptor bytes, its origin (R226), and whether its held words have been
dropped (R277). -/
def tapData (x : FaceSt) (slot : Nat) : Option (List Byte) :=
  let t := nth {} x.taps slot
  t.desc.map fun d => d ++ leBytes 2 t.ox ++ leBytes 2 t.oy ++ leBytes 1 (b2n t.fresh)

/-- Origin x in the data of a tap word. -/
def tapOx (d : List Byte) : Int := sext 16 (leAt d 64 2)
/-- Origin y in the data of a tap word. -/
def tapOy (d : List Byte) : Int := sext 16 (leAt d 66 2)

/-- Steps or pairs of a matrix word (R215). -/
def mmaCount (w : Nat) : Nat := fld w 31 26 + 1

/-- Offset of the A operand of step `i` (R216). -/
def mmaA (xs : List Nat) (w i : Nat) : Int := (fsEff xs w 32 : Int) + 64 * i * step12 w 74
/-- Offset of the B operand of step `i` (R216). -/
def mmaB (xs : List Nat) (w i : Nat) : Int := (fsEff xs w 53 : Int) + 64 * i * step12 w 86
/-- Offset of the bank-1 A operand of pair `i` (R216). -/
def mmaA1 (xs : List Nat) (w i : Nat) : Int := mmaA xs w i + 64 * step12 w 98

/-- The B operand of the word comes from the tap generator. -/
def isTapMma (w : Nat) : Bool := wOp w == 0x82 || wOp w == 0x83
/-- The word fetches by the tap generator: a TAP.MMA, or a QM.ESC with TAP 1 (R222, R277). -/
def usesTap (w : Nat) : Bool := isTapMma w || (wOp w == 0x62 && bit w 119)
/-- The tap slot of a word that fetches by the tap generator. -/
def tapSlotOf (w : Nat) : Nat := if wOp w == 0x62 then fld w 120 120 else fld w 53 53
/-- The first tap step of such a word. -/
def tapStart (w : Nat) : Nat := if wOp w == 0x62 then fld w 68 53 else fld w 69 54
/-- The word is a paired G4 operation. -/
def isPaired (w : Nat) : Bool := wOp w == 0x22 || wOp w == 0x83
/-- KS of the word: 4 in I8 mode, 8 in G4 mode (R113, R276). -/
def mmaKs (w : Nat) : Nat := if wOp w == 0x20 || wOp w == 0x82 then 4 else 8

/-- The spans that a matrix word reads (R113, R216); those of a tap word come from its descriptor. -/
def mmaSpans (xs : List Nat) (w : Nat) (d : List Byte) : List Span :=
  (List.range (mmaCount w)).flatMap fun i =>
    ⟨mmaA xs w i, 64⟩ :: (if isPaired w then [⟨mmaA1 xs w i, 64⟩] else []) ++
    (if isTapMma w then (Tap.of d).spans (mmaKs w) (fld w 69 54 + i) (tapOx d) (tapOy d) else [⟨mmaB xs w i, 16 * mmaKs w⟩])

/-- The fault that a matrix word raises at issue, 0 for none (R126, R216, R275, R276). -/
def mmaCheck (xs : List Nat) (w : Nat) (d : List Byte) : Nat :=
  let bad := (List.range (mmaCount w)).any fun i =>
    let ok (a : Int) (n : Nat) : Bool := (⟨a, n⟩ : Span).inStore && (⟨a, n⟩ : Span).aligned 64
    !(ok (mmaA xs w i) 64 && (!isPaired w || ok (mmaA1 xs w i) 64) && (isTapMma w || ok (mmaB xs w i) (16 * mmaKs w)))
  if bad then 0x3003
  else if isTapMma w then (List.range (mmaCount w)).foldl (fun r i =>
    if r ≠ 0 then r else (Tap.of d).check (mmaKs w) (fld w 69 54 + i) (tapOx d) (tapOy d)) 0
  else 0

/-- A[r][k] of an operand block at an offset, in the mode of a word (R112, R113). -/
def operandA (s : State) (f w : Nat) (o : Int) (r k : Nat) : Int :=
  if mmaKs w = 4 then s.fsI8 f (o.toNat + 4 * r + k)
  else s.gridValue f (fld (s.fsB f (o.toNat + 4 * r + k / 2)).toNat (4 * (k % 2) + 3) (4 * (k % 2)))

/-- The words of each tap step of a word (R277). -/
def tapWords (w : Nat) (d : List Byte) : List (List Nat) :=
  (List.range (mmaCount w)).map fun i => (Tap.of d).wordsAt (mmaKs w) (tapStart w + i) (tapOx d) (tapOy d)

/-- The words that the slot of a tap word holds as it begins: none when something has dropped them, or when the word itself waits on a
flag (R277, R278; log entry 49). -/
def tapHeld (s : State) (f w : Nat) (d : List Byte) : NMap (List Byte) :=
  if leAt d 68 1 = 1 ∨ wW w then [] else (nth {} (s.face f).taps (tapSlotOf w)).held

/-- The words held at each step of a word that fetches by the tap generator; none for another word (R277). -/
def tapHolds (s : State) (f w : Nat) (d : List Byte) : List (NMap (List Byte)) :=
  if usesTap w then tapScan s f (tapWords w d) (tapHeld s f w d) else []

/-- The slot keeps the words of the last group fetched (R277). -/
def keepHeld (f w : Nat) (hs : List (NMap (List Byte))) (s : State) : State :=
  match hs.getLast? with
  | some m => s.modFace f fun x => { x with taps := setNth x.taps (tapSlotOf w) { nth {} x.taps (tapSlotOf w) with held := m } }
  | none => s

/-- TAP_FETCH_STALL of a TAP.MMA: for the steps taken from each group, the words read beyond the cycles of the steps (R277). -/
def tapStall (s : State) (f w : Nat) (d : List Byte) : Nat :=
  if !isTapMma w then 0
  else
    let per := (Tap.of d).cbw / mmaKs w
    let ms := (List.range (mmaCount w)).zip (tapMissing (tapWords w d) ((tapHeld s f w d).map (·.1)))
    let gs := ms.map fun e => ((tapStart w + e.1) / per, e.2)
    ((gs.map (·.1)).eraseDups.map fun g =>
      let m := gs.filter fun e => e.1 == g
      (m.map (·.2)).sum - m.length * (if isPaired w then 2 else 1)).sum

/-- B[k][c] of step `i` of a word (R113, R226), the tap generator's from the words it holds. -/
def operandB (s : State) (f w : Nat) (xs : List Nat) (d : List Byte) (hs : List (NMap (List Byte))) (i k c : Nat) : Int :=
  if isTapMma w then tapB (nth [] hs i) (Tap.of d) (mmaKs w) (tapStart w + i) (tapOx d) (tapOy d) k c
  else s.fsI8 f ((mmaB xs w i).toNat + 16 * k + c)

/-- The accumulators after a matrix word (R114, R118, R216). -/
def mmaAcc (s : State) (f w : Nat) (xs : List Nat) (d : List Byte) (acc : NMap Int) : AccRun :=
  let x : AccRun := ⟨acc, 0⟩
  let x0 := if bit w 24 then x.clear (wordBanks w) else x
  let hs := tapHolds s f w d
  (List.range (mmaCount w)).foldl (fun y i =>
    let b := operandB s f w xs d hs i
    if isPaired w then
      (y.step 0 8 (operandA s f w (mmaA xs w i)) b).step 1 8 (operandA s f w (mmaA1 xs w i)) b
    else y.step (fld w 25 25) (mmaKs w) (operandA s f w (mmaA xs w i)) b) x0

/-- A matrix word's steps are added into its banks (R114); the tap generator keeps the last group's words (R277). -/
def runMma (f w : Nat) (xs : List Nat) (d : List Byte) (s : State) : State :=
  keepHeld f w (tapHolds s f w d) ((putAcc f (mmaAcc s f w xs d (s.face f).acc) s).tallyN (s.facePg f) 0x2F (tapStall s f w d))

/-! ### Drain -/

/-- Bytes per element of a drain format (R120, R215). -/
def drainWidth (w : Nat) : Nat := match fld w 27 26 with
  | 0 | 1 => 1
  | 2 => 2
  | _ => 4

/-- The spans that a drain reads and writes (R119, R217). -/
def drainReads (xs : List Nat) (w : Nat) : List Span := if fld w 27 26 = 3 then [] else [⟨(fsEff xs w 49 : Int), 128⟩]
/-- The span that a drain writes (R217). -/
def drainWrites (xs : List Nat) (w : Nat) : List Span := [⟨(fsEff xs w 28 : Int), 256 * drainWidth w⟩]

/-- x / 2^n rounded to the nearest integer, ties away from zero (R120). -/
def roundShift (x : Int) (n : Nat) : Int :=
  let a : Int := ((x.natAbs * 2 + 2 ^ n) / 2 ^ (n + 1) : Nat)
  if x < 0 then -a else a

/-- The range of an output format: 0 I8, 1 U8, 2 I16 (R120). -/
def clampFmt (fmt : Nat) (x : Int) : Int := match fmt with
  | 0 => clampI (-127) 127 x
  | 1 => clampI 0 255 x
  | _ => clampI (-32767) 32767 x

/-- M, SH and ZP of row `r` of a scale vector (R119). -/
def scaleEntry (bs : List Byte) (r : Nat) : Int × Nat × Int :=
  (sext 32 (leAt bs (8 * r) 4), leAt bs (8 * r + 4) 1, sext 16 (leAt bs (8 * r + 6) 2))

/-- A SH of the vector exceeds 62 (R121). -/
def scaleBad (bs : List Byte) : Bool := (List.range 16).any fun r => decide (62 < (scaleEntry bs r).2.1)

/-- The output value of element `a` of a row (R120). -/
def drainValue (fmt : Nat) (e : Int × Nat × Int) (a : Int) : Int := clampFmt fmt (roundShift (a * e.1) e.2.1 + e.2.2)

/-- The bytes that a drain writes (R120). -/
def drainBytes (fmt bank : Nat) (scale : List Byte) (acc : NMap Int) : List Byte :=
  (List.range 256).flatMap fun k =>
    let a := NMap.get 0 acc (256 * bank + k)
    if fmt = 3 then leBytes 4 (toField 32 a)
    else let w := if fmt = 2 then 2 else 1; leBytes w (toField (8 * w) (drainValue fmt (scaleEntry scale (k / 16)) a))

/-- The drain's scale vector holds a SH above 62 (R121). -/
def drainInvalid (s : State) (f w : Nat) (xs : List Nat) : Bool :=
  fld w 27 26 != 3 && scaleBad (s.fsBytes f (fsEff xs w 49) 128)

/-- A drain writes its bank (R120). -/
def runDrain (f w : Nat) (xs : List Nat) (s : State) : State :=
  s.stFs f (fsEff xs w 28) (drainBytes (fld w 27 26) (fld w 24 24) (s.fsBytes f (fsEff xs w 49) 128) (s.face f).acc)

/-! ### Escape merge -/

/-- Offset of the side record of block `p` (0 or 1) of operand `i` (R222). -/
def escSide (xs : List Nat) (w i p : Nat) : Int := (fsEff xs w 32 : Int) + 16 * i * step12 w 86 + 16 * p
/-- Offset of the B rows of operand `i` (R222). -/
def escB (xs : List Nat) (w i : Nat) : Int := (fsEff xs w 53 : Int) + 64 * i * step12 w 74

/-- The smallest span over spans of one length at given offsets. -/
def hullSpan (os : List Int) (n : Nat) : List Span := match os with
  | [] => []
  | o :: r =>
    let lo := r.foldl min o
    let hi := r.foldl max o
    [⟨lo, (hi - lo).toNat + n⟩]

/-- The spans that QM.ESC declares as read (R222). -/
def escSpans (xs : List Nat) (w : Nat) : List Span :=
  let is := List.range (mmaCount w)
  let fb : Int := fsEff xs w 98
  hullSpan (is.map fun i => escSide xs w i 0) 32 ++
  (if bit w 119 then [] else hullSpan (is.map fun i => escB xs w i) 128) ++
  (if fb < 0x40000 then [⟨fb, (min 0x40000 (fb + 64 * 255) - fb).toNat⟩] else [])

/-- The fault that QM.ESC raises at issue, 0 for none (R202, R222, R275). -/
def escCheck (xs : List Nat) (w : Nat) (d : List Byte) : Nat :=
  let ok (a : Int) (n al : Nat) : Bool := (⟨a, n⟩ : Span).inStore && (⟨a, n⟩ : Span).aligned al
  let is := List.range (mmaCount w)
  if fsEff xs w 98 % 64 ≠ 0 ∨ 0x40000 ≤ fsEff xs w 98 ∨ is.any (fun i => !ok (escSide xs w i 0) 32 16) ∨
      (!bit w 119 ∧ is.any fun i => !ok (escB xs w i) 128 64) then 0x3003
  else if bit w 119 then is.foldl (fun r i => if r ≠ 0 then r else (Tap.of d).check 8 (fld w 68 53 + i) (tapOx d) (tapOy d)) 0
  else 0

/-- One entry to merge: operand, row and column of A, value. -/
structure EscEntry where
  op : Nat
  r : Nat
  k : Nat
  v : Int
deriving DecidableEq, Repr

/-- A side record is valid (R222). -/
def sideOk (bs : List Byte) : Bool :=
  let b0 := leAt bs 0 1
  let n := b0 % 8
  decide (n ≤ 4) && fld b0 7 6 == 0 && leAt bs 2 2 == 0 && !(bit b0 3 && leAt bs 1 1 == 255) &&
  (List.range n).all fun j => decide (leAt bs (4 + 3 * j) 1 ≤ 63)

/-- The row and column of A that position `e` of block `p` of an operand names (R164). -/
def escPos (p e : Nat) : Nat × Nat := (8 * p + e / 8, e % 8)

/-- The entries of one block, from its valid side record; a fallback block gives its 64 slot values (R163, R181). -/
def blockEntries (s : State) (f w : Nat) (xs : List Nat) (i p : Nat) (bs : List Byte) : List EscEntry :=
  if bit (leAt bs 0 1) 3 then
    (List.range 64).map fun e => ⟨i, (escPos p e).1, (escPos p e).2, s.fsI8 f (fsEff xs w 98 + 64 * leAt bs 1 1 + e)⟩
  else (List.range (leAt bs 0 1 % 8)).map fun j =>
    let e := leAt bs (4 + 3 * j) 1
    ⟨i, (escPos p e).1, (escPos p e).2, sext 16 (leAt bs (5 + 3 * j) 2)⟩

/-- The entries of all blocks in order, up to the first block that fails: its fault, 0 for none (R222). -/
def escEntries (s : State) (f w : Nat) (xs : List Nat) : List EscEntry × Nat :=
  (List.range (2 * mmaCount w)).foldl (fun a b =>
    if a.2 ≠ 0 then a
    else
      let bs := s.fsBytes f (escSide xs w (b / 2) (b % 2)).toNat 16
      if !sideOk bs then (a.1, 0x4003)
      else if bit (leAt bs 0 1) 3 ∧ 0x40000 < fsEff xs w 98 + 64 * leAt bs 1 1 + 64 then (a.1, 0x3003)
      else (a.1 ++ blockEntries s f w xs (b / 2) (b % 2) bs, 0)) ([], 0)

/-- The activation that an entry meets in column `c` (R122, R222). -/
def escAct (s : State) (f w : Nat) (xs : List Nat) (d : List Byte) (hs : List (NMap (List Byte))) (e : EscEntry) (c : Nat) : Int :=
  if bit w 119 then tapB (nth [] hs e.op) (Tap.of d) 8 (tapStart w + e.op) (tapOx d) (tapOy d) e.k c
  else s.fsI8 f ((escB xs w e.op).toNat + 16 * e.k + c)

/-- One group of entries merged: the products that meet in one element are summed exactly and added as one (R123). -/
def escGroup (s : State) (f w : Nat) (xs : List Nat) (d : List Byte) (hs : List (NMap (List Byte))) (g : List EscEntry) (x : AccRun) : AccRun :=
  (List.range 16).foldl (fun y r =>
    let es := g.filter fun e => e.r == r
    if es = [] then y
    else (List.range 16).foldl (fun z c =>
      z.add (accKey (fld w 24 24) r c) ((es.map fun e => e.v * escAct s f w xs d hs e c).foldl (· + ·) 0)) y) x

/-- Groups `from` up to `to` of the entries merged (R192). -/
def escMerge (s : State) (f w : Nat) (xs : List Nat) (d : List Byte) (es : List EscEntry) (lo hi : Nat) (x : AccRun) : AccRun :=
  let hs := tapHolds s f w d
  (List.range (hi - lo)).foldl (fun y j => escGroup s f w xs d hs (sliceL es (4 * (lo + j)) 4) y) x

/-- QM.ESC merges groups `lo` up to `hi` (all that remain when `hi` is none) of its entries into the bank; each merged
entry counts (R123), and each fetch cycle of the tap generator beyond its own (R222). The second result is the fault of an invalid block, 0 for none. -/
def runEsc (f w : Nat) (xs : List Nat) (d : List Byte) (lo : Nat) (hi : Option Nat) (s : State) : State × Nat :=
  let e := escEntries s f w xs
  let n := ceilDiv e.1.length 4
  let h := match hi with
    | some k => min k n
    | none => n
  let x := escMerge s f w xs d e.1 lo h ⟨(s.face f).acc, 0⟩
  let m := min (4 * h) e.1.length - min (4 * lo) e.1.length
  let pg := s.facePg f
  let stall := if hi.isSome || !usesTap w then 0 else (tapMissing (tapWords w d) ((tapHeld s f w d).map (·.1))).sum - n
  (keepHeld f w (tapHolds s f w d) ((((putAcc f x s).incSat pg 0x118 m).tallyN pg 0x2B m).tallyN pg 0x2F stall), e.2)

end Sys2Proof.Machine
end

