-- ==== Sys2Proof/Machine/Softfloat.lean ====
section
/-! DEFINITION. IEEE 754 binary32 and BF16 on bit patterns (R132): exact values, one rounding to nearest with ties to
even, canonical NaNs, and the four functions that the manual calls correctly rounded. -/
namespace Sys2Proof.Machine

/-- What a binary32 pattern stands for: a finite value is ±m × 2^e. -/
inductive Fl where
  | nan
  | inf (neg : Bool)
  | fin (neg : Bool) (m : Nat) (e : Int)
deriving DecidableEq, Repr

/-- The value of a binary32 pattern, subnormals kept. -/
def Fl.ofBits (v : Nat) : Fl :=
  let s := bit v 31
  let e := fld v 30 23
  let m := fld v 22 0
  if e = 255 then (if m = 0 then .inf s else .nan)
  else if e = 0 then .fin s m (-149) else .fin s (m + 2 ^ 23) ((e : Int) - 150)

/-- The canonical NaN (R132). -/
def f32NaN : Nat := 0x7FC00000
/-- Infinity of a sign. -/
def f32Inf (neg : Bool) : Nat := (if neg then 2 ^ 31 else 0) + 0x7F800000
/-- Zero of a sign. -/
def f32Zero (neg : Bool) : Nat := if neg then 2 ^ 31 else 0

/-- floor(log2(n / d)) for positive n and d. -/
def flog2 (n d : Nat) : Int :=
  let l : Int := (Nat.log2 n : Int) - Nat.log2 d
  if n * 2 ^ (-l).toNat < d * 2 ^ l.toNat then l - 1 else l

/-- ±(n / d) × 2^e rounded to binary32, nearest with ties to even; d is positive. -/
def f32Round (neg : Bool) (n d : Nat) (e : Int) : Nat :=
  if n = 0 then f32Zero neg
  else
    let k := flog2 n d + e
    let ex := max (k - 23) (-149)
    let sh := e - ex
    let m := (rneDiv (n * 2 ^ sh.toNat : Nat) (d * 2 ^ (-sh).toNat)).toNat
    let b := if m < 2 ^ 23 then m else (ex + 150).toNat * 2 ^ 23 + (m - 2 ^ 23)
    (if neg then 2 ^ 31 else 0) + min b 0x7F800000

/-- A value as a binary32 pattern. -/
def Fl.bits : Fl → Nat
  | .nan => f32NaN
  | .inf s => f32Inf s
  | .fin s m e => f32Round s m 1 e

/-- The signed mantissa of a finite value at a lower exponent. -/
def mantAt (neg : Bool) (m : Nat) (e lo : Int) : Int := (if neg then -1 else 1) * (m * 2 ^ (e - lo).toNat : Nat)

/-- The exact sum of two finite values, as a finite value; an exact zero of mixed signs is +0. -/
def finAdd (s1 : Bool) (m1 : Nat) (e1 : Int) (s2 : Bool) (m2 : Nat) (e2 : Int) : Fl :=
  let lo := min e1 e2
  let x := mantAt s1 m1 e1 lo + mantAt s2 m2 e2 lo
  if x = 0 then .fin (s1 && s2) 0 lo else .fin (decide (x < 0)) x.natAbs lo

/-- The exact sum. -/
def Fl.add : Fl → Fl → Fl
  | .nan, _ => .nan
  | _, .nan => .nan
  | .inf s, .inf t => if s = t then .inf s else .nan
  | .inf s, _ => .inf s
  | _, .inf t => .inf t
  | .fin s1 m1 e1, .fin s2 m2 e2 => finAdd s1 m1 e1 s2 m2 e2

/-- The negative. -/
def Fl.neg : Fl → Fl
  | .nan => .nan
  | .inf s => .inf (!s)
  | .fin s m e => .fin (!s) m e

/-- The exact product. -/
def Fl.mul : Fl → Fl → Fl
  | .nan, _ => .nan
  | _, .nan => .nan
  | .inf s, .inf t => .inf (s != t)
  | .inf s, .fin t m _ => if m = 0 then .nan else .inf (s != t)
  | .fin s m _, .inf t => if m = 0 then .nan else .inf (s != t)
  | .fin s1 m1 e1, .fin s2 m2 e2 => .fin (s1 != s2) (m1 * m2) (e1 + e2)

/-- Sum in binary32. -/
def f32Add (a b : Nat) : Nat := ((Fl.ofBits a).add (Fl.ofBits b)).bits
/-- Difference in binary32. -/
def f32Sub (a b : Nat) : Nat := ((Fl.ofBits a).add (Fl.ofBits b).neg).bits
/-- Product in binary32. -/
def f32Mul (a b : Nat) : Nat := ((Fl.ofBits a).mul (Fl.ofBits b)).bits
/-- a × b + c, rounded once (R132, MAD). -/
def f32Fma (a b c : Nat) : Nat := (((Fl.ofBits a).mul (Fl.ofBits b)).add (Fl.ofBits c)).bits

/-- Quotient in binary32. -/
def f32Div (a b : Nat) : Nat :=
  match Fl.ofBits a, Fl.ofBits b with
  | .nan, _ => f32NaN
  | _, .nan => f32NaN
  | .inf _, .inf _ => f32NaN
  | .inf s, .fin t _ _ => f32Inf (s != t)
  | .fin s _ _, .inf t => f32Zero (s != t)
  | .fin s m e, .fin t n f =>
    if n = 0 then (if m = 0 then f32NaN else f32Inf (s != t)) else f32Round (s != t) m n (e - f)

/-- a < b by IEEE 754; false with a NaN. -/
def f32Lt (a b : Nat) : Bool :=
  match Fl.ofBits a, Fl.ofBits b with
  | .nan, _ => false
  | _, .nan => false
  | .inf s, .inf t => s && !t
  | .inf s, _ => s
  | _, .inf t => !t
  | .fin s1 m1 e1, .fin s2 m2 e2 => let lo := min e1 e2; decide (mantAt s1 m1 e1 lo < mantAt s2 m2 e2 lo)

/-- a = b by IEEE 754; false with a NaN. -/
def f32Eq (a b : Nat) : Bool :=
  match Fl.ofBits a, Fl.ofBits b with
  | .nan, _ => false
  | _, .nan => false
  | .inf s, .inf t => s == t
  | .inf _, _ => false
  | _, .inf _ => false
  | .fin s1 m1 e1, .fin s2 m2 e2 => let lo := min e1 e2; decide (mantAt s1 m1 e1 lo = mantAt s2 m2 e2 lo)

/-- The pattern is a NaN. -/
def f32IsNaN (a : Nat) : Bool := Fl.ofBits a == .nan

/-- An integer in binary32. -/
def f32OfInt (x : Int) : Nat := f32Round (decide (x < 0)) x.natAbs 1 0

/-- An integer over 2^k in binary32, rounded to nearest even. -/
def f32OfFix (x : Int) (k : Nat) : Nat := f32Round (decide (x < 0)) x.natAbs 1 (-(k : Int))

/-- A finite value rounded to the nearest integer, ties away from zero. -/
def finRoundAway (neg : Bool) (m : Nat) (e : Int) : Int :=
  let a : Nat := if 0 ≤ e then m * 2 ^ e.toNat else (m * 2 + 2 ^ (-e).toNat) / 2 ^ ((-e).toNat + 1)
  if neg then -(a : Int) else a

/-- A finite value rounded down. -/
def finFloor (neg : Bool) (m : Nat) (e : Int) : Int :=
  if 0 ≤ e then (if neg then -1 else 1) * (m * 2 ^ e.toNat : Nat)
  else (if neg then -(m : Int) else m) / (2 ^ (-e).toNat : Nat)

/-- To a 32-bit integer, nearest with ties away from zero, saturated; a NaN gives 0 (F2I of R138). -/
def f32ToInt (a : Nat) : Int :=
  match Fl.ofBits a with
  | .nan => 0
  | .inf s => if s then -(2 ^ 31) else 2 ^ 31 - 1
  | .fin s m e => clampI (-(2 ^ 31)) (2 ^ 31 - 1) (finRoundAway s m e)

/-- BF16 of a binary32 pattern, nearest with ties to even; a NaN is 0x7FC0 (R132). -/
def bf16Of (a : Nat) : Nat :=
  match Fl.ofBits a with
  | .nan => 0x7FC0
  | _ => let r := (rneDiv (a % 2 ^ 31 : Nat) 65536).toNat; (if bit a 31 then 0x8000 else 0) + min r 0x7F80

/-- A BF16 pattern widened to binary32. -/
def bf16Widen (a : Nat) : Nat := (a % 65536) * 65536

/-- 1 / a, correctly rounded. -/
def f32Rcp (a : Nat) : Nat := f32Div 0x3F800000 a

/-- 1 / sqrt(a), correctly rounded: the square root of 2^(2p) / m by integers, with a sticky bit when it is not exact. -/
def f32Rsq (a : Nat) : Nat :=
  match Fl.ofBits a with
  | .nan => f32NaN
  | .inf s => if s then f32NaN else 0
  | .fin s m e =>
    if m = 0 then f32Inf s
    else if s then f32NaN
    else
      let m2 := if e % 2 = 0 then m else 2 * m
      let e2 := if e % 2 = 0 then e else e - 1
      let q := isqrt 64 (2 ^ 128 / m2)
      let n := if q * q * m2 = 2 ^ 128 then 2 * q else 2 * q + 1
      f32Round false n 1 (-(e2 / 2) - 65)

/-- ln 2 in units of 2^-160. -/
def ln2Fix : Nat := 0xb17217f7d1cf79abc9e3b39803f2f6af40f34326

/-- The sum of y^k / k! from the term `t` on, in units of 2^-160. -/
def expSeries : Nat → Nat → Nat → Nat → Nat
  | 0, _, _, _ => 0
  | n + 1, k, y, t => t + expSeries n (k + 1) y (t * y / 2 ^ 160 / (k + 1))

/-- 2^a, correctly rounded: 160 fraction bits of exp(f ln 2) settle every binary32 rounding. -/
def f32Exp2 (a : Nat) : Nat :=
  match Fl.ofBits a with
  | .nan => f32NaN
  | .inf s => if s then 0 else f32Inf false
  | .fin s m e =>
    let i := finFloor s m e
    if 128 ≤ i then f32Inf false
    else if i < -151 then 0
    else
      let x160 := if 0 ≤ e + 160 then mantAt s m (e + 160) 0 else mantAt s m 0 0 / (2 ^ (-(e + 160)).toNat : Nat)
      let f := (x160 - i * (2 ^ 160 : Nat)).toNat
      if f = 0 ∧ 0 ≤ e + 160 then f32Round false 1 1 i
      else f32Round false (expSeries 48 0 (f * ln2Fix / 2 ^ 160) (2 ^ 160)) 1 (i - 160)

/-- The sum of t^(2k+1) / (2k+1), from k on, in units of 2^-160. -/
def atanhSeries : Nat → Nat → Nat → Nat → Nat
  | 0, _, _, _ => 0
  | n + 1, k, t2, t => t / (2 * k + 1) + atanhSeries n (k + 1) t2 (t * t2 / 2 ^ 160)

/-- log2(a), correctly rounded, for positive a; of zero and of negative numbers the manual states no result (log entry
8). -/
def f32Log2 (a : Nat) : Nat :=
  match Fl.ofBits a with
  | .nan => f32NaN
  | .inf s => if s then (Config.log2Open (BitVec.ofNat 32 a)).toNat else f32Inf false
  | .fin s m e =>
    if s ∨ m = 0 then (Config.log2Open (BitVec.ofNat 32 a)).toNat
    else
      let l := Nat.log2 m
      let t := (m - 2 ^ l) * 2 ^ 160 / (m + 2 ^ l)
      let x : Int := ((e + l) * (2 ^ 160 : Nat)) + (2 * atanhSeries 60 0 (t * t / 2 ^ 160) t * 2 ^ 160 / ln2Fix : Nat)
      f32Round (decide (x < 0)) x.natAbs 1 (-160)

/-- IEEE binary16 widened to binary32. -/
def f16Widen (h : Nat) : Nat :=
  let s := bit h 15
  let e := fld h 14 10
  let m := fld h 9 0
  if e = 31 then (if m = 0 then f32Inf s else f32NaN)
  else if e = 0 then f32Round s m 1 (-24) else f32Round s (m + 1024) 1 ((e : Int) - 25)

end Sys2Proof.Machine
end

