-- ==== Sys2Proof/Machine/Hoist.lean ====
section
/-! DEFINITION. The hoists (R250-R256): copy descriptors, their checks when a hoist takes them, copies within the device and
through crosscut ports (R564, R565, R574, R674), and GALLERY.ADDU (R230, R247). -/
namespace Sys2Proof.Machine

/-! ### Descriptors -/

/-- A copy descriptor (R251). -/
structure Copy where
  src : Nat
  dst : Nat
  kind : Nat
  srcFs : Bool
  dstFs : Bool
  inv7 : Bool
  zero : Bool
  width : Nat
  rows : Nat
  sstride : Int
  dstride : Int
  planes : Nat
  sp : Int
  dp : Int
  list : Nat
  keyRg : Nat
  keyN : Nat
  keyDigest : Nat

/-- The fields of the 256-bit value of a descriptor (R251). -/
def Copy.of (d : Nat) : Copy :=
  let halo := fld d 83 80 == 4
  { src := fld d 39 0, dst := fld d 79 40, kind := fld d 83 80, srcFs := bit d 84, dstFs := bit d 85, inv7 := bit d 86, zero := bit d 87,
    width := fld d 107 88, rows := fld d 123 108 + 1,
    sstride := if halo then sext 24 (fld d 151 128) else sext 32 (fld d 159 128),
    dstride := if halo then sext 24 (fld d 183 160) else sext 32 (fld d 191 160),
    planes := if fld d 83 80 == 2 then fld d 203 192 + 1 else 1, sp := 64 * sext 24 (fld d 227 204), dp := 64 * sext 24 (fld d 251 228),
    list := fld d 145 128, keyRg := fld d 159 152, keyN := fld d 223 192, keyDigest := fld d 255 224 }

/-- Every field of a descriptor is listed, for a hoist word's opcode (R223, R250, R251, R254). -/
def copyFieldsOk (op d : Nat) : Bool :=
  let k := fld d 83 80
  k == op - 0x6F && fld d 127 124 == 0 && fld d 107 88 != 0 && (!bit d 87 || (fld d 39 0 == 0 && !bit d 84)) &&
  (if k = 4 then fld d 191 184 == 0
   else fld d 255 252 == 0 && (k == 2 || fld d 251 192 == 0) && (k != 3 || (fld d 159 146 == 0 && fld d 145 128 % 4 == 0)))

/-- Source and destination of every row, in order (R252). -/
def copyRows (c : Copy) (idx : List Byte) : List (Int × Int) :=
  (List.range c.planes).flatMap fun (p : Nat) => (List.range c.rows).map fun (r : Nat) =>
    ((c.src : Int) + (if c.kind = 3 then sext 32 (leAt idx (4 * r) 4) else (r : Int) * c.sstride + (if c.kind = 2 then (p : Int) * c.sp else 0)),
     (c.dst : Int) + (r : Int) * c.dstride + (if c.kind = 2 then (p : Int) * c.dp else 0))

/-- The device address of an end of a row: an offset in the face's own store, or an address (R251). -/
def endAddr (f : Nat) (fs : Bool) (a : Int) : Nat := if fs then fsAddr f a.toNat else a.toNat

/-- The end of a row lies where its form can reach: the face store for an offset, a device address otherwise. -/
def endReach (fs : Bool) (a : Int) (n : Nat) : Bool := decide (0 ≤ a) && (if fs then decide (a + n ≤ 0x40000) else decide (a + n ≤ 2 ^ 40))

/-- The hoist serves an end that lies in memory (R250): a stope hoist the gallery of its drift and the face stores of its
stope, in its direction; a drift hoist DRAM, galleries and remote windows. -/
def pathServes (h : Nat) (isSrc : Bool) (r : Region) : Bool :=
  match r with
  | .control | .unassigned => true
  | .face f => decide (h < 64) && (isSrc != (h % 2 == 0)) && stopeOfFace f == h / 2
  | .gallery d => if h < 64 then (isSrc == (h % 2 == 0)) && d == h / 2 / 4 else true
  | _ => decide (64 ≤ h)

/-- A context may touch a range with a right: a face store of its own faces, or memory in its windows (R242, R325). -/
def State.touchOk (s : State) (hd right a n : Nat) : Bool :=
  match regionOf a with
  | .face f => (s.run hd).faces.contains f && decide (a % fsSize + n ≤ fsSize)
  | _ => rangeInMemory a n && s.winAllow (s.ctx hd) right a n

/-- The remote window that an address lies in. -/
def remotePort (a : Nat) : Option Nat := match regionOf a with
  | .remote p => some p
  | _ => none

/-- The hoist serves both ends of a range: a range that runs from one gallery into the next leaves it (R250). -/
def pathServesRange (h : Nat) (isSrc : Bool) (a n : Nat) : Bool :=
  pathServes h isSrc (regionOf a) && pathServes h isSrc (regionOf (a + n - 1))

/-- The check of a descriptor at take: HOIST_DESC 0x6002, HOIST_ADDR 0x6001, or 0 (R242, R250, R254). -/
def copyCheck (s : State) (h : Nat) (j : HoistJob) (idx : List Byte) : Nat :=
  let d := leNat j.desc
  let c := Copy.of d
  if !copyFieldsOk (wOp j.word) d then 0x6002
  else
    let rows := copyRows c idx
    let srcs := if c.zero then [] else rows.map (·.1)
    let dsts := rows.map (·.2)
    let served (isSrc fs : Bool) (a : Int) : Bool := !endReach fs a c.width || pathServesRange h isSrc (endAddr j.face fs a) c.width
    let ok (right : Nat) (fs : Bool) (a : Int) : Bool := endReach fs a c.width && s.touchOk j.handle right (endAddr j.face fs a) c.width
    if !(srcs.all (served true c.srcFs) && dsts.all (served false c.dstFs)) then 0x6002
    else if !(srcs.all (ok 1 c.srcFs) && dsts.all (ok 2 c.dstFs)) then 0x6001
    else 0

/-- The ports that a copy touches (R674). -/
def copyPorts (j : HoistJob) (idx : List Byte) : List Nat :=
  let c := Copy.of (leNat j.desc)
  let rows := copyRows c idx
  ((if c.zero then [] else rows.filterMap fun r => remotePort (endAddr j.face c.srcFs r.1)) ++
    rows.filterMap fun r => remotePort (endAddr j.face c.dstFs r.2)).eraseDups

/-! ### Queues -/

/-- The queue of a hoist. -/
def State.hoist (s : State) (h : Nat) : List HoistJob := NMap.get [] s.hoists h

/-- The state with the queue of a hoist replaced. -/
def State.setHoist (s : State) (h : Nat) (q : List HoistJob) : State := { s with hoists := NMap.put s.hoists h q }

/-- The state with one job of a hoist changed. -/
def State.modJob (s : State) (h id : Nat) (g : HoistJob → HoistJob) : State :=
  s.setHoist h ((s.hoist h).map fun j => if j.id = id then g j else j)

/-- The state without a job of a hoist. -/
def State.dropJob (s : State) (h id : Nat) : State := s.setHoist h ((s.hoist h).filter fun j => j.id != id)

/-- The hoist that a hoist word's descriptor goes to (R223). -/
def jobHoist (f w d : Nat) : Nat :=
  match fld w 47 46 with
  | 0 =>
    let c := Copy.of d
    let inward := c.dstFs || (match regionOf c.dst with
      | .face _ => true
      | _ => false)
    2 * stopeOfFace f + (if inward then 0 else 1)
  | e => 64 + 2 * driftOfFace f + (e - 1)

/-- The stope hoist over which a GALLERY.ADDU travels (R230). -/
def adduHoist (f : Nat) : Nat := 2 * stopeOfFace f + 1

/-- The face finds its issued word of a copy complete (R237). -/
def copyDone (j : HoistJob) (s : State) : State :=
  if s.faceOwner j.face = some j.handle then
    s.modFace j.face fun x =>
      { x with issued := (x.issued.map fun o => if isCopyOp (wOp o.word) && o.progress == j.id then { o with done := true } else o).dropWhile (·.done) }
  else s

/-- The done flag of a copy or of a GALLERY.ADDU is set (R224, R230); a local flag only while the context holds the face. -/
def jobFlag (en : Nat) (r : FlagRef) (j : HoistJob) (s : State) : State :=
  if bit j.word en && (r.space != 0 || s.faceOwner j.face == some j.handle) then s.setFlag j.face r true else s

/-! ### Moving bytes -/

/-- The master of the accesses of a hoist: its hoist group (R46). -/
def hoistSrc (h : Nat) : Nat := 0x18 + (if h < 64 then h / 8 else (h - 64) / 2) % 8

/-- The runs of a range of `n` bytes at `a` that lie outside 8-byte words in error, given in ascending order: address and bytes (R264). -/
def goodRuns : List Nat → Nat → Nat → List (Nat × Nat)
  | [], a, e => if a < e then [(a, e - a)] else []
  | w :: r, a, e => (if a < w then [(a, w - a)] else []) ++ goodRuns r (max a (w + 8)) e

/-- What moving bytes leaves: the state, the words in error met, and the bytes written. -/
structure Moved where
  st : State
  bad : List Nat := []
  bytes : Nat := 0

/-- The bytes of an 8-byte word that lie in a range. -/
def wordShare (a n w : Nat) : Nat := min (a + n) (w + 8) - max a w

/-- A run written: a word in error that it covers in part stays as it is (R266). -/
def Moved.put (m : Moved) (a : Nat) (bs : List Byte) : Moved :=
  let stuck := m.st.stuckWords a bs.length
  { st := m.st.stBytes a bs, bad := m.bad ++ stuck, bytes := m.bytes + (bs.length - (stuck.map (wordShare a bs.length)).sum) }

/-- The bytes of a row as the copy writes them (R251). -/
def rowData (s : State) (j : HoistJob) (c : Copy) (src : Int) : List Byte :=
  let x : Byte := if c.inv7 then 0x80 else 0
  if c.zero then List.replicate c.width x else (s.ldBytes (endAddr j.face c.srcFs src) c.width).map (· ^^^ x)

/-- The words in error of the source of a row. -/
def rowBad (s : State) (j : HoistJob) (c : Copy) (src : Int) : List Nat :=
  if c.zero then [] else s.badWords (endAddr j.face c.srcFs src) c.width

/-- What a row read now brings: the runs that do not depend on a word in error, each with its offset in the row (R264). -/
def rowRuns (s : State) (j : HoistJob) (c : Copy) (src : Int) : List (Nat × List Byte) :=
  let bad := rowBad s j c src
  let d := rowData s j c src
  if bad = [] then [(0, d)]
  else
    let a := endAddr j.face c.srcFs src
    (goodRuns bad a (a + c.width)).map fun r => (r.1 - a, sliceL d (r.1 - a) r.2)

/-- A row corrects the single-bit errors that its read meets (R262). -/
def rowCorrect (j : HoistJob) (c : Copy) (src : Int) (s : State) : State :=
  if c.zero then s else s.correct (endAddr j.face c.srcFs src) c.width

/-- Runs of a row written at its destination. -/
def putRuns (dst : Nat) (runs : List (Nat × List Byte)) (m : Moved) : Moved := runs.foldl (fun t e => t.put (dst + e.1) e.2) m

/-- One row moved within the device: it is read completely, then written (R252, R264, R266). -/
def moveRow (j : HoistJob) (c : Copy) (m : Moved) (r : Int × Int) : Moved :=
  putRuns (endAddr j.face c.dstFs r.2) (rowRuns m.st j c r.1)
    { m with st := rowCorrect j c r.1 m.st, bad := m.bad ++ rowBad m.st j c r.1 }

/-- The pieces in which reads have brought a row, joined: `k` pieces per row, row `r`. -/
def gotRow (j : HoistJob) (c : Copy) (r : Nat) : List Byte :=
  let k := ceilDiv c.width 236
  let x : Byte := if c.inv7 then 0x80 else 0
  ((List.range k).flatMap fun i => NMap.get [] j.got (r * k + i)).map (· ^^^ x)

/-- A row cut into pieces of at most `m` bytes for a window. -/
def cutRow (m off : Nat) (bytes : List Byte) (n : Nat) : List Piece :=
  (List.range (ceilDiv n m)).map fun i => ⟨off + m * i, min m (n - m * i), sliceL bytes (m * i) m⟩

/-- Offset of an address in its remote window (R241). -/
def windowOff (a : Nat) : Nat := (a - remBase) % 0x1000000000

/-- The write pieces of a row into a window, from the runs that it brings. -/
def rowPieces (j : HoistJob) (c : Copy) (dst : Int) (runs : List (Nat × List Byte)) : List Piece :=
  runs.flatMap fun e => cutRow (if c.kind = 4 then 220 else 236) (windowOff (endAddr j.face c.dstFs dst) + e.1) e.2 e.2.length

/-- The read pieces of a row of a window. -/
def readPieces (j : HoistJob) (c : Copy) (src : Int) : List Piece := cutRow 236 (windowOff (endAddr j.face c.srcFs src)) [] c.width

/-- The 16-byte key of a HALO flit: KEY_N, KEY_RG and KEY_DIGEST, each in four bytes, then zero (R565, log entry 24). -/
def haloKey (c : Copy) : List Byte := leBytes 4 c.keyN ++ leBytes 4 c.keyRg ++ leBytes 4 c.keyDigest ++ leBytes 4 0

/-- The job of a copy in a hoist's queue. -/
def State.job (s : State) (h id : Nat) : Option HoistJob := (s.hoist h).find? fun j => j.id == id

/-- The rows of a job. -/
def HoistJob.rows (j : HoistJob) : List (Int × Int) := copyRows (Copy.of (leNat j.desc)) j.idx

/-- The port of the window that a job reads. -/
def HoistJob.srcPort (j : HoistJob) : Option Nat :=
  let c := Copy.of (leNat j.desc)
  if c.zero then none else j.rows.head?.bind fun r => remotePort (endAddr j.face c.srcFs r.1)

/-- The port of the window that a job writes. -/
def HoistJob.dstPort (j : HoistJob) : Option Nat :=
  j.rows.head?.bind fun r => remotePort (endAddr j.face (Copy.of (leNat j.desc)).dstFs r.2)

/-- A copy from a window to a window: it goes row by row, each row read before it is written (R252). -/
def HoistJob.through (j : HoistJob) : Bool := j.srcPort.isSome && j.dstPort.isSome

/-- The pieces of a job are the last of its copy. -/
def HoistJob.lastRow (j : HoistJob) : Bool := !j.through || decide (j.rows.length ≤ j.row + 1)

/-- One piece of a job sent, when its port is UP and a tag is free (R564, R565). -/
def sendPiece (h : Nat) (j : HoistJob) (s : State) : State :=
  match j.todo, j.port with
  | pc :: rest, some p =>
    if !s.xcUp p then s
    else if !j.reading && wOp j.word == 0x73 then
      xcPush p 5 (rest.isEmpty && j.lastRow) 0 pc.off (haloKey (Copy.of (leNat j.desc)) ++ pc.bytes) (s.modJob h j.id fun y => { y with todo := rest })
    else
      match s.freeTag p with
      | none => s.tally (xcPage p) 0x8C
      | some t =>
        let k := j.got.length + j.waiting
        let s1 := (s.modJob h j.id fun y => { y with todo := rest, waiting := y.waiting + 1 }).modPort p fun y =>
          { y with tags := NMap.put y.tags t ⟨h, j.id, k⟩ }
        if j.reading then xcPush p 2 rest.isEmpty t (pc.off + pc.len * 2 ^ 40) [] s1 else xcPush p 1 rest.isEmpty t pc.off pc.bytes s1
  | _, _ => s

/-- Pieces that a job has still to send. -/
def State.unsent (s : State) (h id : Nat) : Nat := ((s.job h id).map fun j => j.todo.length).getD 0

/-- Up to `n` pieces of a job sent, until one must wait. -/
def sendPieces (h id : Nat) : Nat → State → State
  | 0, s => s
  | n + 1, s => match s.job h id with
    | some j =>
      let t := sendPiece h j s
      if t.unsent h id = j.todo.length then t else sendPieces h id n t
    | none => s

/-- A job sends what it can. -/
def pumpJob (h id : Nat) (s : State) : State := match s.job h id with
  | some j => sendPieces h id j.todo.length s
  | none => s

/-- A job has sent its pieces and had its answers. -/
def HoistJob.settled (j : HoistJob) : Bool := j.todo.isEmpty && j.waiting == 0

/-- The bytes of pieces. -/
def pieceBytes (ps : List Piece) : Nat := (ps.map (·.len)).sum

/-- The pieces of a write queued for a job, and sent as far as they can be. -/
def startWrites (h id : Nat) (p : Option Nat) (ps : List Piece) (s : State) : State :=
  pumpJob h id (s.modJob h id fun y =>
    { y with begun := true, reading := false, port := p, got := [], todo := ps, sent := y.sent + pieceBytes ps })

/-- The pieces of a read queued for a job, and sent as far as they can be. -/
def startReads (h id row : Nat) (p : Option Nat) (ps : List Piece) (s : State) : State :=
  pumpJob h id (s.modJob h id fun y => { y with begun := true, reading := true, port := p, got := [], row := row, todo := ps })

/-- A row of a copy between windows that has been read is written. -/
def turnWrite (h id : Nat) (s : State) : State :=
  match s.job h id with
  | some j =>
    let c := Copy.of (leNat j.desc)
    if j.begun && j.through && j.reading && j.settled then
      startWrites h id j.dstPort (rowPieces j c (nth (0, 0) j.rows j.row).2 [(0, gotRow j c 0)]) s
    else s
  | none => s

/-- A row of a copy between windows that has been written is followed by the next. -/
def turnRead (h id : Nat) (s : State) : State :=
  match s.job h id with
  | some j =>
    if j.begun && j.through && !j.reading && j.settled && !j.lastRow then
      startReads h id (j.row + 1) j.srcPort (readPieces j (Copy.of (leNat j.desc)) (nth (0, 0) j.rows (j.row + 1)).1) s
    else s
  | none => s

/-- A copy between windows goes on as far as its answers allow. -/
def turnJob (h id : Nat) (s : State) : State := turnRead h id (turnWrite h id s)

/-- A copy through ports begins: its reads, or its writes with the bytes read now (R564, R565). The bytes that depend on a word in error
are not sent, and the word is acted on (R264). -/
def beginRemote (h : Nat) (j : HoistJob) (s : State) : State :=
  let c := Copy.of (leNat j.desc)
  match j.srcPort with
  | some p =>
    let rows := if j.through then j.rows.take 1 else j.rows
    startReads h j.id 0 (some p) (rows.flatMap fun r => readPieces j c r.1) s
  | none =>
    let ps := j.rows.flatMap fun r => rowPieces j c r.2 (rowRuns s j c r.1)
    let t := startWrites h j.id j.dstPort ps (j.rows.foldl (fun u r => rowCorrect j c r.1 u) s)
    strikeAll (hoistSrc h) (some j.handle) (j.rows.flatMap fun r => rowBad s j c r.1).eraseDups t

/-- The copies that may begin: taken, not begun, and, when ordered, with no copy of their face before them (R224, R255). -/
def startable : List HoistJob → List Nat → List HoistJob
  | [], _ => []
  | j :: q, faces =>
    (if j.taken && !j.begun && wOp j.word != 0xA2 && (bit j.word 45 || !faces.contains j.face) then [j] else []) ++ startable q (j.face :: faces)

/-- The copies of a hoist through ports that may begin do (R224, R255). -/
def beginReady (h : Nat) (s : State) : State := (startable (s.hoist h) []).foldl (fun t j => beginRemote h j t) s

/-! ### Taking -/

/-- The address that a copy may not touch: the first such source, or destination, or else the descriptor's own (R636). -/
def State.copyBad (s : State) (j : HoistJob) (idx : List Byte) : Nat :=
  let c := Copy.of (leNat j.desc)
  let rows := copyRows c idx
  let bad (right : Nat) (fs : Bool) (a : Int) : Option Nat :=
    if endReach fs a c.width && s.touchOk j.handle right (endAddr j.face fs a) c.width then none
    else some (toField 64 (if fs then (fsAddr j.face 0 : Int) + a else a))
  ((if c.zero then none else rows.findSome? fun r => bad 1 c.srcFs r.1).orElse fun _ => rows.findSome? fun r => bad 2 c.dstFs r.2).getD
    (fsAddr j.face j.doff)

/-- The first remote address that a copy touches (R636). -/
def copyRemote (j : HoistJob) (idx : List Byte) : Nat :=
  let c := Copy.of (leNat j.desc)
  let rows := copyRows c idx
  let far (fs : Bool) (a : Int) : Option Nat := (remotePort (endAddr j.face fs a)).map fun _ => endAddr j.face fs a
  ((if c.zero then none else rows.findSome? fun r => far c.srcFs r.1).orElse fun _ => rows.findSome? fun r => far c.dstFs r.2).getD 0

/-- A descriptor that faults at take: HOIST_ERR names it, and its context is torn down (R254, R258). -/
def hoistFault (h : Nat) (j : HoistJob) (code detail : Nat) (s : State) : State :=
  let s1 := (s.dropJob h j.id).wr (hoistPage h) 0x110 (j.doff % 2 ^ 18 + j.face * 2 ^ 18 + 2 ^ 31)
  teardown j.handle code (s1.fault { page := hoistPage h, code := code, handle := j.handle, detail := detail })

/-- The gallery range of a GALLERY.ADDU (R228): address and bytes. -/
def adduRange (w : Nat) : Nat × Nat := (galAddr (fld w 71 69) (fld w 68 45), 4 * (fld w 83 72 + 1))

/-- The check of a GALLERY.ADDU: GALLERY_ADDR 0x6003, HOIST_ADDR 0x6001, or 0 (R242, R247). -/
def adduCheck (s : State) (j : HoistJob) : Nat :=
  let r := adduRange j.word
  if galOne < fld j.word 68 45 + r.2 then 0x6003
  else if s.touchOk j.handle 1 r.1 r.2 && s.touchOk j.handle 2 r.1 r.2 then 0 else 0x6001

/-- A copy descriptor taken (R254, R674); on a STANDBY device a copy through a port not UP in the WALL role completes at once without
sending (R574). -/
def takeCopy (h : Nat) (j : HoistJob) (s : State) : State :=
  let c := Copy.of (leNat j.desc)
  let n := 4 * c.rows
  let gather := c.kind == 3 && copyFieldsOk (wOp j.word) (leNat j.desc) && !c.zero
  if gather && decide (0x40000 < c.list + n) then hoistFault h j 0x6001 (fsAddr j.face c.list) s
  else
    match if gather then s.ueRead (fsAddr j.face c.list) n (some j.handle) (hoistSrc h) else none with
    | some t => t.dropJob h j.id
    | none =>
      let idx := if gather then s.fsBytes j.face c.list n else []
      let code := copyCheck s h j idx
      let ports := copyPorts j idx
      if code ≠ 0 then hoistFault h j code (if code = 0x6001 then s.copyBad j idx else fsAddr j.face j.doff) s
      else if !s.standby && ports.any (fun p => s.xcRole p == 0 || decide (3 ≤ s.xcState p)) then hoistFault h j 0x6004 (copyRemote j idx) s
      else
        let u := if gather then s.correct (fsAddr j.face c.list) n else s
        let void := s.standby && ports.any fun p => !s.xcUpIn p 1
        u.modJob h j.id fun y => { y with taken := true, idx := idx, void := void, begun := void || ports.isEmpty }

/-- A hoist takes the first descriptor of its queue that it has not taken (R254); the descriptors of a context that is being
switched out or stands still do not begin (R110, R337). -/
def hoistTake (h : Nat) (s : State) : State :=
  match (s.hoist h).find? fun j => !s.quiet (hoistPage h) && !j.taken && s.faceCtx j.face == some j.handle with
  | none => s
  | some j =>
    if wOp j.word = 0xA2 then
      let code := adduCheck s j
      if code ≠ 0 then hoistFault h j code (adduRange j.word).1 s else s.modJob h j.id fun y => { y with taken := true, begun := true }
    else beginReady h (takeCopy h j s)

/-- HOIST_TAKE (R254). -/
def execHoistTake (hoist : Fin 80) (s : State) : Host.Outcome State Fault Refusal := .next (hoistTake hoist s)

/-! ### Completing -/

/-- The job that completes next: the first copy begun whose far device owes nothing and which, when it is ordered, has no
earlier job of its face on the hoist (R224, R256). -/
def readyJob : List HoistJob → List Nat → Option HoistJob
  | [], _ => none
  | j :: q, faces =>
    if j.taken && j.begun && wOp j.word != 0xA2 && j.settled && j.lastRow && (bit j.word 45 || !faces.contains j.face) then some j
    else readyJob q (j.face :: faces)

/-- The rows of a copy that writes memory of the device, with the bytes that each brings now. -/
def moveRows (j : HoistJob) (s : State) : Moved :=
  let c := Copy.of (leNat j.desc)
  let rows := j.rows
  if j.reading then
    ((List.range rows.length).zip rows).foldl (fun m e => m.put (endAddr j.face c.dstFs e.2.2) (gotRow j c e.1)) ⟨s, [], 0⟩
  else rows.foldl (moveRow j c) ⟨s, [], 0⟩

/-- A HALO copy within the device: accepted and written row by row, or discarded (R92, R253). -/
def haloLocal (j : HoistJob) (s : State) : Moved :=
  let c := Copy.of (leNat j.desc)
  match j.rows.head?.bind fun r => s.stripAt (endAddr j.face c.dstFs r.2) with
  | some p =>
    if s.haloOk p c.keyN c.keyDigest then
      let m := moveRows j (haloOpen p c.keyN s)
      { m with st := haloArrived p c.keyRg m.st }
    else ⟨haloReject s, [], 0⟩
  | none => ⟨haloReject s, [], 0⟩

/-- What a copy that completes writes here, and the words in error that it meets. -/
def copyMove (j : HoistJob) (s : State) : Moved :=
  if j.void || j.dstPort.isSome then ⟨s, [], j.sent⟩
  else if (Copy.of (leNat j.desc)).kind = 4 then haloLocal j s
  else moveRows j s

/-- The 64-byte granules of a row that it fills only in part (R255). -/
def partGranules (a n : Nat) : Nat :=
  if a / 64 = (a + n - 1) / 64 then b2n (n % 64 != 0)
  else b2n (a % 64 != 0) + b2n ((a + n) % 64 != 0)

/-- The read-modify-writes of a copy: a partial granule at the start or the end of each row (R255). -/
def copyRmw (j : HoistJob) : Nat :=
  let c := Copy.of (leNat j.desc)
  (j.rows.map fun r => partGranules (endAddr j.face c.dstFs r.2) c.width).sum

/-- What a hoist counts of a copy that has completed: the bytes that it wrote, and its read-modify-writes, none for one that wrote
nothing (R255, R258). -/
def countCopy (h : Nat) (j : HoistJob) (bytes : Nat) (s : State) : State :=
  (s.inc64 (hoistPage h) 0x108 bytes).tallyN (hoistPage h) 0x42 (if bytes = 0 then 0 else copyRmw j)

/-- A copy completes: its bytes are written, HOIST_BYTES counts them, its word and its done flag follow, and the words in
error are acted on (R224, R256, R264); the copies that waited for it begin. -/
def hoistComplete (h : Nat) (s : State) : State :=
  match readyJob (s.hoist h) [] with
  | none => s
  | some j =>
    let m := copyMove j s
    let s1 := countCopy h j m.bytes (m.st.dropJob h j.id)
    let s2 := jobFlag 48 (hoistDoneRef j.word) j (copyDone j s1)
    beginReady h (strikeAll (hoistSrc h) (some j.handle) m.bad.eraseDups s2)

/-- HOIST_COPY_COMPLETE (R256). -/
def execHoistCopyComplete (hoist : Fin 80) (s : State) : Host.Outcome State Fault Refusal := .next (hoistComplete hoist s)

/-- One addition of a GALLERY.ADDU (R230): I32 modulo 2^32, or FP32 to nearest even. -/
def adduOne (w g x : Nat) : Nat := if fld w 85 84 = 0 then (g + x) % 2 ^ 32 else f32Add g x

/-- Element `k` of a GALLERY.ADDU meets an uncorrectable error in its source or in its gallery word. -/
def State.adduSkips (s : State) (f base src k : Nat) : Bool :=
  s.badWords (fsAddr f (src + 4 * k)) 4 != [] || s.badWords (base + 4 * k) 4 != []

/-- The additions of a GALLERY.ADDU (R230); an element that meets an uncorrectable error is left out (R264). -/
def runAddu (j : HoistJob) (src : Nat) (s : State) : State :=
  let r := adduRange j.word
  (List.range (r.2 / 4)).foldl (fun t k =>
    let a := fsAddr j.face (src + 4 * k)
    let b := r.1 + 4 * k
    if t.adduSkips j.face r.1 src k then t else t.st b 4 (adduOne j.word (t.ld b 4) (t.ld a 4))) s

/-- The first taken GALLERY.ADDU of a face completes (R230). -/
def adduComplete (f : Nat) (s : State) : State :=
  let h := adduHoist f
  match (s.hoist h).find? fun j => j.taken && wOp j.word == 0xA2 && j.face == f with
  | none => s
  | some j =>
    let r := adduRange j.word
    let bad := (s.badWords (fsAddr f j.doff) r.2 ++ s.badWords r.1 r.2).eraseDups
    let n := ((List.range (r.2 / 4)).filter fun k => !s.adduSkips f r.1 j.doff k).length
    let s1 := ((runAddu j j.doff (s.correctAll [(fsAddr f j.doff, r.2), r])).dropJob h j.id).inc64 (hoistPage h) 0x108 (4 * n)
    let s2 := jobFlag 86 (adduDoneRef j.word) j (copyDone j s1)
    strikeAll (hoistSrc h) (some j.handle) bad s2

/-- GALLERY_ADDU_COMPLETE (R230). -/
def execGalleryAdduComplete (face : Face) (s : State) : Host.Outcome State Fault Refusal := .next (adduComplete face s)

end Sys2Proof.Machine
end

