-- ==== Sys2Proof/Machine/Lattice.lean ====
section
/-! DEFINITION. The lattice (R128-R143): configurations and their checks, the arithmetic of a node slot, streams, and the
run of a configuration. -/
namespace Sys2Proof.Machine

/-! ### Configurations -/

/-- A slot word of a node (R136). -/
structure SlotWord where
  op : Nat
  ty : Nat
  sa : Nat
  sb : Nat
  sc : Nat
  dst : Nat
  wr : Bool
  link : Nat
  rbus : Bool
  cbus : Bool
  pred : Bool
  pval : Bool
  setp : Bool
  rest : Nat
deriving DecidableEq, Repr

/-- The fields of a slot word (R136). -/
def SlotWord.of (v : Nat) : SlotWord :=
  ⟨fld v 5 0, fld v 7 6, fld v 12 8, fld v 17 13, fld v 22 18, fld v 25 23, bit v 26, fld v 30 27, bit v 31, bit v 32, bit v 33,
    bit v 34, bit v 35, fld v 47 36⟩

/-- A stream descriptor (R134). -/
structure Stream where
  lanes : Nat
  fmt : Nat
  port : Nat
  inner : Nat
  istride : Int
  ostride : Int
deriving DecidableEq, Repr

/-- Stream `k` of a configuration: IN0, IN1, OUT0, OUT1 (R133, R134). -/
def cfgStream (c : List Byte) (k : Nat) : Stream :=
  let o := 0x10 + 32 * k
  ⟨leAt c o 2, leAt c (o + 2) 1 % 16, leAt c (o + 3) 1 % 2, leAt c (o + 4) 2, sext 32 (leAt c (o + 8) 4), sext 32 (leAt c (o + 12) 4)⟩

/-- Slot word `sl` of node `n` (R136). -/
def cfgSlotWord (c : List Byte) (n sl : Nat) : SlotWord := SlotWord.of (leAt c (0x100 + 28 * n + 6 * sl) 6)
/-- IMM of node `n`. -/
def cfgImm (c : List Byte) (n : Nat) : Nat := leAt c (0x100 + 28 * n + 24) 4
/-- Slots per iteration. -/
def cfgPeriod (c : List Byte) : Nat := leAt c 3 1 % 4 + 1
/-- CARRY of a configuration. -/
def cfgCarry (c : List Byte) : Bool := bit (leAt c 3 1) 2
/-- ACC_RD of a configuration. -/
def cfgAccRd (c : List Byte) : Nat := fld (leAt c 3 1) 5 4
/-- ACC_WR of a configuration. -/
def cfgAccWr (c : List Byte) : Nat := fld (leAt c 3 1) 7 6
/-- DELAY of a configuration. -/
def cfgDelay (c : List Byte) : Nat := leAt c 4 1 % 64
/-- NODE_EN of a configuration. -/
def cfgEnabled (c : List Byte) (n : Nat) : Bool := bit (leAt c 8 8) n

/-- The TYPE values that an opcode accepts (R138). -/
def latTypeOk (op ty : Nat) : Bool :=
  if op ≤ 0x09 ∨ op = 0x12 ∨ op = 0x13 ∨ op = 0x14 ∨ op = 0x15 then decide (ty ≤ 2)
  else if op ≤ 0x11 then ty == 0
  else match op with
    | 0x16 => ty == 1 || ty == 2
    | 0x17 => ty == 1
    | 0x18 => ty == 1
    | 0x19 => ty == 2
    | 0x1A | 0x1B | 0x1C | 0x1D => ty == 1 || ty == 2
    | 0x1E | 0x1F | 0x20 => ty == 0
    | _ => false

/-- Element size of a stream format in half bytes (R134; a G4 element is a 4-bit code). -/
def fmtNibbles (fmt : Nat) : Nat := match fmt with
  | 1 | 2 => 2
  | 3 | 6 => 4
  | 4 | 5 | 7 => 8
  | 8 => 1
  | _ => 0

/-- The reserved fields of a configuration are zero: header bytes, stream descriptors and slot words (R133, R134, R136). -/
def cfgReservedOk (c : List Byte) : Bool :=
  bit (leAt c 3 1) 3 == false && decide (leAt c 4 1 < 64) && leAt c 5 3 == 0 && (sliceL c 0xD0 0x30).all (· == 0) &&
  ((List.range 4).all fun k =>
    let o := 0x10 + 32 * k
    decide (leAt c (o + 2) 1 < 16) && decide (leAt c (o + 3) 1 < (if k < 2 then 2 else 1)) && leAt c (o + 6) 2 == 0 &&
    (sliceL c (o + 16) 16).all (· == 0)) &&
  (List.range 64).all fun n => (List.range 4).all fun sl => (cfgSlotWord c n sl).rest == 0

/-- The header declares the bank of an accumulator access (R139): a B that is IMM or zero names the bank in the
configuration, and a B that is the node's number names bank 0; any other B names it at run time, and the header must then declare a bank
(log entry 12). -/
def bankDeclared (c : List Byte) (mask n : Nat) (w : SlotWord) : Bool :=
  if w.sb = 0x0E then bit mask (fld (cfgImm c n) 8 8) else if w.sb = 0x0F ∨ w.sb = 0x11 then bit mask 0 else mask != 0

/-- The slot words of a configuration: listed opcodes, types and selectors, no operation at or beyond PERIOD, declared
banks (R139). -/
def cfgSlotsOk (c : List Byte) : Bool :=
  (List.range 64).all fun n => (List.range 4).all fun sl =>
    let w := cfgSlotWord c n sl
    decide (w.op ≤ 0x20) && decide (w.ty ≤ 2) && latTypeOk w.op w.ty && decide (w.sa ≤ 0x11 ∧ w.sb ≤ 0x11 ∧ w.sc ≤ 0x11) &&
    (decide (sl < cfgPeriod c) || w.op == 0) && (w.op != 0x1F || bankDeclared c (cfgAccWr c) n w) &&
    (w.op != 0x20 || bankDeclared c (cfgAccRd c) n w)

/-- A slot of a node has a result that can go out: the node is enabled, and the slot is neither a NOP, nor an ACCADD, nor a comparison
that writes the predicate (R131, R138). -/
def cfgDrives (c : List Byte) (n sl : Nat) : Bool :=
  let w := cfgSlotWord c n sl
  cfgEnabled c n && w.op != 0 && w.op != 0x1F && !((w.op == 0x13 || w.op == 0x14) && w.setp)

/-- At most one node of a row drives its row bus in a slot, and one of a column its column bus (R139). -/
def cfgBusOk (c : List Byte) : Bool :=
  (List.range 4).all fun sl => (List.range 8).all fun k =>
    decide (((List.range 8).filter fun j => cfgDrives c (8 * k + j) sl && (cfgSlotWord c (8 * k + j) sl).rbus).length ≤ 1) &&
    decide (((List.range 8).filter fun j => cfgDrives c (8 * j + k) sl && (cfgSlotWord c (8 * j + k) sl).cbus).length ≤ 1)

/-- Streams: listed formats, lanes that do not overlap (R134, R135, R139). -/
def cfgStreamsOk (c : List Byte) : Bool :=
  ((List.range 4).all fun k => decide ((cfgStream c k).fmt ≤ (if k < 2 then 8 else 7))) &&
  ((cfgStream c 0).lanes &&& (cfgStream c 1).lanes) == 0 && ((cfgStream c 2).lanes &&& (cfgStream c 3).lanes) == 0

/-- A configuration passes the checks of R139. -/
def cfgOk (c : List Byte) : Bool :=
  leAt c 0 2 == 0x4C54 && leAt c 2 1 == 1 && cfgReservedOk c && cfgSlotsOk c && cfgBusOk c && cfgStreamsOk c

/-! ### Arithmetic of a slot -/

/-- A signed 32-bit reading. -/
def s32 (v : Nat) : Int := sext 32 v
/-- A 32-bit pattern of an integer. -/
def u32 (x : Int) : Nat := toField 32 x
/-- An integer saturated to 32 bits. -/
def satS32 (x : Int) : Nat := u32 (clampI (-(2 ^ 31)) (2 ^ 31 - 1) x)

/-- A binary32 result with the canonical NaN (R132). -/
def canonF (v : Nat) : Nat := if f32IsNaN v then f32NaN else v

/-- The smaller (or, with `mx`, the larger) of two binary32 values; where no order separates two different patterns the
manual states no result (log entry 8). -/
def f32MinMax (mx : Bool) (a b : Nat) : Nat :=
  if f32Lt a b then (if mx then b else a)
  else if f32Lt b a then (if mx then a else b)
  else if a = b then a
  else if f32Eq a b ∧ a % 2 ^ 31 ≠ 0 then a
  else (Config.minMaxOpen mx (BitVec.ofNat 32 a) (BitVec.ofNat 32 b)).toNat

/-- The results of the opcodes in binary32 (R138). -/
def latF32 (op a b c : Nat) : Nat :=
  canonF <| match op with
  | 0x01 => a
  | 0x02 => f32Add a b
  | 0x03 => f32Sub a b
  | 0x04 => f32Mul a b
  | 0x05 => f32Fma a b c
  | 0x06 => f32MinMax false a b
  | 0x07 => f32MinMax true a b
  | 0x08 => a % 2 ^ 31
  | 0x09 => if bit a 31 then a - 2 ^ 31 else a + 2 ^ 31
  | 0x12 => f32MinMax false (f32MinMax true a b) c
  | 0x1A => f32Rcp a
  | 0x1B => f32Rsq a
  | 0x1C => f32Exp2 a
  | 0x1D => f32Log2 a
  | _ => 0

/-- The results of the opcodes in 32-bit integers (R138). -/
def latI32 (op a b c : Nat) (const : Nat → Nat) : Nat :=
  match op with
  | 0x01 => a
  | 0x02 => u32 (s32 a + s32 b)
  | 0x03 => u32 (s32 a - s32 b)
  | 0x04 => u32 (s32 a * s32 b)
  | 0x05 => u32 (s32 a * s32 b + s32 c)
  | 0x06 => u32 (min (s32 a) (s32 b))
  | 0x07 => u32 (max (s32 a) (s32 b))
  | 0x08 => u32 (s32 a).natAbs
  | 0x09 => u32 (-(s32 a))
  | 0x0A => a &&& b
  | 0x0B => a ||| b
  | 0x0C => a ^^^ b
  | 0x0D => a * 2 ^ (b % 32) % 2 ^ 32
  | 0x0E => u32 (s32 a / (2 ^ (b % 32) : Nat))
  | 0x0F => a / 2 ^ (b % 32)
  | 0x10 => satS32 (s32 a + s32 b)
  | 0x11 => satS32 (roundShift (s32 a * s32 b) (c % 64))
  | 0x12 => u32 (min (max (s32 a) (s32 b)) (s32 c))
  | 0x1E => const (a % 16)
  | _ => 0

/-- Half `h` of a BF2 value, widened. -/
def bf2Half (v h : Nat) : Nat := bf16Widen (v / 65536 ^ h)

/-- A BF2 operation: each half computed in binary32 and rounded to BF16 (R132). -/
def latBF2 (op a b c : Nat) : Nat :=
  let half (h : Nat) : Nat := bf16Of (latF32 op (bf2Half a h) (bf2Half b h) (bf2Half c h))
  half 0 + 65536 * half 1

/-- A comparison of a type: SETLT (0x13) or SETEQ (0x14) (R138). -/
def latCmp (op ty a b : Nat) : Bool :=
  let x := if ty = 2 then bf2Half a 0 else a
  let y := if ty = 2 then bf2Half b 0 else b
  if ty = 0 then (if op = 0x13 then decide (s32 a < s32 b) else decide (a = b))
  else if op = 0x13 then f32Lt x y else f32Eq x y

/-- The result of a slot that has one, from its operands and the predicate (R138); an accumulator read is given. -/
def latResult (op ty a b c : Nat) (p : Bool) (const : Nat → Nat) (accRd : Nat) : Nat :=
  match op with
  | 0x13 | 0x14 => b2n (latCmp op ty a b)
  | 0x15 => let v := if p then a else b; if ty = 0 then v else if ty = 1 then canonF v else latBF2 0x01 v v v
  | 0x16 => let f := f32OfInt (s32 a); if ty = 1 then f else bf16Of f * 65537
  | 0x17 => u32 (f32ToInt a)
  | 0x18 => bf16Of a + 65536 * bf16Of b
  | 0x19 => canonF (bf2Half a (b % 2))
  | 0x20 => accRd
  | _ => if ty = 0 then latI32 op a b c const else if ty = 1 then latF32 op a b c else latBF2 op a b c

/-! ### The array -/

/-- A node while a run goes on: registers x0-x7, predicate, outgoing links N, E, S, W (R128). -/
structure Node where
  x : List Nat := List.replicate 8 0
  p : Bool := false
  link : List Nat := List.replicate 4 0
deriving DecidableEq, Repr

/-- The array: nodes, row and column buses, accumulators (R128). -/
structure Lat where
  nodes : List Node := List.replicate 64 {}
  rbus : List Nat := List.replicate 8 0
  cbus : List Nat := List.replicate 8 0
  acc : AccRun
deriving DecidableEq, Repr

/-- Node `n` of the array. -/
def Lat.node (l : Lat) (n : Nat) : Node := nth {} l.nodes n

/-- The incoming link of node `n` from side 0 N, 1 E, 2 S, 3 W: the neighbour's outgoing link, or an input lane at the N
and W edges (R129). -/
def Lat.incoming (l : Lat) (lane : Nat → Nat) (n side : Nat) : Nat :=
  let r := n / 8
  let c := n % 8
  match side with
  | 0 => if r = 0 then lane (8 + c) else nth 0 (l.node (n - 8)).link 2
  | 1 => if c = 7 then 0 else nth 0 (l.node (n + 1)).link 3
  | 2 => if r = 7 then 0 else nth 0 (l.node (n + 8)).link 0
  | _ => if c = 0 then lane r else nth 0 (l.node (n - 1)).link 1

/-- A source of node `n` (R137). -/
def Lat.source (l : Lat) (cfg : List Byte) (lane : Nat → Nat) (t n sel : Nat) : Nat :=
  if sel < 8 then nth 0 (l.node n).x sel
  else if sel < 0x0C then l.incoming lane n (sel - 8)
  else match sel with
    | 0x0C => nth 0 l.rbus (n / 8)
    | 0x0D => nth 0 l.cbus (n % 8)
    | 0x0E => cfgImm cfg n
    | 0x10 => t % 2 ^ 32
    | 0x11 => n
    | _ => 0

/-- The accumulator element that B names (ACCADD, ACCRD of R138). -/
def accIndex (b : Nat) : Nat := b % 512

/-- What one node does in a slot. -/
structure NodeOut where
  n : Nat
  w : SlotWord
  res : Nat
  hasRes : Bool
  newP : Option Bool
  accAdd : Option (Nat × Int)
deriving DecidableEq, Repr

/-- The outcome of node `n` in slot `sl` of iteration `t`, from the values left by earlier cycles; none when it executes
nothing (R131, R136, R138). -/
def Lat.nodeOut (l : Lat) (cfg : List Byte) (lane : Nat → Nat) (t sl n : Nat) : Option NodeOut :=
  let w := cfgSlotWord cfg n sl
  if !cfgEnabled cfg n || w.op == 0 || (w.pred && (l.node n).p != w.pval) then none
  else
    let src := l.source cfg lane t n
    let a := src w.sa
    let b := src w.sb
    let c := src w.sc
    let cmp := w.op == 0x13 || w.op == 0x14
    let const (k : Nat) : Nat := leAt cfg (0x90 + 4 * k) 4
    some { n, w, res := latResult w.op w.ty a b c (l.node n).p const (u32 (NMap.get 0 l.acc.acc (accIndex b))),
           hasRes := w.op != 0x1F && !(cmp && w.setp),
           newP := if cmp && w.setp then some (latCmp w.op w.ty a b) else none,
           accAdd := if w.op = 0x1F then some (accIndex b, s32 a) else none }

/-- A node's results take effect, visible from the next cycle (R128). Of LINK [30:27] bit 27 is N, then E, S, W upwards (DEDUCED from the
order in which R136 names them, log entry 12). -/
def Lat.apply (l : Lat) (o : NodeOut) : Lat :=
  let nd := l.node o.n
  let x := if o.hasRes && o.w.wr then setNth nd.x o.w.dst o.res else nd.x
  let link := if o.hasRes then (List.range 4).map fun k => if bit o.w.link k then o.res else nth 0 nd.link k else nd.link
  { l with
    nodes := setNth l.nodes o.n { x := x, p := o.newP.getD nd.p, link := link }
    rbus := if o.hasRes && o.w.rbus then setNth l.rbus (o.n / 8) o.res else l.rbus
    cbus := if o.hasRes && o.w.cbus then setNth l.cbus (o.n % 8) o.res else l.cbus }

/-- The additions that reach one element in a cycle are summed and added as one. -/
def Lat.applyAcc (l : Lat) (os : List NodeOut) : Lat :=
  let adds := os.filterMap (·.accAdd)
  let keys := adds.foldl (fun ks a => if ks.contains a.1 then ks else ks ++ [a.1]) []
  { l with acc := keys.foldl (fun x k => x.add k (((adds.filter fun a => a.1 == k).map (·.2)).foldl (· + ·) 0)) l.acc }

/-- One slot: every node reads what earlier cycles left, then all results take effect (R128). -/
def Lat.slot (cfg : List Byte) (lane : Nat → Nat) (t : Nat) (l : Lat) (sl : Nat) : Lat :=
  let os := (List.range 64).filterMap (l.nodeOut cfg lane t sl)
  (os.foldl Lat.apply l).applyAcc os

/-- Output lane `i` of the array (R129). -/
def Lat.outLane (l : Lat) (i : Nat) : Nat := if i < 8 then nth 0 (l.node (8 * i + 7)).link 1 else nth 0 (l.node (56 + (i - 8))).link 2

/-! ### Streams -/

/-- The offset of a stream in iteration `t` (R220). -/
def streamAddr (st : Stream) (base t : Nat) : Int :=
  if st.inner = 0 then (base : Int) + t * st.istride
  else (base : Int) + (t % st.inner : Nat) * st.istride + (t / st.inner : Nat) * st.ostride

/-- How many lanes of a stream stand below lane `i`. -/
def laneIndex (lanes i : Nat) : Nat := ((List.range i).filter fun k => bit lanes k).length

/-- Lanes of a stream. -/
def laneCount (lanes : Nat) : Nat := laneIndex lanes 16

/-- Bytes of one iteration of a stream. -/
def Stream.bytes (st : Stream) : Nat := (laneCount st.lanes * fmtNibbles st.fmt + 1) / 2

/-- The offsets of a run of COUNT iterations lie between two extremes (R220). -/
def streamHull (st : Stream) (base count : Nat) : List Int :=
  let a := streamAddr st base
  if st.inner = 0 then [a 0, a (count - 1)]
  else
    let q := (count - 1) / st.inner
    [a (q * st.inner), a (count - 1)] ++
      (if q = 0 then [] else [a 0, a (st.inner - 1), a ((q - 1) * st.inner), a (q * st.inner - 1)])

/-- The alignment that a stream's element requires. -/
def Stream.align (st : Stream) : Nat := max 1 (fmtNibbles st.fmt / 2)

/-- Every address of a run lies in the store and is aligned (R220); the base of a stream without a format is ignored (R218). -/
def streamOk (st : Stream) (base count : Nat) : Bool :=
  if st.fmt = 0 then true
  else
    ((streamHull st base count).all fun o => (⟨o, st.bytes⟩ : Span).inStore) && decide (base % st.align = 0) &&
    (decide (count ≤ 1) || decide (st.inner = 1) || decide (st.istride % st.align = 0)) &&
    (decide (st.inner = 0) || decide (count ≤ st.inner) || decide (st.ostride % st.align = 0))

/-- The span that a stream declares (R108). -/
def streamSpan (st : Stream) (base count : Nat) : List Span := if st.fmt = 0 then [] else hullSpan (streamHull st base count) st.bytes

/-- Element `j` of a stream read at an offset, as a lane carries it (R134, R135). -/
def streamRead (s : State) (f : Nat) (st : Stream) (o : Int) (j : Nat) : Nat :=
  let b (n : Nat) : Nat := leNat (s.fsBytes f (o.toNat + n * j) n)
  match st.fmt with
  | 1 => u32 (sext 8 (b 1))
  | 2 => b 1
  | 3 => u32 (sext 16 (b 2))
  | 6 => bf16Widen (b 2)
  | 8 => u32 (s.gridValue f (fld (leNat (s.fsBytes f (o.toNat + j / 2) 1)) (4 * (j % 2) + 3) (4 * (j % 2))))
  | _ => b 4

/-- A configuration can invert bit 7 of U8 data: it has a U8 input stream (R153). -/
def cfgInverts (c : List Byte) : Bool := (cfgStream c 0).fmt == 2 || (cfgStream c 1).fmt == 2

/-- A lane value as the bytes of an output element (R120, R135). Where U8 data comes in (`inv`), an I8 output of −128 is the inversion of
u = 0 and stays 0x80 (R152, R153; log entry 12). -/
def streamBytes (inv : Bool) (fmt v : Nat) : List Byte := match fmt with
  | 1 => leBytes 1 (toField 8 (if inv && s32 v == -128 then -128 else clampFmt 0 (s32 v)))
  | 2 => leBytes 1 (toField 8 (clampFmt 1 (s32 v)))
  | 3 => leBytes 2 (toField 16 (clampFmt 2 (s32 v)))
  | 6 => leBytes 2 (bf16Of v)
  | _ => leBytes 4 v

/-- Bases of the four streams of a LAT.RUN word (R218). -/
def latBase (xs : List Nat) (w k : Nat) : Nat := fsEff xs w (40 + 21 * k)

/-- COUNT of a LAT.RUN word (R218). -/
def latCount (w : Nat) : Nat := fld w 39 24 + 1

/-- The value that input lane `i` presents in iteration `t`: element `t` of its stream, 0 from COUNT on (R130). -/
def latLane (s : State) (f w : Nat) (xs : List Nat) (cfg : List Byte) (t i : Nat) : Nat :=
  if latCount w ≤ t then 0
  else
    let v (k : Nat) : Option Nat :=
      let st := cfgStream cfg k
      if st.fmt ≠ 0 ∧ bit st.lanes i then some (streamRead s f st (streamAddr st (latBase xs w k) t) (laneIndex st.lanes i)) else none
    (v 0).getD ((v 1).getD 0)

/-- The outputs of iteration `t` written (R130, R135). -/
def latOut (f w : Nat) (xs : List Nat) (cfg : List Byte) (l : Lat) (t k : Nat) (s : State) : State :=
  let st := cfgStream cfg k
  if st.fmt = 0 then s
  else s.stFs f (streamAddr st (latBase xs w k) t).toNat
    (((List.range 16).filter fun i => bit st.lanes i).flatMap fun i => streamBytes (cfgInverts cfg) st.fmt (l.outLane i))

/-- One iteration: the slots run, and the outputs of iteration t − DELAY are written, except the first DELAY after the
start (R130, R141). -/
def latIter (f w : Nat) (xs : List Nat) (cfg : List Byte) (start : Nat) (a : State × Lat) (t : Nat) : State × Lat :=
  let lanes := (List.range 16).map (latLane a.1 f w xs cfg t)
  let l := (List.range (cfgPeriod cfg)).foldl (Lat.slot cfg (nth 0 lanes) t) a.2
  if t < start + cfgDelay cfg then (a.1, l)
  else
    let o := t - cfgDelay cfg
    (latOut f w xs cfg l o 3 (latOut f w xs cfg l o 2 a.1), l)

/-- A LAT.RUN from iteration `lo` whose outputs end before iteration `hi` (R130, R141). -/
def runLat (f w : Nat) (xs : List Nat) (cfg : List Byte) (lo hi : Nat) (s : State) : State :=
  let n := if hi ≤ lo then 0 else hi - lo + cfgDelay cfg
  let r := (List.range n).foldl (fun a j => latIter f w xs cfg lo a (lo + j)) (s, { acc := ⟨(s.face f).acc, 0⟩ })
  putAcc f r.2.acc r.1

/-- The spans that a LAT.RUN reads. -/
def latReads (xs : List Nat) (w : Nat) (cfg : List Byte) : List Span :=
  (List.range 2).flatMap fun k => streamSpan (cfgStream cfg k) (latBase xs w k) (latCount w)
/-- The spans that a LAT.RUN writes. -/
def latWrites (xs : List Nat) (w : Nat) (cfg : List Byte) : List Span :=
  [2, 3].flatMap fun k => streamSpan (cfgStream cfg k) (latBase xs w k) (latCount w)

/-- The fault that a LAT.RUN of a valid configuration raises before its first iteration, 0 for none (R142, R220). -/
def latCheck (xs : List Nat) (w : Nat) (cfg : List Byte) : Nat :=
  if cfgCarry cfg ∧ 256 < (latCount w + cfgDelay cfg) * cfgPeriod cfg then 0x3005
  else if (List.range 4).all fun k => streamOk (cfgStream cfg k) (latBase xs w k) (latCount w) then 0 else 0x3003

/-- The banks that a configuration takes part in, bit per bank (R143). -/
def cfgBanks (cfg : List Byte) : Nat := cfgAccRd cfg ||| cfgAccWr cfg

end Sys2Proof.Machine
end

