-- ==== Sys2Proof/Machine/Quant.lean ====
section
/-! DEFINITION. Quantisation (R151-R189): the conversion control record, blocked rows, finding scales, rounding to grids,
QM.MEASURE, QM.CONVERT in its four modes and from a blocked source, and QM.REBLOCK. All arithmetic is binary32 as the
rules write it. -/
namespace Sys2Proof.Machine

/-! ### The control record -/

/-- A conversion control record (R167). -/
structure Qctl where
  src : Nat
  dst : Nat
  mode : Nat
  share : Bool
  clipTarget : Nat
  clipLimit : Nat
  underLimit : Nat
  nblk : Nat
  nlast : Nat
  fbCap : Nat
  rows : Nat
  rest : Bool

/-- The fields of the 16 bytes of a record (R167). -/
def Qctl.of (bs : List Byte) : Qctl :=
  let w0 := leAt bs 0 4
  let w1 := leAt bs 4 4
  let w2 := leAt bs 8 4
  { src := fld w0 3 0, dst := fld w0 7 4, mode := fld w0 9 8, share := bit w0 10, clipTarget := fld w0 15 12,
    clipLimit := fld w0 22 16, underLimit := fld w0 30 24, nblk := fld w1 8 0, nlast := fld w1 22 16, fbCap := fld w1 31 24,
    rows := fld w2 12 0,
    rest := bit w0 11 || bit w0 23 || bit w0 31 || fld w1 15 9 != 0 || bit w1 23 || fld w2 31 13 != 0 || leAt bs 12 4 != 0 }

/-- Elements of a block of a blocked format (R151). -/
def blockSize (fmt : Nat) : Nat := if fmt = 0xB ∨ fmt = 0xC then 32 else 64
/-- STEPS of a blocked format (R151). -/
def fmtSteps (fmt : Nat) : Nat := match fmt with
  | 0x9 => 31
  | 0xA => 63
  | 0xB => 127
  | _ => 32767
/-- Payload bytes of a block (R159). -/
def blockBytes (fmt : Nat) : Nat := if fmt = 0xC then 64 else 32
/-- The format is a grid code. -/
def isGrid (fmt : Nat) : Bool := fmt == 0x9 || fmt == 0xA
/-- The format is blocked. -/
def isBlocked (fmt : Nat) : Bool := decide (0x9 ≤ fmt ∧ fmt ≤ 0xC)
/-- Bytes of an element of a plain format (R167). -/
def plainBytes (fmt : Nat) : Nat := match fmt with
  | 1 => 1
  | 3 | 6 => 2
  | _ => 4

/-- The blocked format of the record: the destination's, or the source's of a dequantisation. -/
def Qctl.bfmt (q : Qctl) : Nat := if isBlocked q.dst then q.dst else q.src
/-- Elements of the last block. -/
def Qctl.last (q : Qctl) : Nat := if q.nlast = 0 then blockSize q.bfmt else q.nlast
/-- Elements of block `b` of a row. -/
def Qctl.elems (q : Qctl) (b : Nat) : Nat := if b + 1 = q.nblk then q.last else blockSize q.bfmt
/-- Elements of a row. -/
def Qctl.rowElems (q : Qctl) : Nat := (q.nblk - 1) * blockSize q.bfmt + q.last
/-- Offset of the side records in a row (R159). -/
def Qctl.side (q : Qctl) : Nat := 0x10 + 16 * ceilDiv q.nblk 16
/-- Offset of the payload in a row (R159). -/
def Qctl.pay (q : Qctl) : Nat := if isGrid q.bfmt then 64 * ceilDiv (q.side + 16 * q.nblk) 64 else 64 * ceilDiv (0x10 + q.nblk) 64
/-- Offset of the fallback slots in a row (R159). -/
def Qctl.fb (q : Qctl) : Nat := q.pay + 64 * ceilDiv (blockBytes q.bfmt * q.nblk) 64
/-- Size of a row (R159). -/
def Qctl.rowSize (q : Qctl) : Nat := q.fb + 64 * q.fbCap

/-- What every valid record meets (R168). -/
def Qctl.common (q : Qctl) : Bool :=
  !q.rest && decide (1 ≤ q.nblk ∧ q.nblk ≤ 256) && decide (1 ≤ q.rows ∧ q.rows ≤ 4096) && decide (q.nlast ≤ blockSize q.bfmt) &&
  (isGrid q.dst || q.fbCap == 0) && (!q.share || decide (q.mode ≤ 1)) &&
  decide (q.clipTarget ≤ (if isGrid q.bfmt then 4 else 8))

/-- The source format of a conversion into a blocked format (R168). -/
def plainSource (fmt : Nat) : Bool := fmt == 1 || fmt == 3 || fmt == 4 || fmt == 5 || fmt == 6

/-- The record is valid for a quantisation word (R168). The fallback slots of a dequantised row are FB_CAP of the
record, which R169 compares with the row's header: for G4 and UG4 sources FB_CAP is the source's (log entry 13). -/
def Qctl.valid (q : Qctl) (op : Nat) : Bool :=
  let into := q.common && plainSource q.src && isBlocked q.dst
  let back := !q.rest && decide (1 ≤ q.nblk ∧ q.nblk ≤ 256) && decide (1 ≤ q.rows ∧ q.rows ≤ 4096) &&
    decide (q.nlast ≤ blockSize q.bfmt) && isBlocked q.src && (q.dst == 5 || q.dst == 6) && q.mode == 0 && !q.share &&
    q.fbCap == 0 && decide (q.clipTarget ≤ (if isGrid q.src then 4 else 8))
  match op with
  | 0x60 => into
  | 0x61 => into || back
  | _ => q.common && q.src == q.dst && isBlocked q.src && q.mode == 0 && !q.share

/-! ### Binary32 helpers -/

/-- n / d rounded to binary32 toward +∞ (R158), for a positive finite value and a positive integer divisor. -/
def f32DivUp (a d : Nat) : Nat :=
  match Fl.ofBits a with
  | .fin false m e =>
    let r := f32Round false m d e
    match Fl.ofBits r with
    | .fin _ n g =>
      let lo := min e g
      if n * 2 ^ (g - lo).toNat * d < m * 2 ^ (e - lo).toNat then r + 1 else r
    | _ => r
  | _ => a

/-- Magnitude of a binary32 pattern. -/
def f32Abs (a : Nat) : Nat := a % 2 ^ 31

/-- The larger of two non-negative finite patterns. -/
def f32MaxPos (a b : Nat) : Nat := max a b

/-- q × S2 as an exact value. -/
def scaleExact (q s2 : Nat) : Fl := (Fl.fin false q 0).mul (Fl.ofBits s2)

/-- a ≥ b for non-negative finite values. -/
def flGe (a b : Fl) : Bool := match a, b with
  | .fin _ m e, .fin _ n g => let lo := min e g; decide (n * 2 ^ (g - lo).toNat ≤ m * 2 ^ (e - lo).toNat)
  | .inf _, _ => true
  | _, _ => false

/-- The smallest code from 1 to 255 whose product with S2 is at least s, when there is one; 1 when S2 is 0 and s is 0
(R158). -/
def scaleCode (s2 s : Nat) : Option Nat := ((List.range 255).map (· + 1)).find? fun q => flGe (scaleExact q s2) (Fl.ofBits s)

/-- s_used of a code: q × S2 rounded to binary32 (R158). -/
def sUsed (s2 q : Nat) : Nat := (scaleExact q s2).bits

/-- t × 2^150 of a finite value, a whole number. -/
def fin150 (t : Nat) : Int := match Fl.ofBits t with
  | .fin s m e => mantAt s m (e + 150) 0
  | _ => 0

/-- The value is at least k / 2. -/
def geHalf (t : Nat) (k : Int) : Bool := !f32Lt t (f32OfFix k 1) && !f32IsNaN t
/-- The value is at most k / 2. -/
def leHalf (t : Nat) (k : Int) : Bool := !f32Lt (f32OfFix k 1) t && !f32IsNaN t

/-- round(t) by R165; an infinite t is beyond every saturation. -/
def roundT (t : Nat) : Int := match Fl.ofBits t with
  | .nan => 0
  | .inf s => if s then -(2 ^ 40) else 2 ^ 40
  | .fin s m e => finRoundAway s m e

/-! ### Source elements -/

/-- A source element as binary32: integers are converted to the nearest value (R167, log entry 13). -/
def srcElem (fmt : Nat) (bs : List Byte) (j : Nat) : Nat := match fmt with
  | 1 => f32OfInt (sext 8 (leAt bs j 1))
  | 3 => f32OfInt (sext 16 (leAt bs (2 * j) 2))
  | 4 => f32OfInt (sext 32 (leAt bs (4 * j) 4))
  | 6 => bf16Widen (leAt bs (2 * j) 2)
  | _ => leAt bs (4 * j) 4

/-- A NaN or an infinity. -/
def nonFinite (a : Nat) : Bool := fld a 30 23 == 255

/-- The elements of a block of a plain source, with NaN and infinity replaced by 0, and how many were (R171). -/
def srcBlock (fmt : Nat) (bs : List Byte) (first n : Nat) : List Nat × Nat :=
  let xs := (List.range n).map fun j => srcElem fmt bs (first + j)
  (xs.map fun x => if nonFinite x then 0 else x, (xs.filter nonFinite).length)

/-! ### Grids -/

/-- The grid of a conversion: the values of codes 0x0-0x7 and 0x9-0xF, in code order, with their codes (R154). -/
def gridOf (s : State) (f fmt : Nat) : List (Nat × Int) :=
  ((List.range 16).filter (· != 8)).map fun c => (c, if fmt = 0xA then ug4Value c else s.gridValue f c)

/-- P of a grid (R155). -/
def gridP (g : List (Nat × Int)) : Int := g.foldl (fun m e => max m e.2) ((g.head?.map (·.2)).getD 0)
/-- N of a grid (R155). -/
def gridN (g : List (Nat × Int)) : Int := g.foldl (fun m e => min m e.2) ((g.head?.map (·.2)).getD 0)

/-- Entry `a` is preferred to `b` for the value T × 2^-150: nearer, then of greater magnitude, then positive, then the
earlier code (R166). -/
def gridBetter (T : Int) (a b : Nat × Int) : Bool :=
  let da := (T - a.2 * 2 ^ 150).natAbs
  let db := (T - b.2 * 2 ^ 150).natAbs
  if da ≠ db then decide (da < db)
  else if a.2.natAbs ≠ b.2.natAbs then decide (b.2.natAbs < a.2.natAbs)
  else if a.2 ≠ b.2 then decide (b.2 < a.2) else false

/-- The code and the value that a finite t selects (R166). -/
def gridNearest (g : List (Nat × Int)) (t : Nat) : Nat × Int :=
  match g with
  | [] => (0, 0)
  | e :: r => r.foldl (fun b x => if gridBetter (fin150 t) x b then x else b) e

/-- The code of a grid value. -/
def codeOf (g : List (Nat × Int)) (v : Int) : Nat := ((g.find? fun e => e.2 == v).map (·.1)).getD 0

/-! ### Encoding a block -/

/-- t of an element (R174): a zero scale sends every nonzero element beyond the grid. -/
def tOf (fmt su x : Nat) : Nat :=
  if f32Abs x = 0 then 0
  else if f32Abs su = 0 then f32Inf (bit x 31)
  else f32Mul x (f32Div (f32OfInt (fmtSteps fmt)) su)

/-- The element is beyond the grid on the side above, or below (R174). -/
def beyondHi (fmt : Nat) (g : List (Nat × Int)) (t : Nat) : Bool := match fmt with
  | 0x9 => geHalf t (2 * gridP g + 1)
  | 0xA => geHalf t 127
  | 0xB => geHalf t 255
  | _ => geHalf t 65535
/-- The element is beyond the grid below (R174). -/
def beyondLo (fmt : Nat) (g : List (Nat × Int)) (t : Nat) : Bool := match fmt with
  | 0x9 => leHalf t (2 * gridN g - 1)
  | 0xA => leHalf t (-1)
  | 0xB => leHalf t (-255)
  | _ => leHalf t (-65535)

/-- The outcome of encoding one block. -/
structure EncBlock where
  payload : List Byte
  side : List Byte
  slot : Option (List Byte)
  clipped : Nat := 0
  escapes : Nat := 0
  escSat : Nat := 0
  under : Nat := 0
deriving DecidableEq, Repr

/-- Nibbles packed two to a byte, the even one low (R162). -/
def packNibbles : List Nat → List Byte
  | [] => []
  | [a] => [BitVec.ofNat 8 a]
  | a :: b :: r => BitVec.ofNat 8 (a + 16 * b) :: packNibbles r

/-- A block of BI8 or W16 (R162, R175, R177, R178). -/
def encPlain (fmt su : Nat) (xs : List Nat) : EncBlock :=
  let m : Int := fmtSteps fmt
  let w := if fmt = 0xB then 1 else 2
  let vs := xs.map fun x => let r := roundT (tOf fmt su x); (x, r, clampI (-m) m r)
  { payload := vs.flatMap (fun v => leBytes w (toField (8 * w) v.2.2)) ++ List.replicate (w * (32 - xs.length)) 0
    side := [], slot := none
    clipped := (vs.filter fun v => v.2.2 != v.2.1).length
    under := (vs.filter fun v => f32Abs v.1 != 0 && v.2.2 == 0).length }

/-- Positions of the elements of a grid block that may escape (R176). -/
def escapable (fmt : Nat) (g : List (Nat × Int)) (ts : List Nat) : List Nat :=
  idxWhere (fun t => beyondHi fmt g t || (fmt == 0x9 && beyondLo fmt g t)) ts

/-- The four positions of greatest |t|, ties to the lower position, in ascending order (R176). -/
def greatestFour (ts : List Nat) (es : List Nat) : List Nat :=
  let better (a b : Nat) : Bool := decide (f32Abs (nth 0 ts b) < f32Abs (nth 0 ts a)) || (f32Abs (nth 0 ts a) == f32Abs (nth 0 ts b) && decide (a < b))
  es.filter fun e => decide ((es.filter fun x => better x e).length < 4)

/-- The stored value and code of an element of a grid block that has no escape entry (R166, R175, R176). -/
def gridElem (fmt : Nat) (g : List (Nat × Int)) (t : Nat) : Nat × Int :=
  if beyondHi fmt g t then (codeOf g (gridP g), gridP g)
  else if beyondLo fmt g t then (if fmt = 0xA then (codeOf g 0, 0) else (codeOf g (gridN g), gridN g))
  else gridNearest g t

/-- The side record of a block (R161). -/
def sideRecord (escs : List (Nat × Int)) (slot : Option Nat) (clipped sat : Bool) : List Byte :=
  let e := escs.flatMap fun p => leBytes 1 p.1 ++ leBytes 2 (toField 16 p.2)
  leBytes 1 (escs.length + b2n slot.isSome * 8 + b2n clipped * 16 + b2n sat * 32) ++ leBytes 1 (slot.getD 0) ++ [0, 0] ++ e ++
    List.replicate (12 - e.length) 0

/-- A block of G4 or UG4 whose row has used `used` of `cap` fallback slots (R162, R163, R174-R178). -/
def encGrid (fmt : Nat) (g : List (Nat × Int)) (su used cap : Nat) (xs : List Nat) : EncBlock :=
  let ts := xs.map (tOf fmt su)
  let es := escapable fmt g ts
  if 4 < es.length ∧ used < cap then
    let lo : Int := if fmt = 0x9 then -127 else 0
    let hi : Int := if fmt = 0x9 then 127 else 255
    let vs := ts.map fun t => (roundT t, clampI lo hi (roundT t))
    let sat := (vs.filter fun v => v.1 != v.2).length
    { payload := List.replicate 32 0x88
      side := sideRecord [] (some used) (sat != 0) (sat != 0)
      slot := some (vs.map (fun v => BitVec.ofInt 8 v.2) ++ List.replicate (64 - xs.length) 0)
      clipped := sat, escSat := sat
      under := ((xs.zip vs).filter fun p => f32Abs p.1 != 0 && p.2.2 == 0).length }
  else
    let four := if es.length ≤ 4 then es else greatestFour ts es
    let escs := four.map fun p => (p, roundT (nth 0 ts p), clampI (-32767) 32767 (roundT (nth 0 ts p)))
    let plain := (List.range xs.length).map fun p => if four.contains p then (8, 0) else gridElem fmt g (nth 0 ts p)
    let sat := (escs.filter fun e => e.2.1 != e.2.2).length
    let clip := ((List.range xs.length).filter fun p => !four.contains p &&
      (beyondHi fmt g (nth 0 ts p) || beyondLo fmt g (nth 0 ts p)) && (gridElem fmt g (nth 0 ts p)).2 != roundT (nth 0 ts p)).length
    { payload := packNibbles (plain.map (·.1) ++ List.replicate (64 - xs.length) (gridNearest g 0).1)
      side := sideRecord (escs.map fun e => (e.1, e.2.2)) none (clip + sat != 0) (sat != 0)
      slot := none
      clipped := clip + sat, escapes := four.length, escSat := sat
      under := ((List.range xs.length).filter fun p => f32Abs (nth 0 xs p) != 0 &&
        (if four.contains p then (escs.any fun e => e.1 == p && e.2.2 == 0) else (nth (0, 0) plain p).2 == 0)).length }

/-! ### Encoding a row -/

/-- Counts of a conversion, as the statistics record orders them after ELEM_COUNT and CLIP_COUNT (R179). -/
structure QStats where
  elem : Nat := 0
  clip : Nat := 0
  esc : Nat := 0
  fall : Nat := 0
  under : Nat := 0
  nonfin : Nat := 0
  escSat : Nat := 0
  widen : Nat := 0
  narrow : Nat := 0
  row : Nat := 0
deriving DecidableEq, Repr

/-- Two counts together. -/
def QStats.add (a b : QStats) : QStats :=
  ⟨a.elem + b.elem, a.clip + b.clip, a.esc + b.esc, a.fall + b.fall, a.under + b.under, a.nonfin + b.nonfin, a.escSat + b.escSat,
    a.widen + b.widen, a.narrow + b.narrow, a.row + b.row⟩

/-- Blocks of a row encoded in ascending order, each with its code, from a number of fallback slots used on; slots are taken in that
order (R176). -/
def encBlocks (q : Qctl) (g : List (Nat × Int)) (s2 used : Nat) (blocks : List (Nat × List Nat)) : List EncBlock :=
  (blocks.foldl (fun (a : List EncBlock × Nat) e =>
    let su := sUsed s2 e.1
    let b := if isGrid q.dst then encGrid q.dst g su a.2 q.fbCap e.2 else encPlain q.dst su e.2
    (a.1 ++ [b], a.2 + b2n b.slot.isSome)) ([], used)).1

/-- Bytes followed by zeros up to a length. -/
def padTo (n : Nat) (bs : List Byte) : List Byte := bs ++ List.replicate (n - bs.length) 0

/-- The counts that a row header holds (R160): slots used, elements clipped, escapes. -/
structure RowCounts where
  used : Nat := 0
  clip : Nat := 0
  esc : Nat := 0
deriving DecidableEq, Repr

/-- The counts of a row after some more of its blocks. -/
def RowCounts.after (c : RowCounts) (bs : List EncBlock) : RowCounts :=
  ⟨c.used + (bs.filterMap (·.slot)).length, min 65535 (c.clip + (bs.map (·.clipped)).foldl (· + ·) 0),
    c.esc + (bs.map (·.escapes)).foldl (· + ·) 0⟩

/-- Header and codes of a row (R159, R160). -/
def rowHead (q : Qctl) (d : QDec) (shared : Bool) (c : RowCounts) : List Byte :=
  let w1 := q.nblk + q.dst * 2 ^ 12 + q.nlast * 2 ^ 16 + b2n shared * 2 ^ 23 + q.fbCap * 2 ^ 24
  leBytes 4 d.s2 ++ leBytes 4 w1 ++ leBytes 4 (c.used + c.clip * 2 ^ 16) ++ leBytes 4 (c.esc + b2n d.re * 2 ^ 16) ++
    d.codes.map (BitVec.ofNat 8)

/-- Blocks `lo` up to `lo + bs.length` of a row that has counted `c` before them, as places in the row and bytes: header and codes; side
records, payload and fallback slots of the blocks; with the last block the unused bytes of each part are 0 (R159, R160). -/
def rowWrites (q : Qctl) (d : QDec) (shared : Bool) (c : RowCounts) (lo : Nat) (bs : List EncBlock) : List (Nat × List Byte) :=
  let last := decide (q.nblk ≤ lo + bs.length)
  let part (base size stop : Nat) (body : List Byte) : Nat × List Byte :=
    (base + size * lo, if last then padTo (stop - (base + size * lo)) body else body)
  [(0, padTo (if isGrid q.bfmt then q.side else q.pay) (rowHead q d shared (c.after bs)))] ++
    (if isGrid q.bfmt then [part q.side 16 q.pay (bs.flatMap (·.side))] else []) ++
    [part q.pay (blockBytes q.bfmt) q.fb (bs.flatMap (·.payload)), (q.fb + 64 * c.used, (bs.filterMap (·.slot)).flatMap id)]

/-- The counts of encoded blocks (R177-R179): elements and non-finite elements besides. -/
def blockStats (elems nonfin : Nat) (bs : List EncBlock) : QStats :=
  { elem := elems, clip := (bs.map (·.clipped)).foldl (· + ·) 0, esc := (bs.map (·.escapes)).foldl (· + ·) 0,
    fall := (bs.filter fun b => b.slot.isSome).length, under := (bs.map (·.under)).foldl (· + ·) 0, nonfin := nonfin,
    escSat := (bs.map (·.escSat)).foldl (· + ·) 0 }

/-! ### Measuring -/

/-- The bin of an element (R171). -/
def histBin (m x : Nat) : Nat :=
  if f32Abs m = 0 then 0
  else match Fl.ofBits (f32Mul (f32Abs x) (f32Div (f32OfInt 16) m)) with
    | .fin s a e => min 15 (finFloor s a e).toNat
    | _ => 15

/-- The largest magnitude of a block. -/
def maxAbs (xs : List Nat) : Nat := xs.foldl (fun m x => f32MaxPos m (f32Abs x)) 0

/-- The histogram of a block. -/
def histogram (xs : List Nat) : List Nat :=
  let m := maxAbs xs
  (List.range 16).map fun k => (xs.filter fun x => histBin m x == k).length

/-- The histogram cut J of MODE CLIP: the smallest from 1 to 16 beyond which at most T elements lie (R172). -/
def clipCut (hist : List Nat) (t : Nat) : Nat :=
  (((List.range 16).map (· + 1)).find? fun j => decide ((hist.drop j).foldl (· + ·) 0 ≤ t)).getD 16

/-- s_b and J of a block by MODE (R172). -/
def measureScale (q : Qctl) (xs : List Nat) : Nat × Nat :=
  let m := maxAbs xs
  match q.mode with
  | 0 => (m, 16)
  | 1 => let j := clipCut (histogram xs) q.clipTarget
         ((match Fl.ofBits m with
          | .fin _ a e => f32Round false (a * j) 16 e
          | _ => m), j)
  | _ => (0, 0)

/-- The measurement record of a block (R170). -/
def measureRecord (q : Qctl) (g : List (Nat × Int)) (xs : List Nat) (nonfin : Nat) : List Byte :=
  let sj := measureScale q xs
  let beyond := (xs.filter fun x => let t := tOf q.dst sj.1 x; beyondHi q.dst g t || beyondLo q.dst g t).length
  leBytes 4 (maxAbs xs) ++ leBytes 4 sj.1 ++ leBytes 1 beyond ++ leBytes 1 nonfin ++ leBytes 1 sj.2 ++ List.replicate 5 0 ++
    (histogram xs).flatMap (leBytes 1)

/-! ### Words -/

/-- Offset of the control record of a quantisation word. -/
def qCtlOff (w : Nat) : Nat := 16 * fld w 37 24
/-- Offset of the statistics record. -/
def qStatsOff (w : Nat) : Nat := 64 * fld w 49 38
/-- Offset of the source, or of the rows of QM.REBLOCK. -/
def qSrc (xs : List Nat) (w : Nat) : Nat := if wOp w = 0x60 then fsEff xs w 38 else fsEff xs w 50
/-- Offset of the destination rows. -/
def qDst (xs : List Nat) (w : Nat) : Nat := fsEff xs w 71
/-- Offset of the measurement records. -/
def qMrec (xs : List Nat) (w : Nat) : Nat := if wOp w = 0x60 then fsEff xs w 59 else fsEff xs w 92

/-- Bytes of all plain rows of a record. -/
def Qctl.plainSize (q : Qctl) (fmt : Nat) : Nat := q.rows * q.rowElems * plainBytes fmt

/-- The conversion goes from a blocked source to a plain destination. -/
def Qctl.isBack (q : Qctl) : Bool := !isBlocked q.dst

/-- The word uses measurement records (R173). -/
def usesMrec (q : Qctl) (w : Nat) : Bool := wOp w == 0x60 || (wOp w == 0x61 && !q.isBack && decide (q.mode ≤ 1))

/-- The spans that a quantisation word reads; destination rows only in MODE STORED and GIVEN (R187). -/
def quantReads (q : Qctl) (xs : List Nat) (w : Nat) : List Span :=
  ⟨qCtlOff w, 16⟩ ::
  (match wOp w with
  | 0x60 => [⟨qSrc xs w, q.plainSize q.src⟩]
  | 0x61 =>
    (if q.isBack then [⟨qSrc xs w, q.rows * q.rowSize⟩]
     else ⟨qSrc xs w, q.plainSize q.src⟩ :: (if 2 ≤ q.mode then [⟨qDst xs w, q.rows * q.rowSize⟩] else [])) ++
    (if usesMrec q w then [⟨qMrec xs w, 32 * q.nblk * q.rows⟩] else []) ++ [⟨qStatsOff w, 64⟩]
  | _ => [⟨qSrc xs w, q.rows * q.rowSize⟩, ⟨qStatsOff w, 64⟩])

/-- The spans that a quantisation word writes. -/
def quantWrites (q : Qctl) (xs : List Nat) (w : Nat) : List Span :=
  match wOp w with
  | 0x60 => [⟨qMrec xs w, 32 * q.nblk * q.rows⟩]
  | 0x61 => [⟨qDst xs w, if q.isBack then q.plainSize q.dst else q.rows * q.rowSize⟩, ⟨qStatsOff w, 64⟩]
  | _ => [⟨qSrc xs w, q.rows * q.rowSize⟩, ⟨qStatsOff w, 64⟩]

/-- The fault that a quantisation word raises at issue, 0 for none (R168, R202); a plain source needs no alignment (R221). -/
def quantCheck (q : Qctl) (xs : List Nat) (w : Nat) : Nat :=
  if !q.valid (wOp w) then 0x4001
  else
    let al := (!isBlocked q.src || decide (qSrc xs w % 64 = 0)) &&
      (wOp w != 0x61 || decide (qDst xs w % 64 = 0)) && (!usesMrec q w || decide (qMrec xs w % 32 = 0))
    if al && (quantReads q xs w ++ quantWrites q xs w).all Span.inStore then 0 else 0x3003

/-- The header of the row at an offset is valid in the sense of R169, for a format. -/
def rowValid (s : State) (f : Nat) (q : Qctl) (fmt o : Nat) : Bool :=
  let h := s.fsBytes f o 16
  let w1 := leAt h 4 4
  let used := leAt h 8 1
  fld w1 15 12 == fmt && fld w1 8 0 == q.nblk && fld w1 22 16 == q.nlast && fld w1 31 24 == q.fbCap &&
  decide (leAt h 0 4 < 0x7F800000) && (s.fsBytes f (o + 0x10) q.nblk).all (· != 0) && decide (used ≤ q.fbCap) &&
  (!isGrid fmt || (List.range q.nblk).all fun b =>
    let r := s.fsBytes f (o + q.side + 16 * b) 2
    let b0 := leAt r 0 1
    decide (b0 % 8 ≤ 4) && (!bit b0 3 || decide (leAt r 1 1 < used)))

/-- The scale codes of a stored row. -/
def storedCodes (s : State) (f : Nat) (q : Qctl) (o : Nat) : List Nat := (s.fsBytes f (o + 0x10) q.nblk).map (·.toNat)

/-- The value of element `e` of block `b` of a stored row (R157, R161-R163). -/
def storedValue (s : State) (f : Nat) (q : Qctl) (fmt o b e : Nat) : Int :=
  if fmt = 0xB then s.fsI8 f (o + q.pay + 32 * b + e)
  else if fmt = 0xC then sext 16 (leNat (s.fsBytes f (o + q.pay + 64 * b + 2 * e) 2))
  else
    let sd := s.fsBytes f (o + q.side + 16 * b) 16
    let b0 := leAt sd 0 1
    if bit b0 3 then
      let v := s.fsB f (o + q.fb + 64 * leAt sd 1 1 + e)
      if fmt = 0x9 then v.toInt else v.toNat
    else
      let c := fld (s.fsB f (o + q.pay + 32 * b + e / 2)).toNat (4 * (e % 2) + 3) (4 * (e % 2))
      if c = 8 then
        match (List.range (b0 % 8)).find? fun j => leAt sd (4 + 3 * j) 1 == e with
        | some j => sext 16 (leAt sd (5 + 3 * j) 2)
        | none => 0
      else if fmt = 0x9 then s.gridValue f c else ug4Value c

/-- The decoded elements of a block of a stored row, by its S2 and codes: fl(v × fl(s_used / STEPS)) (R189). -/
def decodeWith (s : State) (f : Nat) (q : Qctl) (fmt o s2 : Nat) (codes : List Nat) (b : Nat) : List Nat :=
  let k := f32Div (sUsed s2 (nth 1 codes b)) (f32OfInt (fmtSteps fmt))
  (List.range (q.elems b)).map fun e => f32Mul (f32OfInt (storedValue s f q fmt o b e)) k

/-- The decoded elements of a block of a row as it stands. -/
def decodeBlock (s : State) (f : Nat) (q : Qctl) (fmt o b : Nat) : List Nat :=
  decodeWith s f q fmt o (s.ld (fsAddr f o) 4) (storedCodes s f q o) b

/-- The blocks of row `i` of a plain source, and the non-finite elements replaced in each (R169, R171). -/
def srcBlocks (s : State) (f : Nat) (q : Qctl) (off i : Nat) : List (List Nat × Nat) :=
  let n := plainBytes q.src
  let bs := s.fsBytes f (off + i * q.rowElems * n) (q.rowElems * n)
  (List.range q.nblk).map fun b => srcBlock q.src bs (b * blockSize q.dst) (q.elems b)

/-- A counter of `n` bytes with a count added, saturating. -/
def satAdd (n old add : Nat) : Nat := min (256 ^ n - 1) (old + add)

/-- Counts added to the statistics record, to the totals of the context, and to the tally sources of the stope (R179,
R180). -/
def addStats (f h w : Nat) (x : QStats) (s : State) : State :=
  let o := qStatsOff w
  let old (k n : Nat) : Nat := s.ld (fsAddr f (o + k)) n
  let four := [x.esc, x.fall, x.under, x.nonfin, x.escSat, x.widen, x.narrow, x.row]
  let bytes := leBytes 8 (satAdd 8 (old 0 8) x.elem) ++ leBytes 8 (satAdd 8 (old 8 8) x.clip) ++
    ((List.range 8).flatMap fun k => leBytes 4 (satAdd 4 (old (0x10 + 4 * k) 4) (nth 0 four k)))
  let s1 := (s.stFs f o bytes).modCtx h fun c => { c with clip := (c.clip + x.clip) % 2 ^ 64, elem := (c.elem + x.elem) % 2 ^ 64 }
  let pg := stopePage (stopeOfFace f)
  ((((s1.tallyN pg 0x38 x.clip).tallyN pg 0x39 x.fall).tallyN pg 0x3A x.escSat).tallyN pg 0x3B (x.widen + x.narrow + x.row)).tallyN pg 0x3C x.nonfin

/-- S2 and the codes of rows whose blocks have the given scales (R158, R173). -/
def findScales (share : Bool) (all row : List Nat) : Nat × List Nat :=
  let m := (if share then all else row).foldl max 0
  let s2 := f32DivUp m 255
  (s2, if share then row.map fun _ => 255 else row.map fun r => (scaleCode s2 r).getD 255)

/-- The required scale of a stored block and whether it widens or narrows it (R184). A UG4 element at t ≤ −0.5 is stored as 0 (R175) and
so is an underflow too (R178). -/
def requiredScale (q : Qctl) (g : List (Nat × Int)) (su : Nat) (xs : List Nat) : Nat × Bool × Bool :=
  let ts := xs.map (tOf q.dst su)
  let c := (ts.filter fun t => beyondHi q.dst g t || beyondLo q.dst g t).length
  let u := ((xs.zip ts).filter fun p => f32Abs p.1 != 0 &&
    (if beyondHi q.dst g p.2 || beyondLo q.dst g p.2 then (q.dst == 0xA && beyondLo q.dst g p.2) || roundT p.2 == 0
     else if isGrid q.dst then (gridNearest g p.2).2 == 0 else roundT p.2 == 0)).length
  let n := blockSize q.dst
  let cl := if q.clipLimit = 0 then 1 else q.clipLimit
  let ul := if q.underLimit = 0 then 16 else q.underLimit
  let m := maxAbs xs
  if cl * n < c * 64 then (m, true, false)
  else if ul * n < u * 64 ∧ f32Lt m su then (m, false, true)
  else (su, false, false)

/-- S2, codes, and the counts of widened, narrowed blocks and re-blocked rows of a row in MODE STORED (R184, R185). -/
def storedScales (q : Qctl) (g : List (Nat × Int)) (s2 : Nat) (codes : List Nat) (blocks : List (List Nat)) :
    Nat × List Nat × QStats :=
  let rs := (codes.zip blocks).map fun e => requiredScale q g (sUsed s2 e.1) e.2
  let new := (codes.zip rs).map fun e => if e.2.2.1 || e.2.2.2 then scaleCode s2 e.2.1 else some e.1
  let st : QStats := { widen := (rs.filter fun r => r.2.1).length, narrow := (rs.filter fun r => r.2.2).length }
  if new.all (·.isSome) then (s2, new.map (·.getD 1), st)
  else
    let z := f32DivUp ((rs.map (·.1)).foldl max 0) 255
    (z, rs.map fun r => (scaleCode z r.1).getD 255, { st with row := 1 })

/-! ### Running a word, block by block (R173, R184-R192) -/

/-- Passes over each row: a check pass and a write pass in MODE STORED and for QM.REBLOCK, one otherwise (R184, R188). -/
def qPasses (q : Qctl) (w : Nat) : Nat := if wOp w = 0x63 ∨ (wOp w = 0x61 ∧ !q.isBack ∧ q.mode = 2) then 2 else 1

/-- Steps of a word: one for each block of each pass of each row. -/
def qSteps (q : Qctl) (w : Nat) : Nat := q.rows * (qPasses q w * q.nblk)

/-- The place before which a word has done `k` steps: row × 512 + pass × 256 + block (R192, log entry 20). -/
def qCode (q : Qctl) (w k : Nat) : Nat :=
  let n := qPasses q w * q.nblk
  k / n * 512 + k % n / q.nblk * 256 + k % n % q.nblk

/-- The steps done before a place. -/
def qStep (q : Qctl) (w c : Nat) : Nat := c / 512 * (qPasses q w * q.nblk) + c / 256 % 2 * q.nblk + c % 256

/-- What a word decides for row `i` before it writes its blocks: S2, codes and REBLOCKED, with the counts of widened and narrowed blocks
and re-blocked rows (R173, R184, R185, R188). -/
def decideRow (f w : Nat) (xs : List Nat) (q : Qctl) (s : State) (i : Nat) : QDec × QStats :=
  let g := gridOf s f q.dst
  if wOp w = 0x63 then
    let o := qSrc xs w + i * q.rowSize
    let old := storedCodes s f q o
    let s2 := s.ld (fsAddr f o) 4
    let ms := (List.range q.nblk).map fun b => maxAbs ((decodeBlock s f q q.src o b).map fun x => if nonFinite x then 0 else x)
    let sc := findScales false ms ms
    let up := ((old.zip sc.2).filter fun e => decide (e.1 < e.2)).length
    let down := ((old.zip sc.2).filter fun e => decide (e.2 < e.1)).length
    (⟨sc.1, sc.2, up + down != 0, s2, old, s.fsBytes f (o + q.fb) (64 * q.fbCap)⟩, { widen := up, narrow := down, row := 1 })
  else
    let o := qDst xs w + i * q.rowSize
    let old := storedCodes s f q o
    let s2 := s.ld (fsAddr f o) 4
    let sb (r b : Nat) : Nat := s.ld (fsAddr f (qMrec xs w + 32 * (r * q.nblk + b) + 4)) 4
    match q.mode with
    | 0 | 1 =>
      let a := findScales q.share ((List.range q.rows).flatMap fun r => (List.range q.nblk).map (sb r)) ((List.range q.nblk).map (sb i))
      ({ s2 := a.1, codes := a.2 }, {})
    | 2 =>
      let a := storedScales q g s2 old ((srcBlocks s f q (qSrc xs w) i).map (·.1))
      ({ s2 := a.1, codes := a.2.1, re := a.2.1 != old }, a.2.2)
    | _ => ({ s2 := s2, codes := old }, {})

/-- The elements of block `b` of a row that is re-encoded, decoded as the row stood, its fallback slots as they were (R188); NaN and
infinity are replaced by 0 and counted (R171). -/
def reblockElems (s : State) (f : Nat) (q : Qctl) (o : Nat) (d : QDec) (b : Nat) : List Nat × Nat :=
  let vs := decodeWith (s.stFs f (o + q.fb) d.oldFb) f q q.src o d.oldS2 d.oldCodes b
  (vs.map fun x => if nonFinite x then 0 else x, (vs.filter nonFinite).length)

/-- The values of blocks `lo` up to `hi` of row `i`, with the elements replaced by 0 in each. -/
def rowElemsOf (f w : Nat) (xs : List Nat) (q : Qctl) (d : QDec) (s : State) (i lo hi : Nat) : List (List Nat × Nat) :=
  if wOp w = 0x63 then (List.range (hi - lo)).map fun j => reblockElems s f q (qSrc xs w + i * q.rowSize) d (lo + j)
  else sliceL (srcBlocks s f q (qSrc xs w) i) lo (hi - lo)

/-- The elements of blocks `lo` up to `hi` of a row. -/
def Qctl.elemsOf (q : Qctl) (lo hi : Nat) : Nat := ((List.range (hi - lo)).map fun j => q.elems (lo + j)).foldl (· + ·) 0

/-- Blocks `lo` up to `hi` of row `i` encoded as decided and written, with their counts (R173-R179). -/
def writeBlocks (f w : Nat) (xs : List Nat) (q : Qctl) (d : QDec) (s : State) (i lo hi : Nat) : State × QStats :=
  let o := (if wOp w = 0x63 then qSrc xs w else qDst xs w) + i * q.rowSize
  let c : RowCounts := if lo = 0 then {} else ⟨s.ld (fsAddr f (o + 8)) 1, s.ld (fsAddr f (o + 10)) 2, s.ld (fsAddr f (o + 12)) 2⟩
  let vs := rowElemsOf f w xs q d s i lo hi
  let bs := encBlocks q (gridOf s f q.dst) d.s2 c.used ((sliceL d.codes lo (hi - lo)).zip (vs.map (·.1)))
  ((rowWrites q d q.share c lo bs).foldl (fun t e => t.stFs f (o + e.1) e.2) s,
    blockStats (q.elemsOf lo hi) ((vs.map (·.2)).foldl (· + ·) 0) bs)

/-- Blocks `lo` up to `hi` of row `i` measured: their records (R170). -/
def measureBlocks (f w : Nat) (xs : List Nat) (q : Qctl) (s : State) (i lo hi : Nat) : State :=
  s.stFs f (qMrec xs w + 32 * (i * q.nblk + lo))
    ((sliceL (srcBlocks s f q (qSrc xs w) i) lo (hi - lo)).flatMap fun b => measureRecord q (gridOf s f q.dst) b.1 b.2)

/-- Blocks `lo` up to `hi` of row `i` of a blocked source written as plain elements (R189). -/
def unconvertBlocks (f w : Nat) (xs : List Nat) (q : Qctl) (s : State) (i lo hi : Nat) : State :=
  let n := plainBytes q.dst
  let vs := (List.range (hi - lo)).flatMap fun j => decodeBlock s f q q.src (qSrc xs w + i * q.rowSize) (lo + j)
  s.stFs f (qDst xs w + (i * q.rowElems + q.elemsOf 0 lo) * n) (vs.flatMap fun v => if q.dst = 6 then leBytes 2 (bf16Of v) else leBytes 4 v)

/-- The header of row `i` that a word needs is not valid (R169). -/
def rowRefused (f w : Nat) (xs : List Nat) (q : Qctl) (s : State) (i : Nat) : Bool :=
  if wOp w = 0x63 || (wOp w == 0x61 && q.isBack) then !rowValid s f q q.src (qSrc xs w + i * q.rowSize)
  else wOp w == 0x61 && decide (2 ≤ q.mode) && !rowValid s f q q.dst (qDst xs w + i * q.rowSize)

/-- What a word has done: the state, the counts, whether a row was refused, and what is decided for the row in progress. -/
structure QRun where
  s : State
  stats : QStats := {}
  bad : Bool := false
  dec : Option QDec := none

/-- Steps `l` up to `h` of the passes over row `i`, `l < h` (R169-R192): a row is checked before its first step, decided before its first
block is written. -/
def quantRow (f w : Nat) (xs : List Nat) (q : Qctl) (i l h : Nat) (a : QRun) : QRun :=
  let wl := l - (qPasses q w - 1) * q.nblk
  let wh := h - (qPasses q w - 1) * q.nblk
  if l = 0 ∧ rowRefused f w xs q a.s i then { a with bad := true }
  else if wOp w = 0x60 then { a with s := measureBlocks f w xs q a.s i l h }
  else if q.isBack then
    { a with s := unconvertBlocks f w xs q a.s i l h, stats := a.stats.add { elem := q.elemsOf l h } }
  else if wh = 0 then a
  else
    let d : QDec × QStats := match (if wl = 0 then none else a.dec) with
      | some d => (d, {})
      | none => decideRow f w xs q a.s i
    let r := writeBlocks f w xs q d.1 a.s i wl wh
    { a with s := r.1, stats := (a.stats.add d.2).add r.2, dec := if q.nblk ≤ wh then none else some d.1 }

/-- Steps `lo` up to `hi` of a word, row by row. -/
def quantSteps (f w : Nat) (xs : List Nat) (q : Qctl) (lo hi : Nat) (a : QRun) : QRun :=
  let n := qPasses q w * q.nblk
  (List.range q.rows).foldl (fun r i =>
    let l := lo - i * n
    let h := min hi ((i + 1) * n) - i * n
    if r.bad || decide (h ≤ l) then r else quantRow f w xs q i l h r) a

/-- QM.MEASURE, QM.CONVERT and QM.REBLOCK run from step `lo` to step `hi`: the state, QROW_INVALID or 0, and what stays decided for the row
in progress (R169-R192). -/
def runQuant (f h w : Nat) (xs : List Nat) (q : Qctl) (dec : Option QDec) (lo hi : Nat) (s : State) : State × Nat × Option QDec :=
  let r := quantSteps f w xs q lo hi { s := s, dec := dec }
  if r.bad then (r.s, 0x4002, none) else (if wOp w = 0x60 then r.s else addStats f h w r.stats r.s, 0, r.dec)

/-- What a quantisation word leaves from the place it had reached (R191, R192). -/
def quantEffect (f h : Nat) (o : Op) (s : State) : State × Nat :=
  let q := Qctl.of o.data
  let r := runQuant f h o.word o.xs q o.dec (qStep q o.word o.progress) (qSteps q o.word) s
  (r.1, r.2.1)

end Sys2Proof.Machine
end

