-- ==== Sys2Proof/Machine/Rng.lean ====
section
/-! DEFINITION. The generator of RNG words: Philox-4x32-10 and its element formats (R228, R229). -/
namespace Sys2Proof.Machine

/-- One round of Philox-4x32 (R229). -/
def philoxRound (k : Nat × Nat) (c : Nat × Nat × Nat × Nat) : Nat × Nat × Nat × Nat :=
  let p0 := 0xD2511F53 * c.1
  let p1 := 0xCD9E8D57 * c.2.2.1
  ((p1 / 2 ^ 32) ^^^ c.2.1 ^^^ k.1, p1 % 2 ^ 32, (p0 / 2 ^ 32) ^^^ c.2.2.2 ^^^ k.2, p0 % 2 ^ 32)

/-- `n` rounds of Philox-4x32, the key advancing by its Weyl constants between rounds. -/
def philoxRounds : Nat → Nat × Nat → Nat × Nat × Nat × Nat → Nat × Nat × Nat × Nat
  | 0, _, c => c
  | n + 1, k, c => philoxRounds n ((k.1 + 0x9E3779B9) % 2 ^ 32, (k.2 + 0xBB67AE85) % 2 ^ 32) (philoxRound k c)

/-- Word `j` of the Philox-4x32-10 output for a 64-bit key and a counter (R229). -/
def philox (key : Nat) (c : Nat × Nat × Nat × Nat) (j : Nat) : Nat :=
  let r := philoxRounds 10 (key % 2 ^ 32, key / 2 ^ 32 % 2 ^ 32) c
  match j with
  | 0 => r.1
  | 1 => r.2.1
  | 2 => r.2.2.1
  | _ => r.2.2.2

/-- Elements of an RNG word (R228). -/
def rngCount (w : Nat) : Nat := fld w 60 45 + 1
/-- Bytes of an element of an RNG word (R228, R229). -/
def rngWidth (w : Nat) : Nat := if fld w 62 61 = 1 then 1 else 4
/-- The span that an RNG word writes. -/
def rngSpan (xs : List Nat) (w : Nat) : Span := ⟨(fsEff xs w 24 : Int), rngCount w * rngWidth w⟩
/-- Elements of one 64-byte group (R229). -/
def rngGroup (w : Nat) : Nat := 64 / rngWidth w

/-- Element `j` of an RNG word with a seed and a step (R229). -/
def rngElem (seed step : Nat) (xs : List Nat) (w j : Nat) : List Byte :=
  let i := (fld w 94 63 + xreg xs (fld w 97 95) + j) % 2 ^ 32
  let v := philox seed (i / 4, fld w 105 98, step % 2 ^ 32, step / 2 ^ 32 % 2 ^ 32) (i % 4)
  match fld w 62 61 with
  | 1 => leBytes 1 (v / 2 ^ 24)
  | 2 => leBytes 4 (f32OfFix ((v / 256 : Nat) : Int) 24)
  | _ => leBytes 4 v

/-- The bytes of elements `lo` up to `hi` of an RNG word. -/
def rngBytes (seed step : Nat) (xs : List Nat) (w lo hi : Nat) : List Byte :=
  (List.range (hi - lo)).flatMap fun k => rngElem seed step xs w (lo + k)

end Sys2Proof.Machine
end

