-- ==== Sys2Proof/Machine/Issue.lean ====
section
/-! DEFINITION. The issue unit of a face (R107, R108, R200, R237): fetching the next word, the holds at issue, the spans and
banks that a word declares, what an issued word leaves, and the completion of an issued operation (log entry 20). -/
namespace Sys2Proof.Machine

/-! ### Issued words -/

/-- TAP.SET or TAP.POS. -/
def isTapWord (o : Nat) : Bool := o == 0x80 || o == 0x81
/-- The word takes an entry of the matrix queue while it is incomplete (R237). -/
def inMatrixQueue (o : Nat) : Bool := isMatrixOp o || isTapWord o || o == 0x28 || o == 0x29
/-- The word runs on the lattice and is in progress until its completion (R219). -/
def inLattice (o : Nat) : Bool := isLatticeOp o

/-- A word of the matrix queue that takes one cycle and acts when it reaches the head: TAP.SET, TAP.POS, ACC.CLR (R118, R226). -/
def isQueueCycle (o : Nat) : Bool := isTapWord o || o == 0x28

/-- The matrix queue moves on: an entry behind no incomplete one has begun its work, and is complete when it takes one cycle (R217,
R226). -/
def settleQueue : Bool → List Op → List Op
  | _, [] => []
  | busy, o :: r =>
    if o.done || !inMatrixQueue (wOp o.word) then o :: settleQueue busy r
    else if isQueueCycle (wOp o.word) then { o with done := !busy, begun := !busy } :: settleQueue busy r
    else { o with begun := o.begun || !busy } :: settleQueue true r

/-- The banks that the ACC.CLR words clear that have become complete, bit per bank (R118). -/
def clearedBanks (before after : List Op) : Nat :=
  (before.zip after).foldl (fun m e => if wOp e.1.word == 0x28 && !e.1.done && e.2.done then m ||| fld e.1.word 25 24 else m) 0

/-- A face with a list of issued records: the matrix queue moves on, and an entry frees when its word and every word before it have
completed (R237). -/
def FaceSt.withIssued (x : FaceSt) (l : List Op) : FaceSt :=
  let m := settleQueue false l
  let b := clearedBanks l m
  { x with issued := m.dropWhile (·.done), acc := if b = 0 then x.acc else x.acc.filter fun e => !bit b (e.1 / 256) }

/-- List position of the word that issues next: a record that is issued again, or the word at the position reached (R339). -/
def FaceSt.cur (x : FaceSt) : Nat := match x.redo with
  | r :: _ => r.pos
  | [] => x.pc

/-- The record of a word that issues now (R338, R675); a word issued again keeps its loop counters and its progress. -/
def mkOp (x : FaceSt) (w : Nat) (done : Bool) (data : List Byte) : Op :=
  { pos := x.cur, word := w, lcs := (x.redo.head?.map (·.lcs)).getD x.lcs, xs := x.xs, step := x.step, done := done, begun := false,
    progress := (x.redo.head?.map (·.progress)).getD 0, data := data, dec := x.redo.head?.bind (·.dec) }

/-- The record of a completed word that stands behind words issued again; only its place counts (R339). -/
def Redo.op (r : Redo) : Op :=
  { pos := r.pos, word := 0, lcs := r.lcs, xs := [], step := 0, done := true, begun := true, progress := 0, data := [] }

/-- The tap slots after a word has issued: a WAIT and a word with W = 1 drop what they hold, and a word that fetches by a slot finds there
what the words before it leave (R277). -/
def tapsAfter (ts : List TapSlot) (w : Nat) : List TapSlot :=
  let t1 := if wW w || wOp w == 0x11 then ts.map fun t => { t with fresh := true } else ts
  if usesTap w then setNth t1 (tapSlotOf w) { nth {} t1 (tapSlotOf w) with fresh := false } else t1

/-- A face that has issued a word and goes on at a list position, or with the next record that it issues again; completed records on the
way are not repeated (R339). -/
def FaceSt.advance (x : FaceSt) (o : Op) (pc : Nat) : FaceSt :=
  FaceSt.withIssued { x with pc := if x.redo = [] then pc else x.pc, taps := tapsAfter x.taps o.word, redo := x.redo.tail.dropWhile (·.done), hoistWait := none }
    (x.issued ++ o :: (x.redo.tail.takeWhile (·.done)).map Redo.op)

/-- A word issues, leaves its record and is followed by the next word. -/
def issueNext (f w : Nat) (done : Bool) (data : List Byte) (s : State) : State :=
  s.modFace f fun x => x.advance (mkOp x w done data) (x.pc + 1)

/-- Position of the first issued record that has a property. -/
def FaceSt.findOp (x : FaceSt) (p : Op → Bool) : Option (Nat × Op) := ((List.range x.issued.length).zip x.issued).find? fun e => p e.2

/-- A face whose issued record `i` has completed. -/
def FaceSt.finishOp (x : FaceSt) (i : Nat) : FaceSt :=
  x.withIssued (((List.range x.issued.length).zip x.issued).map fun e => if e.1 = i then { e.2 with done := true } else e.2)

/-! ### Declared spans and banks -/

/-- The configuration in a resident slot. -/
def FaceSt.cfg (x : FaceSt) (k : Nat) : List Byte := (nth {} x.cfgs k).bytes

/-- The face-store spans that a word reads (R108, R222, R278). -/
def wordReads (x : FaceSt) (w : Nat) (xs : List Nat) (d : List Byte) : List Span :=
  match wOp w with
  | 0x0A => [⟨(fsEff xs w 27 : Int), 4⟩]
  | 0x20 | 0x21 | 0x22 | 0x82 | 0x83 => mmaSpans xs w d
  | 0x29 => drainReads xs w
  | 0x40 => [⟨(fsEff xs w 26 : Int), 2048⟩]
  | 0x42 => latReads xs w (x.cfg (leAt d 0 1))
  | 0x60 | 0x61 | 0x63 => quantReads (Qctl.of d) xs w
  | 0x62 => escSpans xs w
  | 0x70 | 0x71 | 0x72 | 0x73 => [⟨(fsEff xs w 24 : Int), 32⟩]
  | 0x80 => [⟨(fsEff xs w 25 : Int), 64⟩]
  | 0x92 => [⟨(fsEff xs w 24 : Int), 64⟩]
  | _ => []

/-- The face-store spans that a word writes. -/
def wordWrites (x : FaceSt) (w : Nat) (xs : List Nat) (d : List Byte) : List Span :=
  match wOp w with
  | 0x29 => drainWrites xs w
  | 0x42 => latWrites xs w (x.cfg (leAt d 0 1))
  | 0x60 | 0x61 | 0x63 => quantWrites (Qctl.of d) xs w
  | 0x90 => [⟨(fsEff xs w 24 : Int), 64⟩]
  | 0x91 => [⟨(fsEff xs w 24 : Int), min (0x40000 - fsEff xs w 24) (128 + 1024 * fld w 56 45)⟩]
  | 0xA0 => [rngSpan xs w]
  | 0xA1 => [⟨(fsEff xs w 24 : Int), 8⟩]
  | _ => []

/-- The accumulator banks that a word uses, bit per bank. -/
def usedBanks (x : FaceSt) (w : Nat) (d : List Byte) : Nat := if wOp w = 0x42 then cfgBanks (x.cfg (leAt d 0 1)) else wordBanks w

/-- A later word waits for an earlier one of the same bank: a matrix operation follows matrix operations, and QM.ESC takes
its place behind them, without waiting at issue (R114, R115, R123, R217). -/
def bankWaits (earlier later : Nat) : Bool := !(isMatrixOp earlier && (isMatrixOp later || later == 0x62))

/-- An incomplete issued word holds back a word that shares bytes or a bank with it (R108). -/
def hazardWith (x : FaceSt) (w : Nat) (xs : List Nat) (d : List Byte) (o : Op) : Bool :=
  let ow := wordWrites x o.word o.xs o.data
  let or := if isCopyOp (wOp o.word) then [] else wordReads x o.word o.xs o.data
  !o.done && (spansMeet ow (wordReads x w xs d ++ wordWrites x w xs d) || spansMeet or (wordWrites x w xs d) ||
    (bankWaits (wOp o.word) (wOp w) && (usedBanks x o.word o.data &&& usedBanks x w d) != 0))

/-- A word is held at issue by R108. -/
def hazard (x : FaceSt) (w : Nat) (d : List Byte) : Bool := x.issued.any (hazardWith x w x.xs d)

/-- The lattice runs an instruction (R219). -/
def latticeBusy (x : FaceSt) : Bool := x.issued.any fun o => !o.done && inLattice (wOp o.word)

/-- Incomplete entries of the matrix queue (R237). -/
def matrixQueue (x : FaceSt) : Nat := (x.issued.filter fun o => !o.done && inMatrixQueue (wOp o.word)).length

/-- Copy descriptors outstanding (R237). -/
def copiesOut (x : FaceSt) : Nat := (x.issued.filter fun o => !o.done && isCopyOp (wOp o.word)).length

/-- A face-store operand field is in the store and aligned, for a length (R126, R202). -/
def fsOk (xs : List Nat) (w lo al n : Nat) : Bool := fsEff xs w lo % al == 0 && decide (fsEff xs w lo + n ≤ 0x40000)

/-! ### Faults and stalls -/

/-- DETAIL of a fault of a word: for STORE_RANGE the device address of the first operand out of range or misaligned (R636). -/
def faultDetail (f w : Nat) (xs : List Nat) (spans : List Span) (code : Nat) : Nat :=
  if code ≠ 0x3003 then 0
  else match spans.find? fun sp => !sp.inStore with
    | some sp => toField 64 ((fsAddr f 0 : Int) + sp.off)
    | none => match (opFs w).find? fun e => fsEff xs w e.1 % e.2 != 0 with
      | some e => fsAddr f (fsEff xs w e.1)
      | none => toField 64 ((fsAddr f 0 : Int) + ((spans.head?.map (·.off)).getD 0))

/-- A word raises a fault of its context. -/
def wordFault (f h code w : Nat) (xs : List Nat) (d : List Byte) (s : State) : State :=
  let x := s.face f
  faceFault f h code (faultDetail f w xs (wordReads x w xs d ++ wordWrites x w xs d) code) s

/-- A hold at a bound of R237, counted by INFLIGHT_STALL. -/
def stall (f : Nat) (s : State) : State := s.tally (s.facePg f) 0x09

/-- A hold by R108, counted by HAZARD_STALL. -/
def hazardStall (f : Nat) (s : State) : State := s.tally (s.facePg f) 0x28

/-! ### Issue -/

/-- The face can take its next word: its context runs, it is not held or stopped, and the list goes on (R107, R196). -/
def State.canIssue (s : State) (f h : Nat) : Bool :=
  let x := s.face f
  x.hold == .none && (!x.redo.isEmpty || (!x.stopped && decide (x.pc < (s.run h).words)))

/-- Address of the next word of a face. -/
def State.nextAddr (s : State) (f h : Nat) : Nat := (s.run h).list + 16 * (s.face f).cur

/-- The next word of a face. -/
def State.nextWord (s : State) (f h : Nat) : Nat := s.ld (s.nextAddr f h) 16

/-- The next word of a face, when it is of a kind, issues: it waits while its COND flag reads 0 (R200) and while 32 words
are incomplete (R237); `act` takes the handle and the word. -/
def issueWith (f : Nat) (p : Nat → Bool) (act : Nat → Nat → State → State) (s : State) : State :=
  match s.faceCtx f with
  | none => s
  | some h =>
    if !s.canIssue f h then s
    else
      let w := s.nextWord f h
      readThen (s.nextAddr f h) 16 (some h) (fun t =>
        if !p w then t
        else if (t.face f).redo.isEmpty && wW w && !t.flag f (condRef f w) then t
        else if 32 ≤ (t.face f).issued.length then stall f t
        else act h w t) s

/-- The next word of a face issues when it has an opcode. -/
def issueOp (f op : Nat) (act : Nat → Nat → State → State) (s : State) : State := issueWith f (fun w => wOp w == op) act s

/-- A word that needs the spans it declares: it waits by R108, then raises its fault or goes on. -/
def issueChecked (f h w code : Nat) (d : List Byte) (go : State → State) (s : State) : State :=
  if hazard (s.face f) w d then hazardStall f s
  else if code ≠ 0 then wordFault f h code w (s.face f).xs d s
  else go s

/-! ### Completion -/

/-- The spans that a word reads as it runs: those it declares, and the words that QM.ESC fetches by the tap generator, which it does not
declare (R222, R277). -/
def wordFetches (x : FaceSt) (w : Nat) (xs : List Nat) (d : List Byte) : List Span :=
  wordReads x w xs d ++ if usesTap w && !isTapMma w then (tapWords w d).flatten.map fun (o : Nat) => ⟨(o : Int), 64⟩ else []

/-- The first word among spans of a face's store that holds an error. -/
def State.spansBad (s : State) (f : Nat) (sp : List Span) : Option Nat :=
  sp.findSome? fun p => if 0 ≤ p.off then s.ueIn (fsAddr f p.off.toNat) p.len else none

/-- The address ranges of spans of a face's store. -/
def spanRanges (f : Nat) (sp : List Span) : List (Nat × Nat) :=
  (sp.filter fun p => decide (0 ≤ p.off)).map fun p => (fsAddr f p.off.toNat, p.len)

/-- The first word among spans that a write would cover in part and that holds an error (R266). -/
def State.spansStuck (s : State) (f : Nat) (sp : List Span) : Option Nat :=
  sp.findSome? fun p => if 0 ≤ p.off then (s.stuckWords (fsAddr f p.off.toNat) p.len).head? else none

/-- An operation of a face completes for a context: the first incomplete record with a property. An uncorrectable error in
what it reads, or in a word that it writes in part, strikes in place of its effect (R127, R264; log entry 20). -/
def completeAt (f h : Nat) (p : Op → Bool) (act : Nat → Op → State → State × Nat) (s : State) : State :=
  match (s.face f).findOp fun o => !o.done && p o with
  | none => s
  | some (i, o) =>
    let x := s.face f
    match (s.spansBad f (wordFetches x o.word o.xs o.data)).orElse fun _ => s.spansStuck f (wordWrites x o.word o.xs o.data) with
    | some a => ueStrike a (some h) false s
    | none =>
      let r := act h o (s.correctAll (spanRanges f (wordFetches x o.word o.xs o.data)))
      if r.2 ≠ 0 then wordFault f h r.2 o.word o.xs o.data r.1
      else r.1.modFace f fun y => y.finishOp i

/-- An operation of a face of the running context completes. -/
def completeOp (f : Nat) (p : Op → Bool) (act : Nat → Op → State → State × Nat) (s : State) : State :=
  match s.faceCtx f with
  | none => s
  | some h => completeAt f h p act s

end Sys2Proof.Machine
end

