-- ==== Sys2Proof/Machine/Control.lean ====
section
/-! DEFINITION. The control, directive, flag and barrier words of a work list (R204-R214, R235), XLD, TIME.READ and the
reserved traps. -/
namespace Sys2Proof.Machine

/-- A word that only issues. -/
def plainWord (op f : Nat) (s : State) : State := issueOp f op (fun _ w t => issueNext f w true [] t) s

/-- NOP (R204). -/
def execNop (face : Face) (s : State) : Host.Outcome State Fault Refusal := .next (plainWord 0x00 face s)
/-- LISTHDR issues as a NOP (R196). -/
def execListhdr (face : Face) (s : State) : Host.Outcome State Fault Refusal := .next (plainWord 0x0F face s)
/-- LIVE issues as a NOP (R233). -/
def execLive (face : Face) (s : State) : Host.Outcome State Fault Refusal := .next (plainWord 0x08 face s)
/-- EXTERN issues as a NOP (R233, R235). -/
def execExternDir (face : Face) (s : State) : Host.Outcome State Fault Refusal := .next (plainWord 0x09 face s)

/-- STOP ends the list; the position stays at the STOP (R210). -/
def stopWord (f : Nat) (_h w : Nat) (s : State) : State := s.modFace f fun x => { x.advance (mkOp x w true []) x.pc with stopped := true }

/-- STOP (R210). -/
def execStop (face : Face) (s : State) : Host.Outcome State Fault Refusal := .next (issueOp face 0x01 (stopWord face) s)

/-- The position after the ENDLOOP that closes the loop open at a position; `n` bounds the words looked at. -/
def State.afterEndloop (s : State) (list : Nat) : Nat → Nat → Nat → Nat
  | 0, pos, _ => pos
  | n + 1, pos, depth =>
    let o := wOp (s.ld (list + 16 * pos) 16)
    if o = 0x02 then s.afterEndloop list n (pos + 1) (depth + 1)
    else if o = 0x03 then (if depth = 0 then pos + 1 else s.afterEndloop list n (pos + 1) (depth - 1))
    else s.afterEndloop list n (pos + 1) depth

/-- The count of a LOOP (R206, R207). -/
def loopCount (xs : List Nat) (w : Nat) : Nat := if fld w 30 28 = 0 then fld w 47 32 else xreg xs (fld w 30 28)

/-- LOOP sets its counter and loop start, skips the loop on 0, or raises INDEX_RANGE (R207). -/
def loopWord (f h w : Nat) (s : State) : State :=
  let x := s.face f
  let n := loopCount x.xs w
  let k := fld w 25 24
  if 65535 < n then wordFault f h 0x5004 w x.xs [] s
  else
    let pc := if n = 0 then s.afterEndloop (s.run h).list (s.run h).words (x.pc + 1) 0 else x.pc + 1
    s.modFace f fun y =>
      { y.advance (mkOp y w true []) pc with
        lcs := setNth y.lcs k n
        lstart := if n = 0 then y.lstart else setNth y.lstart k (x.pc + 1) }

/-- LOOP (R207). -/
def execLoop (face : Face) (s : State) : Host.Outcome State Fault Refusal := .next (issueOp face 0x02 (loopWord face) s)

/-- ENDLOOP decrements its counter, of 16 bits, and returns to the loop start while it is nonzero (R207). -/
def endloopWord (f _h w : Nat) (s : State) : State :=
  let k := fld w 25 24
  s.modFace f fun x =>
    let n := (nth 0 x.lcs k + 65535) % 65536
    { x.advance (mkOp x w true []) (if n ≠ 0 then nth 0 x.lstart k else x.pc + 1) with lcs := setNth x.lcs k n }

/-- ENDLOOP (R207). -/
def execEndloop (face : Face) (s : State) : Host.Outcome State Fault Refusal := .next (issueOp face 0x03 (endloopWord face) s)

/-- The condition of a BRANCH holds (R206). -/
def branchTaken (x : FaceSt) (w : Nat) : Bool := match fld w 27 26 with
  | 0 => nth 0 x.lcs (fld w 25 24) == 0
  | 1 => nth 0 x.lcs (fld w 25 24) != 0
  | _ => true

/-- Where a BRANCH at a position leads when it is taken (R206, R207). -/
def branchTarget (pos w : Nat) : Nat := ((pos : Int) + sext 20 (fld w 51 32)).toNat

/-- BRANCH jumps when its condition holds (R207). -/
def branchWord (f _h w : Nat) (s : State) : State :=
  s.modFace f fun x => x.advance (mkOp x w true []) (if branchTaken x w then branchTarget x.pc w else x.pc + 1)

/-- BRANCH (R207). -/
def execBranch (face : Face) (s : State) : Host.Outcome State Fault Refusal := .next (issueOp face 0x04 (branchWord face) s)

/-- STEP adds 1 to the step counter (R208); in a BATCH context the face then holds until the member table is written, and the
last face brings about the step boundary (R346). -/
def stepWord (f h w : Nat) (s : State) : State :=
  let batch := (s.ctx h).batch
  let s1 := s.modFace f fun x =>
    { x.advance (mkOp x w true []) (x.pc + 1) with step := (x.step + 1) % 2 ^ 64, hold := if batch then .step else .none }
  if batch then batchBoundary h s1 else s1

/-- STEP (R208). -/
def execStep (face : Face) (s : State) : Host.Outcome State Fault Refusal := .next (issueOp face 0x05 (stepWord face) s)

/-- XSET and XADD write an index register (R208). -/
def xWord (f _h w : Nat) (s : State) : State :=
  let k := fld w 26 24
  s.modFace f fun x =>
    { x.advance (mkOp x w true []) (x.pc + 1) with
      xs := setNth x.xs k (if wOp w = 0x06 then fld w 63 32 else (xreg x.xs k + fld w 63 32) % 2 ^ 32) }

/-- XSET (R208). -/
def execXset (face : Face) (s : State) : Host.Outcome State Fault Refusal := .next (issueOp face 0x06 (xWord face) s)
/-- XADD (R208). -/
def execXadd (face : Face) (s : State) : Host.Outcome State Fault Refusal := .next (issueOp face 0x07 (xWord face) s)

/-- XLD starts and holds issue (R209). -/
def xldWord (f h w : Nat) (s : State) : State :=
  issueChecked f h w (if fsOk (s.face f).xs w 27 4 4 then 0 else 0x3003) [] (fun t => t.modFace f fun x => { x with hold := .xld }) s

/-- XLD (R209). -/
def execXld (face : Face) (s : State) : Host.Outcome State Fault Refusal := .next (issueOp face 0x0A (xldWord face) s)

/-- The value of an XLD: bits [SHIFT + WIDTH_M1 : SHIFT] of the word at SRC (R209). -/
def xldValue (s : State) (f : Nat) (xs : List Nat) (w : Nat) : Nat :=
  fld (s.ld (fsAddr f (fsEff xs w 27)) 4) (fld w 52 48 + fld w 57 53) (fld w 52 48)

/-- The XLD that a face of a context holds on writes its index register (R209). -/
def xldAt (f h : Nat) (s : State) : State :=
  let x := s.face f
  if x.hold ≠ .xld then s
  else
    let w := s.nextWord f h
    readThen (fsAddr f (fsEff x.xs w 27)) 4 (some h) (fun t => t.modFace f fun y =>
      { y.advance (mkOp y w true []) (y.pc + 1) with xs := setNth y.xs (fld w 26 24) (xldValue s f x.xs w), hold := .none }) s

/-- An XLD writes its index register and issue goes on (R209). -/
def xldDone (f : Nat) (s : State) : State := match s.faceCtx f with
  | none => s
  | some h => xldAt f h s

/-- XLD_COMPLETE (R209). -/
def execXldComplete (face : Face) (s : State) : Host.Outcome State Fault Refusal := .next (xldDone face s)

/-! ### Flags and barriers -/

/-- The flag that a SIG or WAIT names, with its index register added; the sum is not reduced, so that one of 2^32 or more is out of range
(R213). -/
def sigFlag (xs : List Nat) (w : Nat) : FlagRef :=
  let r := sigRef w
  { r with index := if fld w 45 43 = 0 then r.index else r.index + xreg xs (fld w 45 43) }

/-- A drift lies in a partition: one of its stopes does (R213). -/
def State.driftInPart (s : State) (p d : Nat) : Bool := (s.partStopes p).any fun st => st / 4 == d

/-- A flag names a gallery outside the partition of a context (R213, R224). -/
def State.flagOutside (s : State) (h : Nat) (r : FlagRef) : Bool := r.space == 2 && !s.driftInPart (s.ctx h).part r.drift

/-- A SIG acts: it sets its flag, or clears it with POL 1 (R211, R212). -/
def sigAct (f w : Nat) (xs : List Nat) (s : State) : State := s.setFlag f (sigFlag xs w) (!bit w 41)

/-- SIG: INDEX_RANGE, FLAG_SCOPE, or it acts at once with EARLY and otherwise waits to act (R212, R213). -/
def sigWord (f h w : Nat) (s : State) : State :=
  let xs := (s.face f).xs
  let r := sigFlag xs w
  if !r.listed then wordFault f h 0x5004 w xs [] s
  else if s.flagOutside h r then wordFault f h 0x5003 w xs [] s
  else if bit w 42 then sigAct f w xs (issueNext f w true [] s)
  else issueNext f w false [] s

/-- SIG (R212). -/
def execSig (face : Face) (s : State) : Host.Outcome State Fault Refusal := .next (issueOp face 0x10 (sigWord face) s)

/-- A SIG that every earlier word has left behind acts (R212). -/
def sigDone (f : Nat) (s : State) : State :=
  match s.faceCtx f, (s.face f).issued with
  | some _, o :: _ => if wOp o.word = 0x10 then (sigAct f o.word o.xs s).modFace f fun x => x.finishOp 0 else s
  | _, _ => s

/-- SIG_ACT (R212). -/
def execSigAct (face : Face) (s : State) : Host.Outcome State Fault Refusal := .next (sigDone face s)

/-- WAIT holds issue, or raises INDEX_RANGE (R213). -/
def waitWord (f h w : Nat) (s : State) : State :=
  let xs := (s.face f).xs
  if !(sigFlag xs w).listed then wordFault f h 0x5004 w xs [] s else s.modFace f fun x => { x with hold := .wait }

/-- WAIT (R213). -/
def execWait (face : Face) (s : State) : Host.Outcome State Fault Refusal := .next (issueOp face 0x11 (waitWord face) s)

/-- The flag of a WAIT reads its awaited value (R213). -/
def waitMet (s : State) (f w : Nat) (xs : List Nat) : Bool := s.flag f (sigFlag xs w) == !bit w 41

/-- A WAIT whose flag reads the awaited value ends; CONSUME clears the local flag (R211, R213). -/
def waitDone (f : Nat) (s : State) : State :=
  match s.faceCtx f with
  | none => s
  | some h =>
    let x := s.face f
    let w := s.nextWord f h
    if x.hold ≠ .wait ∨ !waitMet s f w x.xs then s
    else
      let s1 := if bit w 42 then s.setFlag f (sigFlag x.xs w) false else s
      s1.modFace f fun y => { y.advance (mkOp y w true []) (y.pc + 1) with hold := .none }

/-- WAIT_SATISFIED (R213). -/
def execWaitSatisfied (face : Face) (s : State) : Host.Outcome State Fault Refusal := .next (waitDone face s)

/-- BAR holds issue (R214). -/
def barWord (f _h w : Nat) (s : State) : State := s.modFace f fun x => { x with hold := .bar (fld w 27 24) }

/-- BAR (R214). -/
def execBar (face : Face) (s : State) : Host.Outcome State Fault Refusal := .next (issueOp face 0x12 (barWord face) s)

/-- A face leaves a barrier: its count of the BID rises, modulo 256 (R214, R338). -/
def FaceSt.leaveBar (x : FaceSt) (bid w : Nat) : FaceSt :=
  { x.advance (mkOp x w true []) (x.pc + 1) with hold := .none, bars := setNth x.bars bid ((nth 0 x.bars bid + 1) % 256) }

/-- All faces of a running context hold on one barrier: they end it together (R214). -/
def barRelease (h bid : Nat) (s : State) : State :=
  let fs := (s.run h).faces
  if fs != [] && fs.all fun f => s.faceCtx f == some h && (s.face f).hold == .bar bid then
    fs.foldl (fun t f => t.modFace f fun x => x.leaveBar bid (s.nextWord f h)) s
  else s

/-- BARRIER_RELEASE (R214). -/
def execBarrierRelease (handle : Handle) (bid : Fin 16) (s : State) : Host.Outcome State Fault Refusal := .next (barRelease handle bid s)

/-! ### TIME.READ and the traps -/

/-- TIME.READ writes the time-unit reading (R230). -/
def timeWord (f h w : Nat) (s : State) : State :=
  let xs := (s.face f).xs
  issueChecked f h w (if fsOk xs w 24 8 8 then 0 else 0x3003) []
    (fun t => (issueNext f w true [] t).st (fsAddr f (fsEff xs w 24)) 8 s.reading) s

/-- TIME_READ (R230). -/
def execTimeRead (face : Face) (s : State) : Host.Outcome State Fault Refusal := .next (issueOp face 0xA1 (timeWord face) s)

/-- A reserved trap opcode tears down the context (R204). -/
def trapWord (f h w : Nat) (s : State) : State := wordFault f h 0x5001 w (s.face f).xs [] s

/-- ILLEGAL_OPCODE (R204). -/
def execIllegalOpcode (face : Face) (s : State) : Host.Outcome State Fault Refusal :=
  .next (issueWith face (fun w => decide (0xF0 ≤ wOp w)) (trapWord face) s)

end Sys2Proof.Machine
end

