-- ==== Sys2Proof/Machine/CopyWords.lean ====
section
/-! DEFINITION. The hoist words and GALLERY.ADDU at issue (R223, R224, R228, R230, R237). -/
namespace Sys2Proof.Machine

/-- Descriptors that a hoist holds queued: those it has not taken (R237, R258). -/
def State.hoistQueued (s : State) (h : Nat) : Nat := ((s.hoist h).filter fun j => !j.taken).length

/-- The faces whose next word waits at the bound of a hoist (R237). -/
def State.hoistWaiters (s : State) (h : Nat) : List Nat :=
  (List.range 512).filter fun f => (s.face f).hoistWait == some h && (s.faceCtx f).isSome

/-- The waiting faces that are admitted before a face: those below it, and all of them before one that does not wait (R237). -/
def State.hoistBefore (s : State) (h f : Nat) : Nat :=
  let w := (s.hoistWaiters h).filter (· != f)
  (if (s.face f).hoistWait = some h then w.filter (decide <| · < f) else w).length

/-- A copy word needs an entry of its face and of its hoist: faces that wait at the hoist are admitted first, in ascending order; a hold
there is counted on both pages (R237). -/
def copyBound (f hoist : Nat) (s : State) : Option State :=
  if 16 ≤ copiesOut (s.face f) then some (stall f s)
  else if 32 ≤ s.hoistQueued hoist + s.hoistBefore hoist f then
    some (((stall f s).tally (hoistPage hoist) 0x09).modFace f fun x => { x with hoistWait := some hoist })
  else none

/-- A copy word issues: its job joins the hoist's queue under a number that its record keeps. -/
def queueCopy (f h w hoist doff : Nat) (desc : List Byte) (s : State) : State :=
  let id := s.jobSeq
  let pos := (s.face f).cur
  let s1 := s.modFace f fun x => x.advance { mkOp x w false desc with progress := id } (x.pc + 1)
  let s2 : State := { s1 with jobSeq := id + 1 }
  s2.setHoist hoist
    (s.hoist hoist ++ [{ id := id, face := f, handle := h, pos := pos, word := w, desc := desc, doff := doff }])

/-- A hoist word reads its descriptor and queues it (R223, R224); a done flag outside the partition is FLAG_SCOPE. -/
def hoistWord (f h w : Nat) (s : State) : State :=
  let xs := (s.face f).xs
  if 16 ≤ copiesOut (s.face f) then stall f s
  else if hazard (s.face f) w [] then hazardStall f s
  else if !fsOk xs w 24 32 32 then wordFault f h 0x3003 w xs [] s
  else if bit w 48 && s.flagOutside h (hoistDoneRef w) then wordFault f h 0x5003 w xs [] s
  else
    let o := fsEff xs w 24
    let d := s.fsBytes f o 32
    let k := jobHoist f w (leNat d)
    readThen (fsAddr f o) 32 (some h) (fun u => (copyBound f k u).getD (queueCopy f h w k o d u)) s

/-- HOIST_2D (R223). -/
def execHoist2d (face : Face) (s : State) : Host.Outcome State Fault Refusal := .next (issueOp face 0x70 (hoistWord face) s)
/-- HOIST_3D (R223). -/
def execHoist3d (face : Face) (s : State) : Host.Outcome State Fault Refusal := .next (issueOp face 0x71 (hoistWord face) s)
/-- HOIST_GATHER (R223). -/
def execHoistGather (face : Face) (s : State) : Host.Outcome State Fault Refusal := .next (issueOp face 0x72 (hoistWord face) s)
/-- HOIST_HALO (R223). -/
def execHoistHalo (face : Face) (s : State) : Host.Outcome State Fault Refusal := .next (issueOp face 0x73 (hoistWord face) s)

/-- GALLERY.ADDU joins its stope hoist's queue (R230). -/
def adduWord (f h w : Nat) (s : State) : State :=
  let xs := (s.face f).xs
  match copyBound f (adduHoist f) s with
  | some t => t
  | none =>
    if !fsOk xs w 24 64 (4 * (fld w 83 72 + 1)) then wordFault f h 0x3003 w xs [] s
    else if bit w 86 && s.flagOutside h (adduDoneRef w) then wordFault f h 0x5003 w xs [] s
    else queueCopy f h w (adduHoist f) (fsEff xs w 24) [] s

/-- GALLERY_ADDU (R230). -/
def execGalleryAddu (face : Face) (s : State) : Host.Outcome State Fault Refusal := .next (issueOp face 0xA2 (adduWord face) s)

end Sys2Proof.Machine
end

