-- ==== Sys2Proof/Machine/LatticeWords.lean ====
section
/-! DEFINITION. The lattice and quantisation words and RNG (R139-R143, R169-R192, R218-R222, R229): issue and completion. -/
namespace Sys2Proof.Machine

/-- A lattice word waits while the lattice runs an instruction (R219). -/
def latticeWord (f : Nat) (go : State → State) (s : State) : State := if latticeBusy (s.face f) then stall f s else go s

/-- CFG.LOAD starts (R140). -/
def cfgLoadWord (f h w : Nat) (s : State) : State :=
  latticeWord f (issueChecked f h w (if fsOk (s.face f).xs w 26 64 2048 then 0 else 0x3003) [] (issueNext f w false [])) s

/-- CFG_LOAD (R140). -/
def execCfgLoad (face : Face) (s : State) : Host.Outcome State Fault Refusal := .next (issueOp face 0x40 (cfgLoadWord face) s)

/-- A configuration copied into its slot, where it is valid when its checks pass (R139, R140). -/
def runCfgLoad (f : Nat) (o : Op) (s : State) : State × Nat :=
  let off := fsEff o.xs o.word 26
  let c := s.fsBytes f off 2048
  (s.modFace f fun x => { x with cfgs := setNth x.cfgs (fld o.word 25 24) { src := off, bytes := c, valid := cfgOk c } },
    if cfgOk c then 0 else 0x3001)

/-- The CFG.LOAD of a face ends (R139). -/
def cfgLoadDone (f : Nat) (s : State) : State := completeOp f (fun o => wOp o.word == 0x40) (fun _ o t => runCfgLoad f o t) s

/-- CFG_LOAD_COMPLETE (R139). -/
def execCfgLoadComplete (face : Face) (s : State) : Host.Outcome State Fault Refusal := .next (cfgLoadDone face s)

/-- A resident slot holds a valid configuration (R140). -/
def FaceSt.cfgValid (x : FaceSt) (k : Nat) : Bool := (nth {} x.cfgs k).valid

/-- CFG.SEL selects a slot, or raises CFG_EMPTY (R140). -/
def cfgSelWord (f h w : Nat) (s : State) : State :=
  latticeWord f (fun t =>
    if (t.face f).cfgValid (fld w 25 24) then (issueNext f w true [] t).modFace f fun x => { x with cfgSel := fld w 25 24 }
    else wordFault f h 0x3002 w (t.face f).xs [] t) s

/-- CFG_SEL (R140). -/
def execCfgSel (face : Face) (s : State) : Host.Outcome State Fault Refusal := .next (issueOp face 0x41 (cfgSelWord face) s)

/-- LAT.RUN starts the selected configuration, or raises CFG_EMPTY, CARRY_LONG or STORE_RANGE (R140, R142, R220). -/
def latRunWord (f h w : Nat) (s : State) : State :=
  latticeWord f (fun t =>
    let x := t.face f
    let d := leBytes 1 x.cfgSel
    if !x.cfgValid x.cfgSel then wordFault f h 0x3002 w x.xs d t
    else issueChecked f h w (latCheck x.xs w (x.cfg x.cfgSel)) d (issueNext f w false d) t) s

/-- LAT_RUN (R130). -/
def execLatRun (face : Face) (s : State) : Host.Outcome State Fault Refusal := .next (issueOp face 0x42 (latRunWord face) s)

/-- What a LAT.RUN leaves from the iteration it had reached (R130, R141). -/
def latEffect (f _h : Nat) (o : Op) (s : State) : State × Nat :=
  (runLat f o.word o.xs ((s.face f).cfg (leAt o.data 0 1)) o.progress (latCount o.word) s, 0)

/-- The LAT.RUN of a face ends: it runs from the iteration it had reached (R130, R141). -/
def latRunDone (f : Nat) (s : State) : State :=
  completeOp f (fun o => wOp o.word == 0x42)
    (latEffect f) s

/-- LAT_RUN_COMPLETE (R130). -/
def execLatRunComplete (face : Face) (s : State) : Host.Outcome State Fault Refusal := .next (latRunDone face s)

/-! ### Quantisation -/

/-- A quantisation word reads its control record, is checked and starts (R167, R168, R221). -/
def quantWord (f h w : Nat) (s : State) : State :=
  latticeWord f (fun t =>
    let xs := (t.face f).xs
    let a := fsAddr f (qCtlOff w)
    let d := t.ldBytes a 16
    if hazard (t.face f) w d then hazardStall f t
    else readThen a 16 (some h) (fun u =>
      let c := quantCheck (Qctl.of d) xs w
      if c ≠ 0 then wordFault f h c w xs d u else issueNext f w false d u) t) s

/-- QM_MEASURE (R170). -/
def execQmMeasure (face : Face) (s : State) : Host.Outcome State Fault Refusal := .next (issueOp face 0x60 (quantWord face) s)
/-- QM_CONVERT (R173). -/
def execQmConvert (face : Face) (s : State) : Host.Outcome State Fault Refusal := .next (issueOp face 0x61 (quantWord face) s)
/-- QM_REBLOCK (R188). -/
def execQmReblock (face : Face) (s : State) : Host.Outcome State Fault Refusal := .next (issueOp face 0x63 (quantWord face) s)

/-- The quantisation instruction of a face ends: its rows and statistics are written, or a row is QROW_INVALID (R169, R191). -/
def quantDone (f : Nat) (s : State) : State :=
  completeOp f (fun o => isQuantWord (wOp o.word)) (quantEffect f) s

/-- QM_COMPLETE (R191). -/
def execQmComplete (face : Face) (s : State) : Host.Outcome State Fault Refusal := .next (quantDone face s)

/-- QM.ESC starts, with the data of its tap slot when TAP is 1 (R222). -/
def escWord (f h w : Nat) (s : State) : State :=
  latticeWord f (fun t =>
    let x := t.face f
    match if bit w 119 then tapData x (fld w 120 120) else some [] with
    | none => wordFault f h 0x7003 w x.xs [] t
    | some d => issueChecked f h w (escCheck x.xs w d) d (issueNext f w false d) t) s

/-- QM_ESC (R222). -/
def execQmEsc (face : Face) (s : State) : Host.Outcome State Fault Refusal := .next (issueOp face 0x62 (escWord face) s)

/-- An earlier matrix operation of the bank of a QM.ESC is incomplete: the bank is not ready (R123). -/
def bankPending : List Op → Bool
  | [] => false
  | o :: r =>
    if wOp o.word = 0x62 && !o.done then false
    else (!o.done && isMatrixOp (wOp o.word) && (match r.find? fun q => wOp q.word == 0x62 && !q.done with
      | some q => (wordBanks o.word &&& wordBanks q.word) != 0
      | none => false)) || bankPending r

/-- The QM.ESC of a face ends once its bank is ready (R123, R222). -/
def escDone (f : Nat) (s : State) : State :=
  if bankPending (s.face f).issued then s
  else completeOp f (fun o => wOp o.word == 0x62) (fun _ o t => runEsc f o.word o.xs o.data o.progress none t) s

/-- QM_ESC_COMPLETE (R123). -/
def execQmEscComplete (face : Face) (s : State) : Host.Outcome State Fault Refusal := .next (escDone face s)

/-! ### RNG -/

/-- RNG starts (R229). -/
def rngWord (f h w : Nat) (s : State) : State :=
  issueChecked f h w (if fsOk (s.face f).xs w 24 64 (rngCount w * rngWidth w) then 0 else 0x3003) [] (issueNext f w false []) s

/-- RNG (R229). -/
def execRng (face : Face) (s : State) : Host.Outcome State Fault Refusal := .next (issueOp face 0xA0 (rngWord face) s)

/-- Elements `lo` up to `hi` of an RNG word written (R229). -/
def runRng (f h : Nat) (o : Op) (lo hi : Nat) (s : State) : State :=
  s.stFs f (fsEff o.xs o.word 24 + lo * rngWidth o.word) (rngBytes (s.run h).seed o.step o.xs o.word lo hi)

/-- The oldest RNG of a face has written its last group (R229). -/
def rngDone (f : Nat) (s : State) : State :=
  completeOp f (fun o => wOp o.word == 0xA0) (fun h o t => (runRng f h o o.progress (rngCount o.word) t, 0)) s

/-- RNG_COMPLETE (R229). -/
def execRngComplete (face : Face) (s : State) : Host.Outcome State Fault Refusal := .next (rngDone face s)

end Sys2Proof.Machine
end

