-- ==== Sys2Proof/Machine/MatrixWords.lean ====
section
/-! DEFINITION. The matrix, accumulator and tap words (R114-R121, R215-R217, R225, R226, R272-R276): issue and completion. -/
namespace Sys2Proof.Machine

/-- A matrix word enters the matrix queue with the data of its tap slot, if it has one (R217, R237). -/
def enterMma (f h w : Nat) (d : List Byte) (s : State) : State :=
  if 8 ≤ matrixQueue (s.face f) then stall f s
  else issueChecked f h w (mmaCheck (s.face f).xs w d) d (issueNext f w false d) s

/-- MMA.I8, MMA.G4 and MMA.G4P (R114, R216). -/
def mmaWord (f h w : Nat) (s : State) : State := enterMma f h w [] s

/-- TAP.MMA takes its slot's descriptor and origin, or raises TAP_EMPTY (R226, R276). -/
def tapMmaWord (f h w : Nat) (s : State) : State :=
  match tapData (s.face f) (fld w 53 53) with
  | none => if 8 ≤ matrixQueue (s.face f) then stall f s else wordFault f h 0x7003 w (s.face f).xs [] s
  | some d => enterMma f h w d s

/-- MMA_I8 (R114). -/
def execMmaI8 (face : Face) (s : State) : Host.Outcome State Fault Refusal := .next (issueOp face 0x20 (mmaWord face) s)
/-- MMA_G4 (R114). -/
def execMmaG4 (face : Face) (s : State) : Host.Outcome State Fault Refusal := .next (issueOp face 0x21 (mmaWord face) s)
/-- MMA_G4P (R114). -/
def execMmaG4p (face : Face) (s : State) : Host.Outcome State Fault Refusal := .next (issueOp face 0x22 (mmaWord face) s)
/-- TAP_MMA_I8 (R276). -/
def execTapMmaI8 (face : Face) (s : State) : Host.Outcome State Fault Refusal := .next (issueOp face 0x82 (tapMmaWord face) s)
/-- TAP_MMA_G4P (R276). -/
def execTapMmaG4p (face : Face) (s : State) : Host.Outcome State Fault Refusal := .next (issueOp face 0x83 (tapMmaWord face) s)

/-- What a matrix operation leaves (R114). -/
def mmaEffect (f _h : Nat) (o : Op) (s : State) : State × Nat := (runMma f o.word o.xs o.data s, 0)

/-- The oldest matrix operation of a face has added its steps, and its bank is ready (R114). -/
def mmaReady (f : Nat) (s : State) : State :=
  completeOp f (fun o => isMatrixOp (wOp o.word)) (mmaEffect f) s

/-- MATRIX_OP_READY (R114). -/
def execMatrixOpReady (face : Face) (s : State) : Host.Outcome State Fault Refusal := .next (mmaReady face s)

/-- ACC.CLR enters the matrix queue and clears its banks when it reaches the head, at once when nothing stands before it (R118, R237). -/
def accClrWord (f h w : Nat) (s : State) : State :=
  if 8 ≤ matrixQueue (s.face f) then stall f s
  else issueChecked f h w 0 [] (issueNext f w false []) s

/-- ACC_CLR (R118). -/
def execAccClr (face : Face) (s : State) : Host.Outcome State Fault Refusal := .next (issueOp face 0x28 (accClrWord face) s)

/-- The fault of a drain at issue: its output and its scale vector lie in the store, aligned (R126, R215). -/
def drainCheck (xs : List Nat) (w : Nat) : Nat :=
  if fsOk xs w 28 64 (256 * drainWidth w) && (fld w 27 26 == 3 || fsOk xs w 49 64 128) then 0 else 0x3003

/-- ACC.DRAIN enters the matrix queue (R120, R217). -/
def drainWord (f h w : Nat) (s : State) : State :=
  if 8 ≤ matrixQueue (s.face f) then stall f s
  else issueChecked f h w (drainCheck (s.face f).xs w) [] (issueNext f w false []) s

/-- ACC_DRAIN (R120). -/
def execAccDrain (face : Face) (s : State) : Host.Outcome State Fault Refusal := .next (issueOp face 0x29 (drainWord face) s)

/-- What a drain leaves; a SH above 62 is CFG_INVALID and writes nothing (R120, R121). -/
def drainEffect (f _h : Nat) (o : Op) (s : State) : State × Nat :=
  if drainInvalid s f o.word o.xs then (s, 0x3001) else (runDrain f o.word o.xs s, 0)

/-- The oldest drain of a face has written its last group (R121). -/
def drainDone (f : Nat) (s : State) : State :=
  completeOp f (fun o => wOp o.word == 0x29) (drainEffect f) s

/-- DRAIN_COMPLETE (R121). -/
def execDrainComplete (face : Face) (s : State) : Host.Outcome State Fault Refusal := .next (drainDone face s)

/-! ### Tap slots -/

/-- The content of a tap slot as a tap word's record keeps it, so that a withdrawn word can be undone (R110, R226). -/
def tapBefore (x : FaceSt) (k : Nat) : List Byte :=
  let t := nth {} x.taps k
  leBytes 1 (b2n t.desc.isSome) ++ (t.desc.getD (List.replicate 64 0)) ++ leBytes 2 t.ox ++ leBytes 2 t.oy

/-- The slot that `tapBefore` recorded. -/
def tapOfBefore (d : List Byte) : TapSlot :=
  { desc := if leAt d 0 1 = 1 then some (sliceL d 1 64) else none, ox := leAt d 65 2, oy := leAt d 67 2 }

/-- A tap slot changed by a tap word, which is complete when no matrix-queue entry stands before it (R226). -/
def issueTap (f w : Nat) (g : TapSlot → TapSlot) (s : State) : State :=
  let k := fld w 24 24
  s.modFace f fun x =>
    { x.advance (mkOp x w false (tapBefore x k)) (x.pc + 1) with taps := setNth (tapsAfter x.taps w) k { g (nth {} x.taps k) with fresh := true } }

/-- TAP.SET copies and checks a descriptor, keeping the origin, or raises TAP_DESC (R272). -/
def tapSetWord (f h w : Nat) (s : State) : State :=
  let x := s.face f
  if 8 ≤ matrixQueue x then stall f s
  else issueChecked f h w (if fsOk x.xs w 25 64 64 then 0 else 0x3003) [] (fun t =>
    let a := fsAddr f (fsEff x.xs w 25)
    let d := t.ldBytes a 64
    readThen a 64 (some h) (fun u =>
      if tapOk d then issueTap f w (fun y => { y with desc := some d }) u else wordFault f h 0x7001 w x.xs [] u) t) s

/-- TAP_SET (R272). -/
def execTapSet (face : Face) (s : State) : Host.Outcome State Fault Refusal := .next (issueOp face 0x80 (tapSetWord face) s)

/-- TAP.POS sets an origin (R273). -/
def tapPosWord (f _h w : Nat) (s : State) : State :=
  let xs := (s.face f).xs
  if 8 ≤ matrixQueue (s.face f) then stall f s
  else issueTap f w (fun y =>
    { y with ox := (fld w 40 25 + xreg xs (fld w 59 57)) % 65536, oy := (fld w 56 41 + xreg xs (fld w 62 60)) % 65536 }) s

/-- TAP_POS (R273). -/
def execTapPos (face : Face) (s : State) : Host.Outcome State Fault Refusal := .next (issueOp face 0x81 (tapPosWord face) s)

end Sys2Proof.Machine
end

