-- ==== Sys2Proof/Machine/Raster.lean ====
section
/-! DEFINITION. The raster pipeline (R421-R443): jobs, binning, claims, fragments and releases, and the raster words (R227). -/
namespace Sys2Proof.Machine

/-! ### Job descriptors (R422) -/

/-- A 40-bit address of the descriptor. -/
def rasAddr (d : List Byte) (o : Nat) : Nat := leAt d o 8 % 2 ^ 40
/-- PART of the descriptor. -/
def rasPart (d : List Byte) : Nat := fld (leAt d 4 4) 5 0
/-- CULL. -/
def rasCull (d : List Byte) : Nat := fld (leAt d 4 4) 9 8
/-- CLEAR. -/
def rasClear (d : List Byte) : Bool := bit (leAt d 4 4) 12
/-- RESOLVE. -/
def rasResolve (d : List Byte) : Bool := bit (leAt d 4 4) 13
/-- CFMT. -/
def rasCfmt (d : List Byte) : Nat := fld (leAt d 4 4) 17 16
/-- DEPTH_EN. -/
def rasDepth (d : List Byte) : Bool := bit (leAt d 4 4) 18
/-- NPRIM. -/
def rasNprim (d : List Byte) : Nat := fld (leAt d 0x10 4) 23 0
/-- WIDTH. -/
def rasWidth (d : List Byte) : Nat := fld (leAt d 0x14 4) 14 0
/-- HEIGHT. -/
def rasHeight (d : List Byte) : Nat := fld (leAt d 0x14 4) 29 16
/-- TILES_X. -/
def tilesX (d : List Byte) : Nat := ceilDiv (rasWidth d) 32
/-- TILES_Y. -/
def tilesY (d : List Byte) : Nat := ceilDiv (rasHeight d) 32
/-- Screen tiles of the surface. -/
def tileCount (d : List Byte) : Nat := tilesX d * tilesY d
/-- Blocks of 256 bytes in the region (R430). -/
def regionBlocks (d : List Byte) : Nat := fld (leAt d 0x40 4) 12 0 * 256
/-- The first list block, after the head table (R430). -/
def firstBlock (d : List Byte) : Nat := ceilDiv (8 * tileCount d) 256
/-- EXTRA_U in bytes. -/
def rasExtra (d : List Byte) : Nat := 64 * fld (leAt d 0x58 4) 8 0
/-- WORK. -/
def rasWork (d : List Byte) : Nat := fld (leAt d 0x54 4) 17 0
/-- A gallery flag of the descriptor at a bit of a word: drift and index. -/
def rasFlag (d : List Byte) (o lo : Nat) : Nat × Nat := (fld (leAt d o 4) (lo + 14) (lo + 12), fld (leAt d o 4) (lo + 11) lo)

/-- The bits that each word of a descriptor names; the others are reserved (R422). -/
def rasMasks : List Nat :=
  [0x00FFFFFF, 0x0007333F, 0xFFFFFFFF, 0xFF, 0x00FFFFFF, 0x3FFF7FFF, 0xFFFFFFFF, 0xFF, 0x00FFFFFF, 0x00FFFFFF, 0xFFFFFFFF, 0xFF,
    0xFFFFFFFF, 0xFF, 0xFFFFFFFF, 0xFF, 0x1FFF, 0xFFFFFFFF, 0x00FFFFFF, 0xFFFFFFFF, 0xFFFFFFFF, 0x3FFFF, 0x1FF, 0,
    0xFFFFFFFF, 0xFF, 0x7FFF7FFF, 0x7FFF, 0xFFFFFFFF, 0xFF, 0, 0]

/-- The descriptor passes its checks (R423). -/
def rasDescOk (d : List Byte) : Bool :=
  leAt d 0 2 == 0x5241 && leAt d 2 1 == 1 &&
  ((List.range 32).all fun k => leAt d (4 * k) 4 &&& nth 0 rasMasks k == leAt d (4 * k) 4) &&
  decide (rasPart d < 32) && rasCull d != 3 && rasCfmt d != 3 && rasNprim d != 0 &&
  decide (1 ≤ rasWidth d ∧ rasWidth d ≤ 16384 ∧ 1 ≤ rasHeight d ∧ rasHeight d ≤ 8192) &&
  decide (1 ≤ fld (leAt d 0x40 4) 12 0 ∧ fld (leAt d 0x40 4) 12 0 ≤ 4096) && decide (rasExtra d ≤ 64 * 256) &&
  ([0x08, 0x18, 0x28, 0x30, 0x60, 0x70].all fun o => rasAddr d o % 64 == 0) && rasAddr d 0x38 % 65536 == 0 &&
  leAt d 0x20 4 % 64 == 0 && leAt d 0x24 4 % 64 == 0 && rasWork d % 64 == 0 &&
  decide (leAt d 0x4C 2 < leAt d 0x50 2) && decide (leAt d 0x4E 2 < leAt d 0x52 2) &&
  decide (264 * tileCount d ≤ fld (leAt d 0x40 4) 12 0 * 65536)

/-! ### Tilers -/

/-- The tiler of a die. -/
def State.tiler (s : State) (c : Nat) : Tiler := NMap.get {} s.tilers c

/-- The state with a tiler replaced. -/
def State.setTiler (s : State) (c : Nat) (t : Tiler) : State := { s with tilers := NMap.put s.tilers c t }

/-- The state with the job of a tiler replaced. -/
def State.setRas (s : State) (c : Nat) (j : RasJob) : State := s.setTiler c { s.tiler c with job := some j }

/-- An access of a tiler job to memory: it lies in the windows of PART with the right and at an assigned address (R423). -/
def rasAllow (s : State) (d : List Byte) (right a n : Nat) : Bool := n == 0 || (rangeInMemory a n && s.partAllow (rasPart d) right a n)

/-- A job that meets an error ends with a status (R423): RAS_ADDR for 2; the error of memory acts for 4. -/
def rasFail (c status addr : Nat) (s : State) : State :=
  match (s.tiler c).job with
  | none => s
  | some j =>
    let s1 := if j.status = 0 then s.setRas c { j with status := status } else s
    if status = 2 then s1.fault { page := tilerPage c, code := 0xC002, detail := addr }
    else if status = 4 then ueStrike addr none false s1 else s1

/-- What stops a set of accesses of a job: the status and the address, none when all may proceed. -/
def rasBlock (s : State) (d : List Byte) (rd wr : List (Nat × Nat)) : Option (Nat × Nat) :=
  match (rd.find? fun r => !rasAllow s d 1 r.1 r.2).orElse fun _ => wr.find? fun r => !rasAllow s d 2 r.1 r.2 with
  | some r => some (2, r.1)
  | none => (rd.findSome? fun r => s.ueIn r.1 r.2).map fun a => (4, a)

/-- The words in error that a job's writes cover in part: each acts as a read that meets the error (R266, R423). -/
def rasStuck (c : Nat) (wr : List (Nat × Nat)) (s : State) : State :=
  (wr.flatMap fun r => s.stuckWords r.1 r.2).eraseDups.foldl (fun t w => rasFail c 4 w t) s

/-- The pass that tiles are claimed and released in: a paused pass was counted when it paused; PASSES counts modulo 256 (R436,
R438, R440). -/
def RasJob.pass (j : RasJob) : Nat := (if j.paused then j.passes + 255 else j.passes) % 256

/-- A claimable tile exists, or no job runs (R434). -/
def availNow (s : State) (c : Nat) : Bool := match (s.tiler c).job with
  | none => true
  | some j => j.status == 0 && j.binned && j.todo != []

/-- AVAIL follows what can be claimed, for the flag of a descriptor. -/
def setAvail (c : Nat) (d : List Byte) (s : State) : State := let r := rasFlag d 0x6C 0; s.setG r.1 r.2 (availNow s c)

/-- Registers of the tiler page that follow the job (R442): blocks in use and tiles owned. -/
def rasRegs (c : Nat) (s : State) : State :=
  match (s.tiler c).job with
  | some j => (s.wr (tilerPage c) 0x114 j.used).wr (tilerPage c) 0x118 j.owners.length
  | none => (s.wr (tilerPage c) 0x114 0).wr (tilerPage c) 0x118 0

/-- A write of RAS_JOB enqueues a job, or ends in FULL (R421). -/
def actRasJob (id c a : Nat) (s : State) : State :=
  let t := s.tiler c
  if 4 ≤ t.queue.length then s.busErr id (tilerPage c) 4 else s.setTiler c { t with queue := t.queue ++ [fld a 39 6 * 64] }

/-- RAS_JOB (R421). -/
def execRasJob (id : Ident) (die : Fin 2) (addr : Nat) (s : State) : Host.Outcome State Fault Refusal :=
  .next (guardW id (tilerPage die) 0x104 s (actRasJob id die addr))

/-- A write of RAS_FLUSH (R421). -/
def actRasFlush (c v : Nat) (s : State) : State := if bit v 0 then s.setTiler c { s.tiler c with queue := [] } else s

/-- RAS_FLUSH (R421). -/
def execRasFlush (id : Ident) (die : Fin 2) (s : State) : Host.Outcome State Fault Refusal :=
  .next (guardW id (tilerPage die) 0x110 s (actRasFlush die 1))

/-- The clear bit of a tile (R432). -/
def clearBit (s : State) (d : List Byte) (t : Nat) : Bool := bit (s.ld (rasAddr d 0x30 + t / 8) 1) (t % 8)

/-- The state with the clear bit of a tile written. -/
def setClear (d : List Byte) (t : Nat) (v : Bool) (s : State) : State :=
  let a := rasAddr d 0x30 + t / 8
  s.st a 1 (setBit (s.ld a 1) (t % 8) v)

/-- Every clear flag set (R432). -/
def setAllClear (d : List Byte) (s : State) : State :=
  let n := tileCount d
  let s1 := s.stBytes (rasAddr d 0x30) (List.replicate (n / 8) 0xFF)
  (List.range (n % 8)).foldl (fun t k => setClear d (n / 8 * 8 + k) true t) s1

/-- The ranges that job start writes: the head table, and with CLEAR the clear-flag table (R430, R432). -/
def startTables (d : List Byte) : List (Nat × Nat) :=
  (rasAddr d 0x38, 8 * tileCount d) :: (if rasClear d then [(rasAddr d 0x30, ceilDiv (tileCount d) 8)] else [])

/-- The job at the head starts once its START flag reads 1, which it clears (R421, R423): the descriptor is read and checked,
the clear flags are set with CLEAR, the head table is made empty, and binning begins. -/
def rasStart (c : Nat) (s : State) : State :=
  let t := s.tiler c
  match t.job, t.queue with
  | none, a :: q =>
    let d := s.ldBytes a 128
    let st := rasFlag d 0x68 0
    if !s.gflag st.1 st.2 || s.quiet (tilerPage c) then s
    else
      let s1 := (s.setG st.1 st.2 false).setTiler c { queue := q, job := some { desc := d } }
      match s1.ueIn a 128 with
      | some w => rasFail c 4 w s1
      | none =>
        if !rangeInMemory a 128 then rasFail c 2 a s1
        else if !rasDescOk d then rasFail c 1 0 (s1.fault { page := tilerPage c, code := 0xC001 })
        else if !rasAllow s1 d 1 a 128 then rasFail c 2 a s1
        else
          let s2 := s1.setRas c { desc := d, checked := true }
          match rasBlock s2 d [] (startTables d) with
          | some e => rasFail c e.1 e.2 s2
          | none =>
            let s3 := s2.stBytes (rasAddr d 0x38) (List.replicate (8 * tileCount d) 0)
            rasRegs c (setAvail c d (rasStuck c (startTables d) (if rasClear d then setAllClear d s3 else s3)))
  | _, _ => s

/-- RAS_JOB_START (R423). -/
def execRasJobStart (die : Fin 2) (s : State) : Host.Outcome State Fault Refusal := .next (rasStart die s)

/-! ### Primitives (R425, R426) -/

/-- A primitive record. -/
structure Prim where
  type : Nat
  x : List Int
  y : List Int
  z : List Int
deriving DecidableEq, Repr

/-- The fields of a primitive record (R425). -/
def Prim.of (b : List Byte) : Prim :=
  let v := List.range 3
  { type := leAt b 0 1 % 16, x := v.map fun k => sext 32 (leAt b (8 + 16 * k) 4), y := v.map fun k => sext 32 (leAt b (12 + 16 * k) 4),
    z := v.map fun k => (leAt b (16 + 16 * k) 4 % 2 ^ 24 : Nat) }

/-- X of a vertex. -/
def Prim.vx (p : Prim) (k : Nat) : Int := nth 0 p.x k
/-- Y of a vertex. -/
def Prim.vy (p : Prim) (k : Nat) : Int := nth 0 p.y k
/-- Z of a vertex. -/
def Prim.vz (p : Prim) (k : Nat) : Int := nth 0 p.z k

/-- The primitive uses a vertex: a RECT vertices 0 and 1 (R425). -/
def Prim.verts (p : Prim) : List Nat := if p.type = 2 then [0, 1] else [0, 1, 2]

/-- The primitive is invalid (R426). -/
def Prim.invalid (p : Prim) : Bool :=
  let ok (v : Int) : Bool := decide (-(2 ^ 23) ≤ v) && decide (v < 2 ^ 23)
  !(p.type == 1 || p.type == 2) || !(p.verts.all fun k => ok (p.vx k) && ok (p.vy k))

/-- The edge function from vertex i to vertex j at a point (R427). -/
def Prim.edge (p : Prim) (i j : Nat) (px py : Int) : Int := (px - p.vx i) * (p.vy j - p.vy i) - (py - p.vy i) * (p.vx j - p.vx i)

/-- A_orig of a triangle (R427). -/
def Prim.area (p : Prim) : Int := p.edge 0 1 (p.vx 2) (p.vy 2)

/-- The primitive is culled (R426). -/
def Prim.culled (p : Prim) (cull : Nat) : Bool :=
  if p.type = 1 then p.area == 0 || (cull == 1 && decide (p.area < 0)) || (cull == 2 && decide (0 < p.area))
  else decide (p.vx 1 ≤ p.vx 0) || decide (p.vy 1 ≤ p.vy 0)

/-- The vertices in the order of the coverage test (R427). -/
def Prim.order (p : Prim) : List Nat := if p.area < 0 then [0, 2, 1] else [0, 1, 2]

/-- The sample lies on the kept side of an edge (R427). -/
def Prim.inside (p : Prim) (i j : Nat) (px py : Int) : Bool :=
  let e := p.edge i j px py
  let dx := p.vx j - p.vx i
  let dy := p.vy j - p.vy i
  decide (0 < e) || (e == 0 && (decide (0 < dy) || (dy == 0 && decide (dx < 0))))

/-- The quotient of two naturals as integers, to nearest with ties away from zero (R428). -/
def rndDiv (n d : Int) : Nat := ((2 * n + d) / (2 * d)).toNat

/-- Z, B1 and B2 of the fragment at a sample, when it is covered by the primitive's own edges (R427-R429). -/
def Prim.sample (p : Prim) (px py : Int) : Option (Nat × Nat × Nat) :=
  if p.type = 1 then
    let o := p.order
    let a := nth 0 o 0; let b := nth 0 o 1; let c := nth 0 o 2
    if p.inside a b px py && p.inside b c px py && p.inside c a px py then
      let area := (p.area.natAbs : Int)
      let w (k : Nat) : Int := if k = a then p.edge b c px py else if k = b then p.edge c a px py else p.edge a b px py
      some (rndDiv (p.vz 0 * w 0 + p.vz 1 * w 1 + p.vz 2 * w 2) area, rndDiv (2 ^ 24 * w 1) area, rndDiv (2 ^ 24 * w 2) area)
    else none
  else if p.vx 0 ≤ px ∧ px < p.vx 1 ∧ p.vy 0 ≤ py ∧ py < p.vy 1 then
    some ((p.vz 0).toNat, rndDiv (2 ^ 24 * (px - p.vx 0)) (p.vx 1 - p.vx 0), rndDiv (2 ^ 24 * (py - p.vy 0)) (p.vy 1 - p.vy 0))
  else none

/-- The pixel lies inside the scissor and the surface. -/
def inScissor (d : List Byte) (x y : Nat) : Bool :=
  decide (leAt d 0x4C 2 ≤ x) && decide (x < leAt d 0x50 2) && decide (leAt d 0x4E 2 ≤ y) && decide (y < leAt d 0x52 2) &&
  decide (x < rasWidth d) && decide (y < rasHeight d)

/-- The fragments of a primitive in a tile, in ascending py then px (R427-R429, R437): 16 bytes each. -/
def tileFrags (d : List Byte) (p : Prim) (t : Nat) : List (List Byte) :=
  let tx := t % tilesX d
  let ty := t / tilesX d
  (List.range 1024).filterMap fun k =>
    let x := 32 * tx + k % 32
    let y := 32 * ty + k / 32
    if !inScissor d x y then none
    else (p.sample (256 * x + 128 : Nat) (256 * y + 128 : Nat)).map fun f =>
      leBytes 4 (k % 32 + k / 32 * 32) ++ leBytes 4 f.1 ++ leBytes 4 f.2.1 ++ leBytes 4 f.2.2

/-! ### Binning (R430, R431) -/

/-- Pixel range of a list of coordinates, clipped: first and last pixel, none when empty. -/
def clipRange (vs : List Int) (lo hi : Nat) : Option (Nat × Nat) :=
  match vs with
  | [] => none
  | v :: r =>
    let a := max (r.foldl min v / 256) (lo : Int)
    let b := min (r.foldl max v / 256) ((hi : Int) - 1)
    if a ≤ b then some (a.toNat, b.toNat) else none

/-- The screen tiles that a primitive's bounding box overlaps, clipped to the scissor and the surface, in ascending index
(R431, log entry 25). -/
def Prim.tiles (p : Prim) (d : List Byte) : List Nat :=
  match clipRange (p.verts.map p.vx) (leAt d 0x4C 2) (min (leAt d 0x50 2) (rasWidth d)),
      clipRange (p.verts.map p.vy) (leAt d 0x4E 2) (min (leAt d 0x52 2) (rasHeight d)) with
  | some x, some y =>
    (List.range (y.2 / 32 - y.1 / 32 + 1)).flatMap fun j => (List.range (x.2 / 32 - x.1 / 32 + 1)).map fun i =>
      (y.1 / 32 + j) * tilesX d + (x.1 / 32 + i)
  | _, _ => []

/-- The tile's list needs a new block for one more entry. -/
def needsBlock (j : RasJob) (t : Nat) : Bool := (NMap.get [] j.lists t).length % 62 == 0

/-- An entry appended to a tile's list (R430). -/
def appendEntry (first q : Nat) (j : RasJob) (t : Nat) : RasJob :=
  let j1 := if needsBlock j t then
      { j with blocks := NMap.put j.blocks t (NMap.get [] j.blocks t ++ [first + j.used]), used := j.used + 1 }
    else j
  { j1 with lists := NMap.put j1.lists t (NMap.get [] j1.lists t ++ [q]) }

/-- Binning up to `n` more primitives: it ends at the last one, at a pause, or at a record that it may not read (R426,
R431). -/
def binPrims (s : State) : Nat → RasJob → RasJob × Option (Nat × Nat)
  | 0, j => (j, none)
  | n + 1, j =>
    let d := j.desc
    if rasNprim d ≤ j.next then (j, none)
    else
      let a := rasAddr d 0x08 + 64 * j.next
      match rasBlock s d [(a, 64)] [] with
      | some e => (j, some e)
      | none =>
        let p := Prim.of (s.ldBytes a 64)
        let j1 := { j with next := j.next + 1 }
        if p.invalid then binPrims s n { j1 with nInvalid := j.nInvalid + 1 }
        else if p.culled (rasCull d) then binPrims s n { j1 with nCulled := j.nCulled + 1 }
        else
          let ts := p.tiles d
          if regionBlocks d < firstBlock d + j.used + (ts.filter (needsBlock j)).length then ({ j with paused := true }, none)
          else binPrims s n { ts.foldl (appendEntry (firstBlock d) j.next) j1 with nBinned := j.nBinned + 1 }

/-- The head-table entry and the blocks of a tile's list written to the region (R430). -/
def writeList (d : List Byte) (j : RasJob) (s : State) (e : Nat × List Nat) : State :=
  let bs := NMap.get [] j.blocks e.1
  let base := rasAddr d 0x38
  let s1 := s.st (base + 8 * e.1) 8 (bs.headD 0 + (bs.getLast?.getD 0) * 2 ^ 32)
  (List.range bs.length).foldl (fun u k =>
    let ent := sliceL e.2 (62 * k) 62
    let a := base + 256 * nth 0 bs k
    (u.stBytes a (leBytes 4 ent.length ++ ent.flatMap (leBytes 4))).st (a + 252) 4 (nth 0 bs (k + 1))) s1

/-- The ranges that `writeList` writes. -/
def listRanges (d : List Byte) (j : RasJob) (e : Nat × List Nat) : List (Nat × Nat) :=
  let base := rasAddr d 0x38
  (base + 8 * e.1, 8) :: ((NMap.get [] j.blocks e.1).zipIdx.flatMap fun b =>
    [(base + 256 * b.1, 4 + 4 * (sliceL e.2 (62 * b.2) 62).length), (base + 256 * b.1 + 252, 4)])

/-- The tiler finishes binning the tiles of a pass (R431, R440): they become claimable; a pause counts a pass. -/
def binningDone (c : Nat) (s : State) : State :=
  match (s.tiler c).job with
  | none => s
  | some j =>
    if j.binned || j.status != 0 then s
    else
      let d := j.desc
      let r := binPrims s (rasNprim d + 1 - j.next) j
      let j1 := r.1
      let s1 := (s.tallyN (tilerPage c) 0x49 (j1.nBinned - j.nBinned)).tallyN (tilerPage c) 0x4B (j1.nCulled - j.nCulled)
      match r.2 with
      | some e => rasFail c e.1 e.2 (s1.setRas c { j1 with lists := j.lists, blocks := j.blocks })
      | none =>
        match rasBlock s1 d [] [(rasAddr d 0x38, 256 * (firstBlock d + j1.used))] with
        | some e => rasFail c e.1 e.2 (s1.setRas c j1)
        | none =>
          let j2 := { j1 with binned := true, todo := j1.lists.map (·.1), passes := if j1.paused then (j1.passes + 1) % 256 else j1.passes }
          let s2 := rasStuck c (j1.lists.flatMap (listRanges d j1)) ((j1.lists.foldl (writeList d j1) s1).setRas c j2)
          let s3 := if j1.paused then (s2.tally (tilerPage c) 0x4C).irq (tilerPage c) 10 else s2
          rasRegs c (setAvail c d s3)

/-- BINNING_COMPLETE (R440). -/
def execBinningComplete (die : Fin 2) (s : State) : Host.Outcome State Fault Refusal := .next (binningDone die s)

/-! ### Claims (R434-R436) -/

/-- The die of a logical face. -/
def dieOfFace (f : Nat) : Nat := f / 256

/-- The tile that a face owns for a context. -/
def RasJob.owner (j : RasJob) (h f : Nat) : Option TileOwner := j.owners.find? fun o => o.handle == h && o.face == f

/-- The tile that a face owns on its die's tiler. -/
def State.ownedTile (s : State) (h f : Nat) : Option TileOwner := (s.tiler (dieOfFace f)).job.bind fun j => j.owner h f

/-- A raster word holds issue until the tiler answers. -/
def rasHold (f : Nat) (s : State) : State := s.modFace f fun x => { x with hold := .ras }

/-- RAS.CLAIM asks for a tile: RAS_STATE for a face that owns one, RAS_SCOPE for a face outside PART (R434, R438). -/
def claimWord (f h w : Nat) (s : State) : State :=
  if (s.ownedTile h f).isSome then wordFault f h 0xC003 w (s.face f).xs [] s
  else if (match (s.tiler (dieOfFace f)).job with
    | some j => (s.ctx h).part != rasPart j.desc
    | none => false) then wordFault f h 0xC004 w (s.face f).xs [] s
  else issueChecked f h w (if fsOk (s.face f).xs w 24 64 64 then 0 else 0x3003) [] (rasHold f) s

/-- RAS_CLAIM (R434). -/
def execRasClaim (face : Face) (s : State) : Host.Outcome State Fault Refusal := .next (issueOp face 0x90 (claimWord face) s)

/-- The face goes on after a raster word. -/
def rasOn (f w : Nat) (s : State) : State :=
  s.modFace f fun x => { x.advance (mkOp x w true []) (x.pc + 1) with hold := .none }

/-- Width of a tile within the surface. -/
def tileW (d : List Byte) (t : Nat) : Nat := min 32 (rasWidth d - 32 * (t % tilesX d))
/-- Height of a tile within the surface. -/
def tileH (d : List Byte) (t : Nat) : Nat := min 32 (rasHeight d - 32 * (t / tilesX d))

/-- Address of the first pixel of row `y` of a tile in a surface. -/
def tileRow (d : List Byte) (base stride t y : Nat) : Nat := base + (32 * (t / tilesX d) + y) * stride + 4 * 32 * (t % tilesX d)

/-- The rows of a tile in a surface, as ranges. -/
def tileRows (d : List Byte) (base stride t : Nat) : List (Nat × Nat) :=
  (List.range (tileH d t)).map fun y => (tileRow d base stride t y, 4 * tileW d t)

/-- Address of a tile's order-state slot (R438). -/
def orderSlot (d : List Byte) (t : Nat) : Nat := rasAddr d 0x60 + t * (64 + rasExtra d)

/-- A 32 by 32 plane of the working region: a value inside the surface, zero outside (R435). -/
def fillPlane (d : List Byte) (t : Nat) (row : Nat → List Byte) : List Byte :=
  (List.range 32).flatMap fun y => if y < tileH d t then row y ++ List.replicate (4 * (32 - tileW d t)) 0 else List.replicate 128 0

/-- The plane of a tile: the clear value, or what the surface holds. -/
def planeBytes (s : State) (d : List Byte) (t base stride clear : Nat) (cleared : Bool) : List Byte :=
  fillPlane d t fun y =>
    if cleared then (List.range (tileW d t)).flatMap fun _ => leBytes 4 clear else s.ldBytes (tileRow d base stride t y) (4 * tileW d t)

/-- The ranges of memory that a tile's surfaces take. -/
def surfaceRows (d : List Byte) (t : Nat) : List (Nat × Nat) :=
  (if rasCfmt d = 2 then [] else tileRows d (rasAddr d 0x18) (leAt d 0x20 4) t) ++
  (if rasDepth d then tileRows d (rasAddr d 0x28) (leAt d 0x24 4) t else [])

/-- The list block that holds entry `i` of a tile's list, as a range (R430). -/
def listBlock (j : RasJob) (t i : Nat) : Nat × Nat := (rasAddr j.desc 0x38 + 256 * nth 0 (NMap.get [] j.blocks t) (i / 62), 256)

/-- The tile header of a claim (R436); EDGE when the surface cuts the tile. -/
def tileHeader (d : List Byte) (j : RasJob) (t : Nat) (resume cleared : Bool) (last : Nat) : List Byte :=
  leBytes 4 (1 + 2 * b2n resume + 4 * b2n cleared + 8 * b2n (decide (tileW d t < 32 ∨ tileH d t < 32)) + 256 * j.pass) ++
  leBytes 4 (t % tilesX d + t / tilesX d * 65536) ++ leBytes 4 (tileW d t + tileH d t * 256) ++ leBytes 4 t ++
  leBytes 4 (NMap.get [] j.lists t).length ++ leBytes 4 last ++ leBytes 40 0

/-- The working region filled for a tile (R435). -/
def fillRegion (f : Nat) (d : List Byte) (t : Nat) (resume cleared : Bool) (s : State) : State :=
  let w := rasWork d
  let s1 := if rasCfmt d = 2 then s else s.stFs f w (planeBytes s d t (rasAddr d 0x18) (leAt d 0x20 4) (leAt d 0x44 4) cleared)
  let s2 := if rasDepth d then s1.stFs f (w + 0x1000) (planeBytes s d t (rasAddr d 0x28) (leAt d 0x24 4) (leAt d 0x48 4) cleared) else s1
  s2.stFs f (w + 0x2000) (if resume then s.ldBytes (orderSlot d t + 0x40) (rasExtra d) else List.replicate (rasExtra d) 0)

/-- The planes of the working region that a job uses, as offsets and lengths (R435): an omitted plane is none. -/
def workPlanes (d : List Byte) : List (Nat × Nat) :=
  let w := rasWork d
  (if rasCfmt d = 2 then [] else [(w, 0x1000)]) ++ (if rasDepth d then [(w + 0x1000, 0x1000)] else []) ++
  (if rasExtra d = 0 then [] else [(w + 0x2000, rasExtra d)])

/-- A claim is given the claimable tile of lowest index (R434-R436). The tiler reads the tile's head entry, the first block of
its list, its clear flag, its order state when it resumes, and its surfaces unless it is flagged. -/
def giveTile (c f h w t : Nat) (j : RasJob) (s : State) : State :=
  let d := j.desc
  let resume := NSet.has j.stored t
  let head := [(rasAddr d 0x38 + 8 * t, 8), listBlock j t 0, (rasAddr d 0x30 + t / 8, 1)]
  match rasBlock s d (head ++ if resume then [(orderSlot d t, 64 + rasExtra d)] else []) [] with
  | some e => rasFail c e.1 e.2 s
  | none =>
    let cleared := clearBit s d t
    match rasBlock s d (if cleared then [] else surfaceRows d t) [] with
    | some e => rasFail c e.1 e.2 s
    | none =>
      if (workPlanes d).any fun r => decide (0x40000 < r.1 + r.2) then wordFault f h 0x3003 w (s.face f).xs [] s
      else
        let last := if resume then s.ld (orderSlot d t) 4 else 0xFFFFFFFF
        let s1 := (fillRegion f d t resume cleared s).stFs f (fsEff (s.face f).xs w 24) (tileHeader d j t resume cleared last)
        let j1 := { j with todo := j.todo.filter fun k => k != t, owners := j.owners ++ [{ tile := t, handle := h, face := f, last := last }] }
        rasRegs c (setAvail c d (rasOn f w (s1.setRas c j1)))

/-- A claim that receives VALID = 0 (R434). -/
def noTile (f w : Nat) (s : State) : State := rasOn f w (s.stFs f (fsEff (s.face f).xs w 24) (List.replicate 64 0))

/-- The tiler answers a claim; it waits while no tile is claimable and the job has tiles left to bin or render (R434). -/
def claimAnswer (f : Nat) (s : State) : State :=
  let c := dieOfFace f
  match s.faceCtx f with
  | none => s
  | some h =>
    let w := s.nextWord f h
    if (s.face f).hold ≠ .ras ∨ wOp w ≠ 0x90 then s
    else match (s.tiler c).job with
      | none => noTile f w s
      | some j =>
        if j.status ≠ 0 then s
        else if (s.ctx h).part != rasPart j.desc then wordFault f h 0xC004 w (s.face f).xs [] s
        else match j.binned, j.todo with
          | true, t :: _ => giveTile c f h w t j s
          | true, [] => if j.paused then s else noTile f w s
          | false, _ => s

/-- RAS_CLAIM_ANSWER (R435). -/
def execRasClaimAnswer (face : Face) (s : State) : Host.Outcome State Fault Refusal := .next (claimAnswer face s)

/-! ### Fragments (R437) -/

/-- RAS.PRIM asks for the next primitive; RAS_STATE for a face that owns no tile (R437, R438). -/
def primWord (f h w : Nat) (s : State) : State :=
  if (s.ownedTile h f).isNone then wordFault f h 0xC003 w (s.face f).xs [] s
  else issueChecked f h w (if fsOk (s.face f).xs w 24 64 128 then 0 else 0x3003) [] (rasHold f) s

/-- RAS_PRIM (R437). -/
def execRasPrim (face : Face) (s : State) : Host.Outcome State Fault Refusal := .next (issueOp face 0x91 (primWord face) s)

/-- The next entry of a tile's list, from a place on, that covers a sample of the tile: its place, PSEQ, record and fragments; or
the access that stops the search (R437). The list block and the primitive record are read. -/
def nextPrim (s : State) (j : RasJob) (t : Nat) (l : List Nat) : Nat → Nat → Option (Nat × Nat × List Byte × List (List Byte)) × Option (Nat × Nat)
  | 0, _ => (none, none)
  | n + 1, i =>
    match l[i]? with
    | none => (none, none)
    | some q =>
      let a := rasAddr j.desc 0x08 + 64 * q
      match rasBlock s j.desc [listBlock j t i, (a, 64)] [] with
      | some e => (none, some e)
      | none =>
        let rec' := s.ldBytes a 64
        let fr := tileFrags j.desc (Prim.of rec') t
        if fr = [] then nextPrim s j t l n (i + 1) else (some (i, q, rec', fr), none)

/-- The owner record of a face replaced. -/
def RasJob.putOwner (j : RasJob) (o : TileOwner) : RasJob :=
  { j with owners := j.owners.map fun x => if x.handle = o.handle ∧ x.face = o.face then o else x }

/-- The rasteriser lane writes the fragment buffer and its header (R437). -/
def primAnswer (f : Nat) (s : State) : State :=
  let c := dieOfFace f
  match s.faceCtx f with
  | none => s
  | some h =>
    let w := s.nextWord f h
    if (s.face f).hold ≠ .ras ∨ wOp w ≠ 0x91 then s
    else match (s.tiler c).job with
      | none => wordFault f h 0xC003 w (s.face f).xs [] s
      | some j =>
        if j.status ≠ 0 then s
        else match j.owner h f with
        | none => wordFault f h 0xC003 w (s.face f).xs [] s
        | some o =>
          let l := NMap.get [] j.lists o.tile
          let at' := fsEff (s.face f).xs w 24
          match nextPrim s j o.tile l (l.length + 1) o.idx with
          | (_, some e) => rasFail c e.1 e.2 s
          | (none, none) => rasOn f w ((s.stFs f at' (leBytes 4 4 ++ leBytes 60 0)).setRas c (j.putOwner { o with idx := l.length, off := 0 }))
          | (some (i, q, r, fr), none) =>
            let start := if i = o.idx then o.off else 0
            let n := min (64 * fld w 56 45) (fr.length - start)
            let more := decide (start + n < fr.length)
            if 0x40000 < at' + 128 + 16 * n then wordFault f h 0x3003 w (s.face f).xs [] s
            else
              let hd := leBytes 4 (1 + 2 * b2n more) ++ leBytes 4 q ++ leBytes 4 n ++ leBytes 52 0
              let s1 := (s.stFs f at' (hd ++ r ++ (sliceL fr start n).flatten)).tallyN (tilerPage c) 0x4A n
              let o1 := { o with idx := if more then i else i + 1, off := if more then start + n else 0, last := q }
              rasOn f w (s1.setRas c ({ j with nFrags := (j.nFrags + n) % 2 ^ 32 }.putOwner o1))

/-- RAS_PRIM_ANSWER (R437). -/
def execRasPrimAnswer (face : Face) (s : State) : Host.Outcome State Fault Refusal := .next (primAnswer face s)

/-! ### Release (R438, R440) -/

/-- RAS.RELEASE; RAS_STATE for a face that owns no tile (R438). -/
def releaseWord (f h w : Nat) (s : State) : State :=
  if (s.ownedTile h f).isNone then wordFault f h 0xC003 w (s.face f).xs [] s
  else issueChecked f h w (if fsOk (s.face f).xs w 24 1 64 then 0 else 0x3003) [] (rasHold f) s

/-- RAS_RELEASE (R438). -/
def execRasRelease (face : Face) (s : State) : Host.Outcome State Fault Refusal := .next (issueOp face 0x92 (releaseWord face) s)

/-- A plane of the working region written to its surface, clipped; bytes of the face store in error are not (R264, R438). -/
def storePlane (f : Nat) (d : List Byte) (base stride t off : Nat) (s : State) : State :=
  (List.range (tileH d t)).foldl (fun u y => 
    u.stBytes (tileRow d base stride t y) (s.goodBytes (fsAddr f (off + 128 * y)) (tileRow d base stride t y) (4 * tileW d t))) s

/-- A tile stored: its surfaces, its order state, and its clear flag cleared (R432, R438). -/
def storeTile (f : Nat) (j : RasJob) (o : TileOwner) (s : State) : State :=
  let d := j.desc
  let w := rasWork d
  let s1 := if rasCfmt d = 2 then s else storePlane f d (rasAddr d 0x18) (leAt d 0x20 4) o.tile w s
  let s2 := if rasDepth d then storePlane f d (rasAddr d 0x28) (leAt d 0x24 4) o.tile (w + 0x1000) s1 else s1
  let a := orderSlot d o.tile
  let s3 := (s2.stBytes a (leBytes 4 o.last ++ leBytes 4 j.pass ++ leBytes 4 1)).stBytes (a + 0x40) (s.goodBytes (fsAddr f (w + 0x2000)) (a + 0x40) (rasExtra d))
  setClear d o.tile false s3

/-- The ranges of memory that a store of a tile writes (R438). -/
def storeRanges (d : List Byte) (t : Nat) : List (Nat × Nat) :=
  surfaceRows d t ++ [(orderSlot d t, 12), (orderSlot d t + 64, rasExtra d), (rasAddr d 0x30 + t / 8, 1)]

/-- The words in error that a store of a tile reads from the face store. -/
def storeBad (f : Nat) (d : List Byte) (t : Nat) (s : State) : List Nat :=
  let w := rasWork d
  let rows (o : Nat) : List (Nat × Nat) := (List.range (tileH d t)).map fun y => (o + 128 * y, 4 * tileW d t)
  (((if rasCfmt d = 2 then [] else rows w) ++ (if rasDepth d then rows (w + 0x1000) else []) ++ [(w + 0x2000, rasExtra d)]).flatMap
    fun r => s.badWords (fsAddr f r.1) r.2).eraseDups

/-- After the last release of a paused pass the head table and the allocator are reset and binning goes on (R440). -/
def passEnd (c : Nat) (s : State) : State :=
  match (s.tiler c).job with
  | some j =>
    if j.status = 0 ∧ j.binned ∧ j.paused ∧ j.todo = [] ∧ j.owners = [] then
      (s.stBytes (rasAddr j.desc 0x38) (List.replicate (8 * tileCount j.desc) 0)).setRas c
        { j with binned := false, paused := false, lists := [], blocks := [], used := 0 }
    else s
  | none => s

/-- The release of a tile answers (R438). -/
def releaseAnswer (f : Nat) (s : State) : State :=
  let c := dieOfFace f
  match s.faceCtx f with
  | none => s
  | some h =>
    let w := s.nextWord f h
    if (s.face f).hold ≠ .ras ∨ wOp w ≠ 0x92 then s
    else match (s.tiler c).job with
      | none => wordFault f h 0xC003 w (s.face f).xs [] s
      | some j =>
        if j.status ≠ 0 then s
        else match j.owner h f with
        | none => wordFault f h 0xC003 w (s.face f).xs [] s
        | some o =>
          let d := j.desc
          let store := bit w 45
          let wr := if store then storeRanges d o.tile else []
          match rasBlock s d [] wr with
          | some e => rasFail c e.1 e.2 s
          | none =>
            let s1 := if store then storeTile f j o s else s
            let j1 := { j with
              owners := j.owners.filter fun x => !(x.handle == h && x.face == f)
              stored := if store then NSet.add j.stored o.tile else j.stored
              nStored := if store then j.nStored + 1 else j.nStored }
            let s2 := rasStuck c wr (rasOn f w (s1.setRas c j1))
            let s3 := if store then (storeBad f d o.tile s).foldl (fun t a => rasFail c 4 a t) s2 else s2
            rasRegs c (setAvail c d (passEnd c s3))

/-- RAS_RELEASE_ANSWER (R438). -/
def execRasReleaseAnswer (face : Face) (s : State) : Host.Outcome State Fault Refusal := .next (releaseAnswer face s)

/-! ### Job end (R421, R424, R432) -/

/-- Every tile still flagged takes the clear values, and its flag is cleared (R432). -/
def resolveTiles (d : List Byte) (s : State) : State :=
  (List.range (tileCount d)).foldl (fun u t =>
    if !clearBit u d t then u
    else
      let u1 := if rasCfmt d = 2 then u else (tileRows d (rasAddr d 0x18) (leAt d 0x20 4) t).foldl
        (fun v r => v.stBytes r.1 ((List.range (r.2 / 4)).flatMap fun _ => leBytes 4 (leAt d 0x44 4))) u
      let u2 := if rasDepth d then (tileRows d (rasAddr d 0x28) (leAt d 0x24 4) t).foldl
        (fun v r => v.stBytes r.1 ((List.range (r.2 / 4)).flatMap fun _ => leBytes 4 (leAt d 0x48 4))) u1 else u1
      setClear d t false u2) s

/-- The result record (R424). -/
def rasResult (j : RasJob) : List Byte :=
  leBytes 4 (j.status + j.passes * 256) ++ leBytes 4 j.nBinned ++ leBytes 4 j.nCulled ++ leBytes 4 j.nInvalid ++ leBytes 4 j.nFrags ++
  leBytes 4 j.nStored ++ leBytes 40 0

/-- The clear-flag table, which RESOLVE reads, and the ranges that it writes. -/
def resolveRanges (s : State) (d : List Byte) : (Nat × Nat) × List (Nat × Nat) :=
  ((rasAddr d 0x30, ceilDiv (tileCount d) 8),
    ((List.range (tileCount d)).filter (clearBit s d)).flatMap fun t => surfaceRows d t ++ [(rasAddr d 0x30 + t / 8, 1)])

/-- RESOLVE at the end of a job whose descriptor passed its checks (R432): a refused access or an error of memory acts on the job
as R423 says. -/
def resolveJob (c : Nat) (d : List Byte) (s : State) : State :=
  let rs := resolveRanges s d
  match rasBlock s d [rs.1] rs.2 with
  | some e => rasFail c e.1 e.2 s
  | none => rasStuck c rs.2 (resolveTiles d s)

/-- The result record is written, with the STATUS so far; an access to RESULT that PART's windows refuse is recorded as RAS_ADDR and
ends the job with STATUS 0x02 (R423, R424). -/
def writeResult (c : Nat) (s : State) : State :=
  match (s.tiler c).job with
  | some j =>
    let out := rasAddr j.desc 0x70
    if rasAllow s j.desc 2 out 64 then s.stBytes out (rasResult j) else rasFail c 2 out s
  | none => s

/-- The job has nothing left to do, or ends with an error. -/
def RasJob.atEnd (j : RasJob) : Bool := j.status != 0 || (j.binned && !j.paused && j.todo == [] && j.owners == [])

/-- A job ends: RESOLVE, the result record, DONE, AVAIL and the interrupt (R421, R424, R432). -/
def rasEnd (c : Nat) (s : State) : State :=
  match (s.tiler c).job with
  | none => s
  | some j0 =>
    if !j0.atEnd then s
    else
      let d := j0.desc
      let p := tilerPage c
      let s2 := writeResult c (if rasResolve d && j0.checked then resolveJob c d s else s)
      let j := ((s2.tiler c).job).getD j0
      let done := rasFlag d 0x68 16
      let s3 := (s2.setTiler c { s2.tiler c with job := none }).setG done.1 done.2 true
      let s4 := ((s3.wf p 0x108 15 8 j.status).incWrap p 0x10C).irq p (if j.status = 0 then 8 else 9)
      rasRegs c (setAvail c d s4)

/-- RAS_JOB_END (R421). -/
def execRasJobEnd (die : Fin 2) (s : State) : Host.Outcome State Fault Refusal := .next (rasEnd die s)

end Sys2Proof.Machine
end

