-- ==== Sys2Proof/Machine/Release.lean ====
section
/-! DEFINITION. The release of a word that holds on its W condition (R200): it issues as its opcode says. -/
namespace Sys2Proof.Machine

/-- What a word does when it issues, by opcode (R204). -/
def issueWord (f h w : Nat) (s : State) : State :=
  match wOp w with
  | 0x00 | 0x08 | 0x09 | 0x0F => issueNext f w true [] s
  | 0x01 => stopWord f h w s
  | 0x02 => loopWord f h w s
  | 0x03 => endloopWord f h w s
  | 0x04 => branchWord f h w s
  | 0x05 => stepWord f h w s
  | 0x06 | 0x07 => xWord f h w s
  | 0x0A => xldWord f h w s
  | 0x10 => sigWord f h w s
  | 0x11 => waitWord f h w s
  | 0x12 => barWord f h w s
  | 0x20 | 0x21 | 0x22 => mmaWord f h w s
  | 0x28 => accClrWord f h w s
  | 0x29 => drainWord f h w s
  | 0x40 => cfgLoadWord f h w s
  | 0x41 => cfgSelWord f h w s
  | 0x42 => latRunWord f h w s
  | 0x60 | 0x61 | 0x63 => quantWord f h w s
  | 0x62 => escWord f h w s
  | 0x70 | 0x71 | 0x72 | 0x73 => hoistWord f h w s
  | 0x80 => tapSetWord f h w s
  | 0x81 => tapPosWord f h w s
  | 0x82 | 0x83 => tapMmaWord f h w s
  | 0x90 => claimWord f h w s
  | 0x91 => primWord f h w s
  | 0x92 => releaseWord f h w s
  | 0xA0 => rngWord f h w s
  | 0xA1 => timeWord f h w s
  | 0xA2 => adduWord f h w s
  | o => if 0xF0 ≤ o then trapWord f h w s else s

/-- COND_RELEASE (R200). -/
def execCondRelease (face : Face) (s : State) : Host.Outcome State Fault Refusal := .next (issueWith face wW (issueWord face) s)

end Sys2Proof.Machine
end

