-- ==== Sys2Proof/Machine/SaveArea.lean ====
section
/-! DEFINITION. The save area of a context (R233, R234, R338, R339, R675): live sets, the settling of a face's work (R110), and
the writing and reading of face images. -/
namespace Sys2Proof.Machine

/-! ### Live sets (R233, R234), ranges in 64-byte units -/

/-- The live set after a word. -/
def liveAfter (set : List (Nat × Nat)) (w : Nat) : List (Nat × Nat) :=
  if wOp w = 0x08 then (if bit w 24 then set ++ liveRanges w else liveRanges w) else set

/-- The live set that applies to a list position, given the words of the list (R233). -/
def liveAt (ws : List Nat) (pos : Nat) : List (Nat × Nat) := (sliceL ws 1 (pos - 1)).foldl liveAfter [(0, 4096)]

/-- A range placed into a list sorted by start. -/
def insertRange (r : Nat × Nat) : List (Nat × Nat) → List (Nat × Nat)
  | [] => [r]
  | x :: xs => if r.1 ≤ x.1 then r :: x :: xs else x :: insertRange r xs

/-- A range and the ranges after it, sorted by start: joined where they touch or overlap. -/
def joinFrom (x : Nat × Nat) : List (Nat × Nat) → List (Nat × Nat)
  | [] => [x]
  | y :: ys => if y.1 ≤ x.1 + x.2 then joinFrom (x.1, max (x.1 + x.2) (y.1 + y.2) - x.1) ys else x :: joinFrom y ys

/-- Ranges sorted by start, joined where they touch or overlap (R234). -/
def joinRanges : List (Nat × Nat) → List (Nat × Nat)
  | [] => []
  | x :: xs => joinFrom x xs

/-- The smallest gap between neighbouring ranges. -/
def minGap : List (Nat × Nat) → Nat
  | x :: y :: r => min (y.1 - (x.1 + x.2)) (match r with
    | [] => 4096
    | _ => minGap (y :: r))
  | _ => 4096

/-- The first two neighbours with a gap `g` become one range that covers both. -/
def closeGap (g : Nat) : List (Nat × Nat) → List (Nat × Nat)
  | x :: y :: r => if y.1 - (x.1 + x.2) = g then (x.1, y.1 + y.2 - x.1) :: r else x :: closeGap g (y :: r)
  | l => l

/-- At most 8 ranges, closing the smallest gap while more remain (R234). -/
def capRanges : Nat → List (Nat × Nat) → List (Nat × Nat)
  | 0, l => l
  | n + 1, l => if l.length ≤ 8 then l else capRanges n (closeGap (minGap l) l)

/-- The recorded live ranges of a set of positions (R234). -/
def recordedLive (ws : List Nat) (ps : List Nat) : List (Nat × Nat) :=
  let l := joinRanges ((ps.flatMap (liveAt ws)).foldl (fun a r => insertRange r a) [])
  capRanges l.length l

/-! ### Settling (R110, R141, R142, R192, R229) -/

/-- What a word that has begun, of the matrix queue, leaves. -/
def matrixEffect (f h : Nat) (o : Op) (s : State) : State × Nat :=
  if wOp o.word = 0x29 then drainEffect f h o s else if isMatrixOp (wOp o.word) then mmaEffect f h o s else (s, 0)

/-- A partial word stops at a free point of its progress, a multiple of `unit` below `total` (log entry 20): what it has done
until then is done, and its record keeps the progress. -/
def partAt (f h : Nat) (p : Op → Bool) (total unit : Op → Nat) (act : Op → Nat → State → State) (s : State) : State :=
  match (s.face f).findOp fun o => !o.done && p o with
  | none => s
  | some (i, o) =>
    let d := s.draw 32
    let steps := (total o - 1 - o.progress) / unit o + 1
    let k := if total o ≤ o.progress then o.progress else o.progress + unit o * (d.1 % steps)
    if k = o.progress then d.2
    else
      let x := s.face f
      match (s.spansBad f (wordFetches x o.word o.xs o.data)).orElse fun _ => s.spansStuck f (wordWrites x o.word o.xs o.data) with
      | some a => ueStrike a (some h) false s
      | none => (act o k d.2).modFace f fun y => { y with issued := setNth y.issued i { o with progress := k } }

/-- A quantisation word stops at a free block boundary (R192, log entry 20): its record keeps the place and what it has decided. -/
def quantPart (f h : Nat) (s : State) : State :=
  match (s.face f).findOp fun o => !o.done && isQuantWord (wOp o.word) with
  | none => s
  | some (i, o) =>
    let q := Qctl.of o.data
    let lo := qStep q o.word o.progress
    let d := s.draw 32
    let k := lo + d.1 % (qSteps q o.word - 1 - lo + 1)
    if k = lo then d.2
    else
      let x := s.face f
      match (s.spansBad f (wordFetches x o.word o.xs o.data)).orElse fun _ => s.spansStuck f (wordWrites x o.word o.xs o.data) with
      | some a => ueStrike a (some h) false s
      | none =>
        let r := runQuant f h o.word o.xs q o.dec lo k d.2
        if r.2.1 ≠ 0 then wordFault f h r.2.1 o.word o.xs o.data r.1
        else r.1.modFace f fun y => { y with issued := setNth y.issued i { o with progress := qCode q o.word k, dec := r.2.2 } }

/-- The configuration of an issued LAT.RUN carries state across iterations (R142). -/
def opCarry (x : FaceSt) (o : Op) : Bool := cfgCarry (x.cfg (leAt o.data 0 1))

/-- Tap words that have not taken effect are undone, the latest first. -/
def undoTaps (x : FaceSt) : FaceSt :=
  { x with taps := x.issued.reverse.foldl (fun ts o =>
      if isTapWord (wOp o.word) && !o.done then setNth ts (fld o.word 24 24) (tapOfBefore o.data) else ts) x.taps }

/-- The work of a face settles: what has begun completes or stops where it may, the rest is withdrawn (R110). -/
def settleFace (h : Nat) (s : State) (f : Nat) : State :=
  let s1 := xldAt f h s
  let s2 := s1.modFace f fun x => { x with hold := .none }
  let s3 := completeAt f h (fun o => wOp o.word == 0x40) (fun _ o t => runCfgLoad f o t) s2
  let s4 := completeAt f h (fun o => inMatrixQueue (wOp o.word) && !isQueueCycle (wOp o.word)) (matrixEffect f) s3
  let s5 := completeAt f h (fun o => wOp o.word == 0x42 && opCarry (s4.face f) o) (latEffect f) s4
  let s6 := partAt f h (fun o => wOp o.word == 0x42) (fun o => latCount o.word) (fun _ => 1)
    (fun o k t => runLat f o.word o.xs ((t.face f).cfg (leAt o.data 0 1)) o.progress k t) s5
  let s7 := if bankPending (s6.face f).issued then s6 else
    partAt f h (fun o => wOp o.word == 0x62) (fun o => ceilDiv (escEntries s6 f o.word o.xs).1.length 4) (fun _ => 1)
      (fun o k t => (runEsc f o.word o.xs o.data o.progress (some k) t).1) s6
  let s8 := partAt f h (fun o => wOp o.word == 0xA0) (fun o => rngCount o.word) (fun o => rngGroup o.word)
    (fun o k t => runRng f h o o.progress k t) s7
  (quantPart f h s8).modFace f undoTaps

/-- The descriptors of a context that no hoist has taken are withdrawn (R110, R337). -/
def withdrawJobs (h : Nat) (s : State) : State := dropJobs h s

/-- A copy that a hoist has begun for a context is still under way (R341). -/
def State.copiesUnderWay (s : State) (h : Nat) : Bool := s.hoists.any fun e => e.2.any fun j => j.handle == h && j.taken

/-! ### Saving (R338, R675) -/

/-- STATE and PROGRESS of an issued record (R675); the place of a quantisation word stands at 0x0140. -/
def recordState (o : Op) : Nat :=
  if o.done then 0
  else if isQuantWord (wOp o.word) then (if o.progress ≠ 0 then 2 else 1)
  else if (wOp o.word = 0x42 ∨ wOp o.word = 0x62 ∨ wOp o.word = 0xA0) ∧ o.progress ≠ 0 then 2 + 256 * o.progress else 1

/-- An issued record (R675). -/
def recordBytes (pos : Nat) (lcs : List Nat) (st : Nat) : List Byte := leBytes 4 pos ++ lcs.flatMap (leBytes 2) ++ leBytes 4 st

/-- The records of a face: its issued words, then those it has still to issue again. -/
def faceRecords (x : FaceSt) : List (Nat × List Nat × Nat) :=
  (x.issued.map fun o => (o.pos, o.lcs, recordState o)) ++
  x.redo.map fun r => (r.pos, r.lcs, if r.done then 0 else if r.progress = 0 then 1 else if r.quant then 2 else 2 + 256 * r.progress)

/-- RESUME_POS (R338). -/
def resumePos (x : FaceSt) : Nat := match faceRecords x with
  | r :: _ => r.1
  | [] => x.pc

/-- The partial quantisation word of a face: its place and what it has decided (R192). -/
def quantMid (x : FaceSt) : Option (Nat × Option QDec) :=
  ((x.issued.find? fun o => !o.done && isQuantWord (wOp o.word) && o.progress != 0).map fun o => (o.progress, o.dec)).orElse fun _ =>
    (x.redo.find? fun r => !r.done && r.quant && r.progress != 0).map fun r => (r.progress, r.dec)

/-- Progress of the interrupted LAT.RUN or QM.ESC of a face (R338). -/
def latProgress (x : FaceSt) : Nat :=
  ((x.issued.find? fun o => (wOp o.word == 0x42 || wOp o.word == 0x62) && !o.done).map (·.progress)).getD 0

/-- Lattice progress at 0x0140 (R192, R338): of a quantisation word pass, row and block, a word each; otherwise the next iteration of an
interrupted LAT.RUN or the next group of QM.ESC (DESIGN CHOICE of the places, log entry 20). -/
def latWords (x : FaceSt) : List Byte := match quantMid x with
  | some m => leBytes 4 (m.1 / 256 % 2) ++ leBytes 4 (m.1 / 512) ++ leBytes 4 (m.1 % 256) ++ leBytes 4 0
  | none => leBytes 4 (latProgress x) ++ List.replicate 12 0

/-- Address of the image of a member rank (R338). -/
def imageAddr (save k : Nat) : Nat := save + 0x1000 + k * 0x44000

/-- The recorded live ranges of a face (R234). -/
def State.faceLive (s : State) (h f : Nat) : List (Nat × Nat) :=
  let x := s.face f
  let r := s.run h
  let ps := (faceRecords x).map (·.1)
  recordedLive (s.listWords r.list r.words) (if ps = [] then [x.pc] else ps.eraseDups)

/-- The image of a face written (R338). -/
def saveImage (h save : Nat) (s : State) (e : Nat × Nat) : State :=
  let f := e.2
  let a := imageAddr save e.1
  let x := s.face f
  let live := s.faceLive h f
  let recs := faceRecords x
  let t0 := nth {} x.taps 0
  let t1 := nth {} x.taps 1
  let valid := (List.range 4).foldl (fun v k => v + b2n (x.cfgValid k) * 2 ^ (4 + k)) x.cfgSel
  let s1 := s.stBytes a (leBytes 4 (resumePos x) ++ leBytes 4 recs.length ++ (x.xs.drop 1).flatMap (leBytes 4) ++
    x.lcs.flatMap (leBytes 2) ++ x.lstart.flatMap (leBytes 4))
  let s2 := ((s1.st (a + 0x40) 8 x.step).st (a + 0x48) 4 x.lflags).stBytes (a + 0x50) (x.bars.flatMap (leBytes 1))
  let s3 := (s2.st (a + 0x60) 4 valid).stBytes (a + 0x80)
    ((List.range 8).flatMap fun k => match live[k]? with
      | some r => leBytes 4 (r.1 + r.2 * 2 ^ 12 + 2 ^ 31)
      | none => leBytes 4 0)
  let s4 := (s3.stBytes (a + 0xA0) (t0.desc.getD [])).stBytes (a + 0xE0) (t1.desc.getD [])
  let s5 := s4.stBytes (a + 0x120) (leBytes 2 t0.ox ++ leBytes 2 t0.oy ++ leBytes 2 t1.ox ++ leBytes 2 t1.oy ++
    leBytes 4 (b2n t0.desc.isNone + 2 * b2n t1.desc.isNone))
  let s6 := (s5.stBytes (a + 0x140) (latWords x)).stBytes (a + 0x200) (recs.flatMap fun r => recordBytes r.1 r.2.1 r.2.2)
  let s7 := s6.stBytes (a + 0x400) ((List.range 512).flatMap fun k => leBytes 4 (toField 32 (NMap.get 0 x.acc k)))
  let s8 := (List.range 4).foldl (fun t k => if x.cfgValid k then t.stBytes (a + 0xC00 + 0x800 * k) (x.cfg k) else t) s7
  let s9 := live.foldl (fun t r => t.stBytes (a + 0x4000 + 64 * r.1) (s.fsBytes f (64 * r.1) (64 * r.2))) s8
  let r := s9.run h
  s9.setRun h { r with
    srcs := NMap.put r.srcs e.1 (x.cfgs.map (·.src))
    decs := match (quantMid x).bind (·.2) with
      | some d => NMap.put r.decs e.1 d
      | none => NMap.del r.decs e.1 }

/-- The wait set of a context, as (space, index, drift or stope, awaited value). -/
abbrev WaitSet := List (Nat × Nat × Nat × Bool)

/-- The context header written: F, the step counter of rank 0, and the wait set (R338). -/
def saveHeader (save : Nat) (fs : List Nat) (ws : WaitSet) (s : State) : State :=
  ((s.st save 4 fs.length).st (save + 8) 8 (s.face (fs.headD 0)).step).stBytes (save + 0x40)
    ((List.range 16).flatMap fun k => match ws[k]? with
      | some w => leBytes 4 (w.1 + w.2.1 * 4 + (if w.1 = 2 then w.2.2.1 else 0) * 2 ^ 14 + b2n (!w.2.2.2) * 2 ^ 17 + 2 ^ 31)
      | none => leBytes 4 0)

/-- Address of the gallery save range in the save area (R338). -/
def gsaveAddr (c : Ctx) (n : Nat) : Nat := c.save + 0x1000 + n * 0x44000

/-- The first word in error that a save would read: in the live bytes of the faces, or in the gallery range. -/
def State.saveBad (s : State) (h : Nat) : Option Nat :=
  let c := s.ctx h
  ((s.run h).faces.findSome? fun f => (s.faceLive h f).findSome? fun r => s.ueIn (fsAddr f (64 * r.1)) (64 * r.2)).orElse
    fun _ => s.ueIn (galBase + c.gsave) (64 * c.glen)

/-- The complete state of a context written to its save area (R333, R337 steps 2 and 3). -/
def saveContext (h : Nat) (s : State) : State :=
  let c := s.ctx h
  let fs := (s.run h).faces
  let s1 := saveHeader c.save fs (s.run h).waits s
  let s2 := ((List.range fs.length).zip fs).foldl (saveImage h c.save) s1
  let s3 := s2.stBytes (gsaveAddr c fs.length) (s.ldBytes (galBase + c.gsave) (64 * c.glen))
  s3.setRun h { s3.run h with saved := true }

/-! ### Restoring (R337 steps 4 and 5, R339) -/

/-- A face cleared for a context: store, accumulators and resident configurations (R337 step 5), and what a launch sets (R203,
R208, R214, R272). -/
def clearFace (r : Run) (k : Nat) (s : State) (f : Nat) : State :=
  (s.zero (fsAddr f 0) (fsAddr f 0 + fsSize)).setFace f { xs := [0, 0, 0, 0, 0, 0, f, k], step := r.origin }

/-- The word of a record leads here (R207, R339). -/
def leadsTo (s : State) (r : Run) (lcs lstart : List Nat) (pos : Nat) : Nat :=
  let w := s.ld (r.list + 16 * pos) 16
  match wOp w with
  | 0x01 => pos
  | 0x02 => if nth 0 lcs (fld w 25 24) = 0 then s.afterEndloop r.list r.words (pos + 1) 0 else pos + 1
  | 0x03 => if nth 0 lcs (fld w 25 24) ≠ 0 then nth 0 lstart (fld w 25 24) else pos + 1
  | 0x04 => if branchTaken { lcs := lcs } w then branchTarget pos w else pos + 1
  | _ => pos + 1

/-- The face that an image spells (R338, R339). -/
def imageFace (s : State) (h : Nat) (a k : Nat) : FaceSt :=
  let r := s.run h
  let n := fld (s.ld (a + 4) 4) 5 0
  let resume := fld (s.ld a 4) 19 0
  let rec' (i : Nat) : Nat := a + 0x200 + 16 * i
  let pos (i : Nat) : Nat := fld (s.ld (rec' i) 4) 19 0
  let lcs := (List.range 4).map fun i => s.ld (a + 0x24 + 2 * i) 2
  let lstart := (List.range 4).map fun i => fld (s.ld (a + 0x2C + 4 * i) 4) 19 0
  let quant (i : Nat) : Bool := isQuantWord (wOp (s.ld (r.list + 16 * pos i) 16))
  let mid := s.ld (a + 0x144) 4 * 512 + s.ld (a + 0x140) 4 % 2 * 256 + s.ld (a + 0x148) 4 % 256
  let redo := ((List.range n).map fun i =>
    let st := s.ld (rec' i + 12) 4
    ({ pos := pos i, lcs := (List.range 4).map fun j => s.ld (rec' i + 4 + 2 * j) 2,
       progress := if st % 4 = 2 then (if quant i then mid else st / 256) else 0, done := st % 4 == 0, quant := quant i,
       dec := if quant i && st % 4 == 2 then NMap.find r.decs k else none } : Redo)).dropWhile (·.done)
  let none' := s.ld (a + 0x128) 4
  let cfgw := s.ld (a + 0x60) 4
  let srcs := NMap.get [] r.srcs k
  { pc := if n = 0 then resume else leadsTo s r lcs lstart (pos (n - 1))
    xs := 0 :: (List.range 7).map fun i => s.ld (a + 8 + 4 * i) 4
    lcs := lcs
    lstart := lstart
    step := s.ld (a + 0x40) 8
    lflags := s.ld (a + 0x48) 4
    bars := (List.range 16).map fun i => s.ld (a + 0x50 + i) 1
    cfgSel := cfgw % 4
    cfgs := (List.range 4).map fun i =>
      if bit cfgw (4 + i) then { src := nth 0 srcs i, bytes := s.ldBytes (a + 0xC00 + 0x800 * i) 2048, valid := true } else {}
    taps := (List.range 2).map fun i =>
      { desc := if bit none' i then none else some (s.ldBytes (a + 0xA0 + 64 * i) 64)
        ox := s.ld (a + 0x120 + 4 * i) 2, oy := s.ld (a + 0x122 + 4 * i) 2 }
    acc := (List.range 512).filterMap fun i =>
      let v := sext 32 (s.ld (a + 0x400 + 4 * i) 4)
      if v = 0 then none else some (i, v)
    redo := redo
    stopped := decide (n ≠ 0) && wOp (s.ld (r.list + 16 * pos (n - 1)) 16) == 0x01
    hold := if (s.ctx h).batch && s.ld (a + 0x40) 4 != r.step then .step else .none }

/-- The recorded live ranges of an image, as written. -/
def imageLive (s : State) (a : Nat) : List (Nat × Nat) :=
  (List.range 8).filterMap fun k => let v := s.ld (a + 0x80 + 4 * k) 4; if bit v 31 then some (fld v 11 0, fld v 24 12) else none

/-- A face restored from its image (R339). -/
def restoreImage (h : Nat) (s : State) (e : Nat × Nat) : State :=
  let a := imageAddr (s.ctx h).save e.1
  let x := imageFace s h a e.1
  let s1 := (clearFace (s.run h) e.1 s e.2).setFace e.2 x
  (imageLive s a).foldl (fun t r => t.stFs e.2 (64 * r.1) (s.ldBytes (a + 0x4000 + 64 * r.1) (64 * r.2))) s1

/-- The first word in error that a restore reads. -/
def State.restoreBad (s : State) (h : Nat) : Option Nat :=
  let c := s.ctx h
  let fs := (s.run h).faces
  ((List.range fs.length).findSome? fun k =>
    let a := imageAddr c.save k
    let cfgs := (List.range 4).filter fun i => bit (s.ld (a + 0x60) 4) (4 + i)
    ((s.ueIn a 0xC00).orElse fun _ => cfgs.findSome? fun i => s.ueIn (a + 0xC00 + 0x800 * i) 2048).orElse
      fun _ => (imageLive s a).findSome? fun r => s.ueIn (a + 0x4000 + 64 * r.1) (64 * r.2)).orElse
    fun _ => s.ueIn (gsaveAddr c fs.length) (64 * c.glen)

/-- A context put on its faces: from its save area, or cleared for a start (R333, R337 steps 4 and 5). -/
def loadContext (h : Nat) (s : State) : State :=
  let c := s.ctx h
  let r := s.run h
  let e := (List.range r.faces.length).zip r.faces
  if r.saved then
    e.foldl (restoreImage h) (s.stBytes (galBase + c.gsave) (s.ldBytes (gsaveAddr c r.faces.length) (64 * c.glen)))
  else e.foldl (fun t x => clearFace r x.1 t x.2) s

end Sys2Proof.Machine
end

