-- ==== Sys2Proof/Machine/Switch.lean ====
section
/-! DEFINITION. Turns of contexts as commands: the end of a slice, blocking and unblocking, and the completion of a switch
(R332-R337). -/
namespace Sys2Proof.Machine

/-- A flag on which a face holds: space, index, drift (for a stope flag, the stope), awaited value (R334). -/
abbrev WaitFlag := Nat × Nat × Nat × Bool

/-- The wait flag that a face's flag reference names. -/
def waitFlag (f : Nat) (r : FlagRef) (v : Bool) : WaitFlag := (r.space, r.index, if r.space = 1 then stopeOfFace f else r.drift, v)

/-- What a face holds on: the flag of a WAIT or of a W condition that does not read the awaited value, with `none` for a BAR;
nothing when it does not hold so (R334). -/
def State.holdsOn (s : State) (h f : Nat) : Option (Option WaitFlag) :=
  let x := s.face f
  let w := s.nextWord f h
  match x.hold with
  | .bar _ => some none
  | .wait =>
    let r := sigFlag x.xs w
    if r.space != 0 && !waitMet s f w x.xs then some (some (waitFlag f r (!bit w 41))) else none
  | .none =>
    let r := condRef f w
    if s.canIssue f h && x.redo.isEmpty && wW w && r.space != 0 && !s.flag f r then some (some (waitFlag f r true)) else none
  | _ => none

/-- The wait set of a context all of whose unfinished faces hold, at least one of them on a flag (R334). -/
def State.waitSet (s : State) (h : Nat) : Option (List WaitFlag) :=
  let hs := ((s.run h).faces.filter fun f => !(s.face f).finished).map (s.holdsOn h)
  let ws := (hs.filterMap fun x => x.join).eraseDups
  if hs.all Option.isSome && ws != [] && decide (ws.length ≤ 16) then some ws else none

/-- A flag of a wait set reads its awaited value. -/
def State.waitHolds (s : State) (w : WaitFlag) : Bool :=
  (if w.1 = 1 then NSet.has s.sflags (w.2.2.1 * 256 + w.2.1) else s.gflag w.2.2.1 w.2.1) == w.2.2.2

/-- The RUNNING ASYNC context of a partition that no switch and no substitution stops. -/
def State.runningAsync (s : State) (p : Nat) : Option Nat :=
  let x := s.part p
  match x.running with
  | some h => if !x.switching && !x.held && (s.ctx h).cls == 0 && (s.ctx h).state == 3 then some h else none
  | none => none

/-- The end of a slice (R332). -/
def sliceEnd (p : Nat) (s : State) : State :=
  match s.runningAsync p with
  | none => s
  | some h =>
    let s1 := s.tally devPage 0x14
    match s1.nextAsync p with
    | some g => s1.setPart p { s1.part p with switching := true, outgoing := some h, outBlocked := false, incoming := some g }
    | none => s1

/-- SLICE_END (R332). -/
def execSliceEnd (part : Fin 32) (s : State) : Host.Outcome State Fault Refusal := .next (sliceEnd part s)

/-- A running context becomes BLOCKED and is switched out (R334). -/
def ctxBlocked (p : Nat) (s : State) : State :=
  match s.runningAsync p with
  | none => s
  | some h =>
    match s.waitSet h with
    | none => s
    | some ws =>
      let s1 := (s.modCtx h fun c => { c with state := 4, blockedAt := s.reading % 2 ^ 32 }).tally devPage 0x15
      let s2 := s1.setRun h { s1.run h with waits := ws }
      s2.setPart p { s2.part p with switching := true, outgoing := some h, outBlocked := true, incoming := s2.nextAsync p }

/-- CTX_BLOCKED (R334). -/
def execCtxBlocked (part : Fin 32) (s : State) : Host.Outcome State Fault Refusal := .next (ctxBlocked part s)

/-- A BLOCKED context whose switch-out is over becomes READY when a flag of its wait set reads its awaited value (R334). -/
def ctxUnblock (h : Nat) (s : State) : State :=
  if (s.ctx h).state == 4 && (s.part (s.ctx h).part).outgoing != some h && (s.run h).waits.any s.waitHolds then becomeReady h s else s

/-- CTX_UNBLOCK (R334). -/
def execCtxUnblock (handle : Handle) (s : State) : Host.Outcome State Fault Refusal := .next (ctxUnblock handle s)

/-! ### The completion of a switch (R337) -/

/-- Steps 1 to 3 for the outgoing context: its work settles, its state goes to the save area, and it is READY or BLOCKED. A
context that settling tears down saves nothing. -/
def leaveFaces (p h : Nat) (s : State) : State :=
  let s1 := (s.run h).faces.foldl (settleFace h) (withdrawJobs h s)
  if (s1.part p).outgoing ≠ some h then s1
  else match s1.saveBad h with
    | some a => ueStrike a (some h) false s1
    | none =>
      let s2 := if (s1.part p).outBlocked then s1 else s1.setRun h { s1.run h with waits := [] }
      let s3 := saveContext h s2
      let st := if (s3.part p).outBlocked && !(s3.run h).waits.any s3.waitHolds then 4 else 2
      (s3.modCtx h fun c => { c with state := st }).setPart p { s3.part p with outgoing := none, running := none }

/-- The boundary between steps 3 and 4 (R337): with no context chosen to come in, the partition chooses one if it can. -/
def chooseIncoming (p : Nat) (s : State) : State :=
  let x := s.part p
  if x.incoming.isSome then s else sched p (s.setPart p { x with switching := false, outgoing := none, running := none })

/-- Steps 4 to 6 for the incoming context: its faces are cleared or restored and it is RUNNING. -/
def enterFaces (p h : Nat) (s : State) : State :=
  match if (s.run h).saved then s.restoreBad h else none with
  | some a => ueStrike a (some h) false s
  | none =>
    let s1 := loadContext h s
    let s2 := (s1.modCtx h fun c => { c with state := 3 }).setRun h { s1.run h with saved := false }
    let x := s2.part p
    (s2.setPart p { x with
      switching := false, outgoing := none, outBlocked := false, incoming := none, running := some h
      lastSlot := if (s.ctx h).cls = 0 then (s.ctx h).slot else x.lastSlot
      preempted := if (s.ctx h).cls = 0 then none else x.preempted }).tally devPage 0x10

/-- A switch of a partition completes (R337); it waits for the copies of the outgoing context that have begun (R341). -/
def switchComplete (p : Nat) (s : State) : State :=
  let x := s.part p
  if !x.switching || x.held then s
  else
    let s1 := match x.outgoing with
      | some h => if s.copiesUnderWay h then none else some (leaveFaces p h s)
      | none => some s
    match s1 with
    | none => s
    | some s2 =>
      if !(s2.part p).switching || (s2.part p).outgoing.isSome then s2
      else
        let s3 := chooseIncoming p s2
        match (s3.part p).switching, (s3.part p).incoming with
        | true, some h => enterFaces p h s3
        | _, _ => s3

/-- CONTEXT_SWITCH_COMPLETE (R337). -/
def execContextSwitchComplete (part : Fin 32) (s : State) : Host.Outcome State Fault Refusal := .next (switchComplete part s)

end Sys2Proof.Machine
end

