-- ==== Sys2Proof/Machine/Cage.lean ====
section
/-! DEFINITION. The cage (R54-R106): enabling a head group, model slots, the schedule, weight and slot switches, band launches,
pose latches, deadlines, fallbacks and band records. -/
namespace Sys2Proof.Machine

/-! ### Geometry of a head group -/

/-- Band height H (R70). -/
def State.hgH (s : State) (g : Nat) : Nat := 32 * 2 ^ s.rf cagePage (hgOff g) 13 12
/-- Guard G (R71). -/
def State.hgG (s : State) (g : Nat) : Nat := s.rf cagePage (hgOff g) 18 16
/-- Compute window K (R71). -/
def State.hgK (s : State) (g : Nat) : Nat := s.rf cagePage (hgOff g) 22 20
/-- Latch lead P (R71). -/
def State.hgP (s : State) (g : Nat) : Nat := s.rf cagePage (hgOff g + 4) 23 16
/-- Partition of a head group. -/
def State.hgPart (s : State) (g : Nat) : Nat := s.rf cagePage (hgOff g) 29 24
/-- Slot field of HG_CFG0. -/
def State.hgSlot (s : State) (g : Nat) : Nat := s.rf cagePage (hgOff g) 9 8
/-- Bands B of a frame (R70). -/
def State.hgB (s : State) (g : Nat) : Nat := ceilDiv (s.hgA g) (s.hgH g)
/-- Base of the frame slot of output frame `F` (R76). -/
def State.hgBuf (s : State) (g F : Nat) : Nat := s.rd64 cagePage (hgOff g + 0x20) + F % s.hgDepth g * s.hgSlotSize g
/-- The render ratio r as a fraction and the alignment q (R63). -/
def State.hgRatio (s : State) (g : Nat) : Nat × Nat × Nat := match s.rf cagePage (hgOff g + 4) 2 0 with
  | 0 => (1, 1, 1)
  | 1 => (3, 2, 3)
  | 2 => (2, 1, 2)
  | 3 => (3, 1, 3)
  | _ => (4, 1, 4)
/-- Address of launch block `i` of a head group (R75). -/
def State.hgBlock (s : State) (g i : Nat) : Nat := galBase + s.rd cagePage (hgOff g + 0x30) + 0x100 * i
/-- The drift of the done and pose flags of a head group: that of its launch blocks (log entry 14). -/
def State.hgDrift (s : State) (g : Nat) : Nat := s.rd cagePage (hgOff g + 0x30) / galOne
/-- Done flag base. -/
def State.hgDone (s : State) (g : Nat) : Nat := s.rf cagePage (hgOff g + 0x34) 11 0
/-- Pose flag base. -/
def State.hgPose (s : State) (g : Nat) : Nat := s.rf cagePage (hgOff g + 0x34) 27 16
/-- What the cage keeps of a head group. -/
def State.group (s : State) (g : Nat) : GroupSt := NMap.get {} s.groups g
/-- The state with what the cage keeps of a head group changed. -/
def State.modGroup (s : State) (g : Nat) (f : GroupSt → GroupSt) : State := { s with groups := NMap.put s.groups g (f (s.group g)) }

/-- Frame `F` is at or after frame `f`, modulo 2^32 (R64). -/
def frameFrom (F f : Nat) : Bool := !laterFrame f F

/-- The weight set of the bands of a frame (R97). -/
def State.hgWeights (s : State) (g F : Nat) : Nat :=
  let x := s.group g
  match x.wAt with
  | some w => if frameFrom F w then x.weights else x.oldWeights
  | none => x.weights

/-- The model slot of the bands of a frame (R97). -/
def State.slotOf (s : State) (g F : Nat) : Nat :=
  let x := s.group g
  match x.sAt with
  | some w => if frameFrom F w then s.hgSlot g else x.oldSlot
  | none => s.hgSlot g

/-- The descriptor of a model slot as it was loaded. -/
def State.desc (s : State) (k : Nat) : List Byte := NMap.get [] s.slotDesc k

/-- SLOT_STAT.VALID. -/
def State.slotValid (s : State) (k : Nat) : Bool := (NMap.find s.slotDesc k).isSome

/-! ### Model slots (R66, R67, R104) -/

/-- SLOT_STAT.IN_USE: an enabled group uses the slot or has it pending (R104). -/
def State.slotInUse (s : State) (k : Nat) : Bool := (List.range 4).any fun g =>
  s.hgEn g && (s.hgSlot g == k || (s.rb cagePage (hgOff g + 0x5C) 9 && s.rf cagePage (hgOff g + 0x5C) 1 0 == k))

/-- A write of SLOT_CMD: LOAD in [0], UNLOAD in [1]. With both set the slot is unloaded and not loaded, and a LOAD clears VALID at once
(DESIGN CHOICE, log entry 30). -/
def actSlotCmd (id k v : Nat) (s : State) : State :=
  if !bit v 0 && !bit v 1 then s
  else if s.slotInUse k then s.faultBy cagePage 0x2002 id
  else if bit v 1 then
    { s with slotDesc := NMap.del s.slotDesc k, slotLoading := NSet.del s.slotLoading k }.wb cagePage (0x30C + 0x10 * k) 0 false
  else { s with slotDesc := NMap.del s.slotDesc k, slotLoading := NSet.add s.slotLoading k }.wb cagePage (0x30C + 0x10 * k) 0 false

/-- SLOT_LOAD (R67). -/
def execSlotLoad (id : Ident) (slot : Fin 4) (s : State) : Host.Outcome State Fault Refusal :=
  .next (guardW id cagePage (0x308 + 0x10 * slot) s (actSlotCmd id slot 1))
/-- SLOT_UNLOAD (R104). -/
def execSlotUnload (id : Ident) (slot : Fin 4) (s : State) : Host.Outcome State Fault Refusal :=
  .next (guardW id cagePage (0x308 + 0x10 * slot) s (actSlotCmd id slot 2))

/-- A range of bytes lies in DRAM. -/
def inDram (a n : Nat) : Bool := decide (a + n ≤ dramSize)

/-- A 40-bit field of a slot descriptor: an address, or WEIGHT_BYTES (R66). -/
def slotField (d : List Byte) (off : Nat) : Nat := leAt d off 5

/-- The address ranges that a slot descriptor names (R66): band list, weights, adaptation list. -/
def slotRanges (d : List Byte) : List (Nat × Nat) :=
  [(slotField d 0x30, 16 * leAt d 0x38 4), (slotField d 0x40, slotField d 0x48), (slotField d 0x50, 0)]

/-- The checks of R67 that come before DIGEST: MAGIC, VERSION, and that every address lies in DRAM. -/
def slotHeadCheck (d : List Byte) : Nat :=
  if leAt d 0 4 ≠ 0x534C4F54 then 0x01
  else if leAt d 4 2 ≠ 1 then 0x02
  else if !((slotRanges d).all fun r => inDram r.1 r.2) then 0x05
  else 0

/-- The first check of R67 that a descriptor fails, as ERR; 0 when it passes all. The loader checks include that the WORDS of the band
list's header equal LIST_WORDS (R196). -/
def State.slotCheck (s : State) (d : List Byte) : Nat :=
  if slotHeadCheck d ≠ 0 then slotHeadCheck d
  else if shake256 (s.ldBytes (slotField d 0x30) (16 * leAt d 0x38 4) ++ s.ldBytes (slotField d 0x40) (slotField d 0x48)) 32 ≠
    sliceL d 8 32 then 0x03
  else if s.listCheck none (slotField d 0x30) true ≠ 0 ∨ headerWords (s.ld (slotField d 0x30) 16) ≠ leAt d 0x38 4 then 0x04
  else 0

/-- The first word in error that the load of a slot reads: in the descriptor, or, when it passes the checks before DIGEST, in the band
list and weights. -/
def State.slotBad (s : State) (a : Nat) (d : List Byte) : Option Nat :=
  (s.ueIn a 256).orElse fun _ => if slotHeadCheck d ≠ 0 then none else (slotRanges d).findSome? fun r => s.ueIn r.1 r.2

/-- A LOAD ends (R67); one that met an uncorrectable error and passes the checks before DIGEST cannot match its DIGEST. -/
def slotLoadDone (k : Nat) (s : State) : State :=
  if !NSet.has s.slotLoading k then s
  else
    let a := s.rd64 cagePage (0x300 + 0x10 * k)
    let d := s.ldBytes a 256
    let s1 := match s.slotBad a d with
      | some w => ueStrike w none false s
      | none => s
    let e := if slotHeadCheck d ≠ 0 then slotHeadCheck d else if (s.slotBad a d).isSome then 0x03 else s.slotCheck d
    let s2 : State := { s1 with
      slotLoading := NSet.del s1.slotLoading k, slotDesc := if e = 0 then NMap.put s1.slotDesc k d else s1.slotDesc }
    (s2.wr cagePage (0x30C + 0x10 * k) (b2n (e == 0) + 256 * e)).irq cagePage 10

/-- SLOT_LOAD_DONE (R67). -/
def execSlotLoadDone (slot : Fin 4) (s : State) : Host.Outcome State Fault Refusal := .next (slotLoadDone slot s)

/-! ### Enabling and disabling (R101-R103) -/

/-- The header of a slot breaks R62. A ROWGROUP of 0 gives no row groups to a plane of no rows, and breaks R62 for any other (DEDUCED,
log entry 30). -/
def State.slotBreaks (s : State) (g : Nat) (h : Nat) : Bool :=
  (s.hRowGroup h == 0 && s.hHeight h != 0) || decide (254 < s.hGroups h) || decide (4095 < s.hFlagBase h + s.hGroups h - 1) || decide (4095 < s.haloBase g + 257)

/-- Every slot header of the group's input and reference stores keeps R62 (R102). -/
def State.storesOk (s : State) (g : Nat) : Bool :=
  ((List.range (s.inputDepth g)).all fun i => !s.slotBreaks g (s.slotHdr g false i)) &&
    (List.range 2).all fun i => !s.slotBreaks g (s.slotHdr g true i)

/-- The model slot supports the ratios, band height and lead of a head group, and its partition is large enough (R66, R102). -/
def State.slotSupports (s : State) (g : Nat) : Bool :=
  let d := s.desc (s.hgSlot g)
  let w := leAt d 0x28 4
  s.slotValid (s.hgSlot g) && bit w (16 + s.rf cagePage (hgOff g + 4) 2 0) && bit w (24 + s.hgRf g - 1) &&
    bit w (28 + s.rf cagePage (hgOff g) 13 12) && decide (s.hgK g ≤ fld (leAt d 0x2C 4) 19 16) &&
    decide (leAt d 0x2C 2 ≤ ((s.partFaces (s.hgPart g)).filter fun f => s.pageOn (s.facePg f)).length)

/-- The heads of a group run one mode and belong to no other enabled group (R54, R102). -/
def State.headsOk (s : State) (g : Nat) : Bool :=
  match s.hgHeads g with
  | [] => false
  | h :: hs => (hs.all fun k => s.headMode k == s.headMode h && s.headFrac k == s.headFrac h) &&
    (h :: hs).all fun k => (List.range 4).all fun e => e == g || !s.hgEn e || !(s.hgHeads e).contains k

/-- The region keeps R63. -/
def State.regionOk (s : State) (g : Nat) : Bool :=
  let q := (s.hgRatio g).2.2
  let c := s.rd cagePage (hgOff g + 0x3C)
  decide (c % 65536 % q = 0) && decide (c / 65536 % q = 0) && decide (s.hgW g % q = 0) && decide (s.hgA g % q = 0)

/-- The enable of a head group passes R102. -/
def State.hgOk (s : State) (g : Nat) : Bool :=
  decide ((s.hgG g + s.hgK g) * s.hgH g + 1 ≤ s.hgV g) && decide (s.hgP g < s.hgK g * s.hgH g) && s.slotSupports g && s.headsOk g &&
    s.regionOk g && s.storesOk g

/-! ### Line positions (R71, R72) -/

/-- A line position of frame `F`: one below 0 lies in frame F - 1 at that position plus V (R72). -/
def State.linePos (s : State) (g F : Nat) (l : Int) : Nat × Nat :=
  if l < 0 then ((F + 2 ^ 32 - 1) % 2 ^ 32, (l + s.hgV g).toNat) else (F, l.toNat)

/-- Frame and line of the launch of band `b` of frame `F` (R71, R72). -/
def State.launchPos (s : State) (g F b : Nat) : Nat × Nat := s.linePos g F ((b * s.hgH g : Int) - 1 - (s.hgG g + s.hgK g) * s.hgH g)
/-- Frame and line of its pose latch. -/
def State.latchPos (s : State) (g F b : Nat) : Nat × Nat := s.linePos g F ((b * s.hgH g : Int) - 1 - s.hgG g * s.hgH g - s.hgP g)
/-- Frame and line of its deadline. -/
def State.deadlinePos (s : State) (g F b : Nat) : Nat × Nat := s.linePos g F ((b * s.hgH g : Int) - 1 - s.hgG g * s.hgH g)
/-- Frame and line at which the headframe begins to fetch it. -/
def State.fetchPos (s : State) (g F b : Nat) : Nat × Nat := s.linePos g F ((b * s.hgH g : Int) - 1)

/-- The group's display is in the line of a position: the cage acts at a line edge within that line (R71, R73). -/
def State.hgAt (s : State) (g : Nat) (p : Nat × Nat) : Bool := (s.leadHead g).isSome && s.hgPos g == p

/-- A line position lies after another. -/
def posAfter (p q : Nat × Nat) : Bool := laterFrame p.1 q.1 || (p.1 == q.1 && decide (q.2 < p.2))

/-- The frame with which a head goes on after the frame in progress when a rephase waits: the first t_F at or after its end (R451). -/
def State.frameNext (s : State) (h : Nat) : Nat :=
  let x := s.head h
  let m := s.headMode h
  s.frameAfter h ((m.vt - x.line) * 1000000000 * (s.headRate h).2 / ((s.headRate h).1 * m.vt)) % 2 ^ 32

/-- A frame that the group's display skips: its lead head completes its frame before a rephase and does not go on with that one (R451). -/
def State.frameSkipped (s : State) (g F : Nat) : Bool := match s.leadHead g with
  | some h => (s.head h).timing == 3 && (s.head h).frame != F && s.frameNext h != F
  | none => false

/-- The first frame whose band 0 launch line is still to come (R102); none while no head of the group runs its timing: the frame after
the first that its lead head begins then (`hgFirst`). -/
def State.firstFrame (s : State) (g : Nat) : Option Nat :=
  if (s.leadHead g).isSome then
    let f := (s.hgPos g).1
    some ((f + (if posAfter (s.launchPos g ((f + 1) % 2 ^ 32) 0) (s.hgPos g) then 1 else 2)) % 2 ^ 32)
  else none

/-- A head group without a first frame takes the one after the frame that its lead head begins (R102). -/
def hgFirst (F : Nat) (s : State) (g : Nat) : State :=
  if s.hgEn g && (s.group g).start.isNone && (s.leadHead g).isSome then s.modGroup g fun x => { x with start := some ((F + 1) % 2 ^ 32) } else s

/-- Frame `F` is at or after the first frame that the group runs (R102). -/
def State.hgStarted (s : State) (g F : Nat) : Bool := (s.group g).start.any fun f => frameFrom F f

/-- The bands of a head group that the cage keeps are dropped when a property of frame and band fails. -/
def keepBands (g : Nat) (p : Nat → BandRun → Bool) (s : State) : State :=
  { s with bands := s.bands.filter fun e => e.1 / 2 ^ 40 != g || p (e.1 % 2 ^ 40 / 256) e.2 }

/-- The band train of a head group in its schedule entry (R77). -/
def State.bandTrain (s : State) (g : Nat) : List Nat :=
  [1 + 16 * g, (s.launchPos g 1 0).2 + 65536 * s.hgB g, s.hgH g, 0]

/-- An accepted enable (R88, R102, R461): of an earlier enable only the bands that have yet to meet their deadline remain (R103). -/
def hgStart (g : Nat) (s : State) : State :=
  let s1 := (keepBands g (fun _ x => x.launched && !x.due) s).wr cagePage (hgOff g + 0x68) 0
  let s2 := s1.modGroup g fun x =>
    { start := s1.firstFrame g, weights := slotField (s1.desc (s1.hgSlot g)) 0x40, fired := x.fired, refDrop := x.refDrop }
  { s2 with sched := NMap.put s2.sched g (s2.bandTrain g) }

/-- EN of a head group falls: no further band is launched, pending switches are cleared, an undecided step is late (R103, R320). -/
def hgStop (g : Nat) (s : State) : State :=
  let s1 := adDisabled g s
  let s2 := (s1.wb cagePage (hgOff g + 0x4C) 8 false).wb cagePage (hgOff g + 0x5C) 9 false
  { s2 with sched := NMap.del s2.sched g }

/-- A write of HG_CFG0 (R101-R103). -/
def actHgCfg0 (id g v : Nat) (s : State) : State :=
  match regAt cagePage (hgOff g) with
  | none => s
  | some r =>
    let n := mergeWrite r.row (s.rd cagePage (hgOff g)) v
    if s.hgEn g then (if bit n 0 then s else (hgStop g s).wr cagePage (hgOff g) n)
    else
      let t := s.wr cagePage (hgOff g) (setBit n 0 false)
      if !bit n 0 then t
      else if t.hgOk g then hgStart g (t.wb cagePage (hgOff g) 0 true)
      else t.faultBy cagePage 0x2001 id

/-- HG_ENABLE (R102). -/
def execHgEnable (id : Ident) (hg : Fin 4) (value : Word) (s : State) : Host.Outcome State Fault Refusal :=
  .next (guardW id cagePage (hgOff hg) s (actHgCfg0 id hg (setBit value.toNat 0 true)))
/-- HG_DISABLE (R103). -/
def execHgDisable (id : Ident) (hg : Fin 4) (value : Word) (s : State) : Host.Outcome State Fault Refusal :=
  .next (guardW id cagePage (hgOff hg) s (actHgCfg0 id hg (setBit value.toNat 0 false)))

/-! ### Weight and slot switches (R96-R98) -/

/-- The commit point of frame `F` of a head group has passed: the launch line of its band 0 (R97). In replay, where launches keep to no
line, it is the launch of band 0 itself (log entry 30). -/
def State.commitPassed (s : State) (g F : Nat) : Bool :=
  ((s.group g).last0.any fun l => frameFrom l F) ||
    (!s.replay && (s.leadHead g).isSome && posAfter (s.hgPos g) (s.launchPos g F 0))

/-- A refused switch is counted (R97). -/
def switchRefused (s : State) : State := s.tally cagePage 0x1E

/-- The cage or a master arms the weight switch (R97). -/
def armWeights (g : Nat) (s : State) : State :=
  if s.commitPassed g (s.rd cagePage (hgOff g + 0x48)) then switchRefused s else s.wb cagePage (hgOff g + 0x4C) 8 true

/-- A CANCEL of a switch: one that is pending is cleared; after a commit the CANCEL is counted (R97); with no switch ever committed since
the enable it changes nothing (DESIGN CHOICE, log entry 30). `at` is the frame of the last commit, `off` and `b` the PENDING bit. -/
def cancelSwitch (off b : Nat) (at0 : Option Nat) (s : State) : State :=
  if s.rb cagePage off b then s.wb cagePage off b false else if at0.isSome then switchRefused s else s

/-- A CANCEL of the weight switch (R97). -/
def cancelWeights (g : Nat) (s : State) : State := cancelSwitch (hgOff g + 0x4C) 8 (s.group g).wAt s

/-- A write of HG_WCTRL: ARM in [0], CANCEL in [1]; discarded while adaptation is enabled (R319). With both set the switch is armed and
then cancelled (DESIGN CHOICE, log entry 30). -/
def actWctrl (g v : Nat) (s : State) : State :=
  if s.adEn g then s
  else
    let s1 := if bit v 0 then armWeights g s else s
    if bit v 1 then cancelWeights g s1 else s1

/-- WEIGHT_ARM (R97). -/
def execWeightArm (id : Ident) (hg : Fin 4) (s : State) : Host.Outcome State Fault Refusal :=
  .next (guardW id cagePage (hgOff hg + 0x4C) s (actWctrl hg 1))
/-- WEIGHT_CANCEL (R97). -/
def execWeightCancel (id : Ident) (hg : Fin 4) (s : State) : Host.Outcome State Fault Refusal :=
  .next (guardW id cagePage (hgOff hg + 0x4C) s (actWctrl hg 2))

/-- A write of HG_SLOT_NEXT: SLOT in [1:0], ARM in [8], CANCEL in [10] (R97, R319); ARM before CANCEL as in `actWctrl`. -/
def actSlotNext (g v : Nat) (s : State) : State :=
  let s1 := s.wf cagePage (hgOff g + 0x5C) 1 0 (v % 4)
  let s2 := if !bit v 8 then s1
    else if s1.adEn g || s1.commitPassed g (s1.rd cagePage (hgOff g + 0x60)) then switchRefused s1
    else s1.wb cagePage (hgOff g + 0x5C) 9 true
  if bit v 10 then cancelSwitch (hgOff g + 0x5C) 9 (s2.group g).sAt s2 else s2

/-- SLOT_SWITCH_ARM (R97). -/
def execSlotSwitchArm (id : Ident) (hg : Fin 4) (value : Word) (s : State) : Host.Outcome State Fault Refusal :=
  .next (guardW id cagePage (hgOff hg + 0x5C) s (actSlotNext hg (setBit value.toNat 8 true)))
/-- SLOT_SWITCH_CANCEL (R97). -/
def execSlotSwitchCancel (id : Ident) (hg : Fin 4) (s : State) : Host.Outcome State Fault Refusal :=
  .next (guardW id cagePage (hgOff hg + 0x5C) s fun t => actSlotNext hg (t.rf cagePage (hgOff hg + 0x5C) 1 0 + 0x400) t)

/-- A slot switch that frame `F` has reached commits: the slot and its weights take effect (R97). A skipped HG_SLOT_AT commits with the
first frame after it. -/
def commitSlot (g F : Nat) (s : State) : State :=
  if s.rb cagePage (hgOff g + 0x5C) 9 && frameFrom F (s.rd cagePage (hgOff g + 0x60)) then
    let k := s.rf cagePage (hgOff g + 0x5C) 1 0
    let s1 := s.modGroup g fun x => { x with
      oldSlot := s.hgSlot g, sAt := some F, oldWeights := x.weights, weights := slotField (s.desc k) 0x40, wAt := some F }
    ((s1.wf cagePage (hgOff g) 9 8 k).wb cagePage (hgOff g + 0x5C) 9 false).irq cagePage 11
  else s

/-- A weight switch that frame `F` has reached commits, and with it the step that armed it (R97, R312). -/
def commitWeights (g F : Nat) (s : State) : State :=
  if s.rb cagePage (hgOff g + 0x4C) 8 && frameFrom F (s.rd cagePage (hgOff g + 0x48)) then
    let w := s.rd64 cagePage (hgOff g + 0x40) % 2 ^ 40
    let s1 := s.modGroup g fun x => { x with oldWeights := if x.wAt = some F then x.oldWeights else x.weights, weights := w, wAt := some F }
    let s2 := (s1.wb cagePage (hgOff g + 0x4C) 8 false).irq cagePage 11
    if (s2.ad g).phase = 2 then stepCommit g s2 else s2
  else s

/-- The launch line of band 0 of a frame, or the launch of a later band when that line was skipped: both switches commit (R97). -/
def commitSwitches (g F : Nat) (s : State) : State :=
  (commitWeights g F (commitSlot g F s)).modGroup g fun x => { x with last0 := some F }

/-- HG_WCTRL.OLD_BUSY: a launched band that carries an earlier weight set has not reached its deadline (R98, log entry 30). -/
def State.oldBusy (s : State) (g : Nat) : Bool := match (s.group g).wAt with
  | none => false
  | some w => s.bands.any fun e => e.1 / 2 ^ 40 == g && e.2.launched && !e.2.due && laterFrame w (e.1 % 2 ^ 40 / 256)

/-! ### The schedule (R77, R78, R104) -/

/-- A write of SCHED_CMD: WRITE in [0], READ in [1]. A WRITE with a TYPE that R77 does not list is discarded whole (DESIGN CHOICE, log
entry 30). -/
def actSchedCmd (id v : Nat) (s : State) : State :=
  let k := s.rf cagePage 0x340 7 0
  let w := (List.range 4).map fun j => s.rd cagePage (0x350 + 4 * j)
  let type := nth 0 w 0 % 16
  let e := [nth 0 w 0 &&& 0x01FFFF3F, nth 0 w 1 &&& 0x1FFF1FFF, nth 0 w 2 &&& 0xFFFF1FFF, nth 0 w 3]
  let s1 := if !bit v 0 then s
    else if k < 4 ∨ type = 1 then s.faultBy cagePage 0x2004 id
    else if 3 < type then s
    else { s with sched := NMap.put s.sched k e }
  if bit v 1 then (List.range 4).foldl (fun t j => t.wr cagePage (0x350 + 4 * j) (nth 0 (NMap.get [] s1.sched k) j)) s1 else s1

/-- SCHED_WRITE (R104). -/
def execSchedWrite (id : Ident) (s : State) : Host.Outcome State Fault Refusal := .next (guardW id cagePage 0x344 s (actSchedCmd id 1))
/-- SCHED_READ (R99). -/
def execSchedRead (id : Ident) (s : State) : Host.Outcome State Fault Refusal := .next (guardW id cagePage 0x344 s (actSchedCmd id 2))

end Sys2Proof.Machine
end

