-- ==== Sys2Proof/Machine/Unit.lean ====
section
/-! DEFINITION. The unit region (R16-R18, R42-R45, R326, R330): unit states, launches and their checks, armed launches,
STOP, UNIT_BIND, and the end of a context's work (R210). -/
namespace Sys2Proof.Machine

/-! ### Members and states -/

/-- The stopes of a unit page (R13). -/
def unitStopes (p : Nat) : List Nat :=
  if pClass p = 4 then [pInst p / 17] else let r := unitSpan p; (List.range (r.2 / 16)).map fun k => r.1 / 16 + k

/-- The logical faces of a unit page: those of its stopes, or the one that a physical face carries (R13, R14). -/
def State.unitFaces (s : State) (p : Nat) : List Nat :=
  if pClass p = 4 then (s.logicalOf (pInst p)).toList else let r := unitSpan p; (List.range r.2).map fun k => r.1 + k

/-- The active logical faces of a unit page: those whose domain is on (R16, log entry 26). -/
def State.activeFaces (s : State) (p : Nat) : List Nat := (s.unitFaces p).filter fun f => s.pageOn (s.facePg f)

/-- UNIT_STATE.STATE of a context state (R330). -/
def ctxUnitState (st : Nat) : Nat := match st with
  | 2 | 3 | 4 => 3
  | 5 => 4
  | 6 => 5
  | _ => 0

/-- A launch waits for the loader or for its GCOUNT. -/
def Launch.waiting (l : Launch) : Bool := l.state == 1 || l.state == 2

/-- The context that a table slot names: the one in it, or the one last swapped out of it (R327, R330). -/
def State.slotCtx (s : State) (slot : Nat) : Option Nat :=
  (s.slotHandle slot).orElse fun _ => match NMap.find s.slotLast slot with
    | some e => if e.torn || s.resident e.handle || (s.ctx e.handle).state == 0 then none else some e.handle
    | none => none

/-- UNIT_STATE.STATE of a context in a table slot or swapped out (R330, R342): FAULTED, SWAPPED, or by its state. -/
def State.boundState (s : State) (h : Nat) : Nat :=
  let st := (s.ctx h).state
  if st = 6 then 5 else if !s.resident h && st != 0 then 6 else ctxUnitState st

/-- The state that a launch at a site gives its unit: 1 LOADING, 2 ARMED, 5 FAULTED, or its context's as long as the context runs what
was launched there. -/
def State.launchState (s : State) (site : Nat) (l : Launch) : Nat :=
  if l.waiting then (let v := s.boundState l.handle; if l.bound && (v == 5 || v == 6) then v else l.state)
  else if l.state = 3 then (if (s.run l.handle).site = site then s.boundState l.handle else 0)
  else l.state

/-- The state of the context that a slot names: a launch that loads or is armed for it, the context's own, SWAPPED, or FAULTED as long
as a context torn down there has been destroyed and not created again (R44, R330). -/
def State.slotState (s : State) (slot : Nat) : Nat :=
  match s.slotCtx slot with
  | some h => match s.launches.find? fun e => e.2.bound && e.2.handle == h && e.2.waiting with
    | some e => s.launchState e.1 e.2
    | none => s.boundState h
  | none => if (NMap.find s.slotLast slot).any fun e => e.torn then 5 else 0

/-- The logical faces of a launch site: those of its unit page, or of its partition. -/
def State.siteFaces (s : State) (site : Nat) : List Nat :=
  if site < 0x10000 then s.unitFaces site else s.partFaces ((site - 0x10000) / 64)

/-- A launch is in force: it loads, is armed, or its context still has its list in progress (R16). -/
def State.launchLive (s : State) (site : Nat) (l : Launch) : Bool :=
  if l.waiting then s.launchState site l != 5
  else l.state == 3 && (s.run l.handle).site == site && (s.ctx l.handle).active

/-- A group launch over a unit that is loading, armed or running, with its site: launched through another unit page, or through
PART_CMD for any page but the device page (R16, R18, R326; log entry 26). -/
def State.groupLaunch (s : State) (p : Nat) (parts : Bool) : Option (Nat × Launch) :=
  let fs := s.unitFaces p
  s.launches.find? fun e => e.1 != p && (decide (e.1 < 0x10000) || (parts && p != devPage && decide (e.1 < 0x20000))) && !fs.isEmpty &&
    s.launchLive e.1 e.2 && (let gs := s.siteFaces e.1; fs.all fun f => gs.contains f)

/-- A face is busy: a resident context has its list in progress on it and has not finished it there (R16). -/
def State.faceBusy (s : State) (f : Nat) : Bool := s.runs.any fun e =>
  e.2.faces.contains f && s.resident e.1 && (s.ctx e.1).active && !(s.faceOwner f == some e.1 && (s.face f).finished)

/-- A launch site whose failed load shows on a unit page: the page's own, and on the device page a PART_CMD's (R236, R326; log entry 26). -/
def showsOn (p site : Nat) : Bool := site == p || (p == devPage && decide (0x10000 ≤ site) && decide (site < 0x20000))

/-- The load that has failed on a unit page: its own, or on the device page that of a PART_CMD for the slot that UNIT_BIND names. -/
def State.failedLoad (s : State) (p : Nat) : Option Launch :=
  (s.launches.find? fun e => showsOn p e.1 && e.2.state == 5 && (e.1 == p || e.1 % 64 == s.rf p 0x054 5 0)).map (·.2)

/-- The failed loads of a unit page are forgotten (R44). -/
def State.forgetFailed (s : State) (p : Nat) : State := { s with launches := s.launches.filter fun e => !(showsOn p e.1 && e.2.state == 5) }

/-- What a unit page reads by its own launch and its UNIT_BIND: STATE and LOAD_ERR (R43, R44, R330). -/
def State.ownState (s : State) (p : Nat) : Nat × Nat :=
  let bound := if s.rb p 0x054 8 then s.slotState (s.rf p 0x054 5 0) else 0
  match s.failedLoad p with
  | some l => (5, l.err)
  | none => match NMap.find s.launches p with
    | some l => if l.waiting then (s.launchState p l, 0) else (bound, 0)
    | none => (bound, 0)

/-- UNIT_STATE.STATE and LOAD_ERR of a unit page (R16, R42, R43, R44, R330): the group launch over it; LOADING or ARMED by its own
launch; BUSY while a member face is busy; otherwise what its own launch and UNIT_BIND give. -/
def State.unitState (s : State) (p : Nat) : Nat × Nat :=
  match s.groupLaunch p true with
  | some e => (s.launchState e.1 e.2, 0)
  | none =>
    let own := s.ownState p
    if own.1 == 1 || own.1 == 2 then own else if (s.unitFaces p).any s.faceBusy then (3, 0) else own

/-- UNIT_STATE.STATE of the page of the physical face that carries a logical face. -/
def State.faceState (s : State) (f : Nat) : Nat := (s.unitState (s.facePg f)).1

/-- R45 locks the unit registers of a page; the device page only for its own launch (R326). -/
def State.unitLocked (s : State) (p : Nat) : Bool :=
  let v := if p = devPage then (match NMap.find s.launches p with
    | some l => s.launchState p l
    | none => 0) else (s.unitState p).1
  v == 1 || v == 2 || v == 3

/-- A self-test runs on a physical face that carries one of the faces (R148). -/
def State.testing (s : State) (fs : List Nat) : Bool := fs.any fun f => s.rf (s.facePg f) 0x138 9 8 == 3

/-! ### Launching -/

/-- A stope of a unit has been retired (R643). -/
def State.unitRetired (s : State) (p : Nat) : Bool := (unitStopes p).any s.stopeRetired

/-- The members of a unit do not lie in one partition: UNIT_DISABLED when none lies in any, UNIT_SPLIT otherwise, 0 for a unit
in one partition (R17). -/
def State.groupFault (s : State) (p : Nat) : Nat :=
  let ps := (unitStopes p).map s.partOf
  if ps.all Option.isNone then (if pageGroup p then 0x1002 else 0)
  else if ps.all fun q => q == ps.headD none then 0 else 0x1001

/-- A launch is taken: the loader works on a copy of the unit registers, for the context that UNIT_BIND names at the launch, if any
(R43, R44, R326). -/
def beginLaunch (site p : Nat) (fs : List Nat) (arm : Option Nat) (strict : Bool) (id : Nat) (s : State) : State :=
  let h := if s.rb p 0x054 8 then s.slotHandle (s.rf p 0x054 5 0) else none
  let l : Launch := {
      list := s.rd64 p 0x060, strict := strict, bound := h.isSome, slot := s.rf p 0x054 5 0, arm := arm,
      origin := s.rd64 p 0x070, seed := s.rd64 p 0x080, faces := fs, state := 1, handle := h.getD 0, src := id }
  { s with launches := NMap.put s.launches site l }

/-- A LAUNCH or ARM on a unit page that is enabled (R17, R18, R44, R148). CTRL.QUIESCE is tested first, so that a quiesced group page
that is split records nothing (DESIGN CHOICE, log entry 29). -/
def unitLaunch (id p : Nat) (arm strict : Bool) (s : State) : State :=
  let fs := s.activeFaces p
  let st := (s.unitState p).1
  let g := s.rd64 p 0x068
  if s.rb p 0x008 1 then s
  else if s.groupFault p ≠ 0 then s.faultBy p (s.groupFault p) id
  else if fs == [] || (s.partOf ((unitStopes p).headD 0)).any s.partRetired then s.faultBy p 0x1002 id
  else if (s.groupLaunch p false).isSome then s.tally p 0x08
  else if (st ≠ 0 ∧ st ≠ 4) ∨ s.testing fs then s.faultBy p 0x1003 id
  else if arm && decide (g ≤ s.gcount) then s.faultBy p 0x1004 id
  else beginLaunch p p fs (if arm then some g else none) strict id s

/-- The context that a unit page's UNIT_BIND names, resident or swapped out. -/
def State.boundHandle (s : State) (p : Nat) : Option Nat := if s.rb p 0x054 8 then s.slotCtx (s.rf p 0x054 5 0) else none

/-- The state without a launch. -/
def State.dropLaunch (s : State) (site : Nat) : State := { s with launches := NMap.del s.launches site }

/-- A launch is stopped: one that waits is cancelled, and its context is torn down in any state when a property allows (R43, R330). -/
def stopLaunch (site : Nat) (l : Launch) (ok : Nat → Bool) (s : State) : State :=
  let s1 := if l.waiting then s.dropLaunch site else s
  if (l.bound || !l.waiting) && ok l.handle then teardown l.handle 0 s1 else s1

/-- A STOP at a site whose binding is on a page: a failed load is forgotten; a launch that waits is cancelled with its context; otherwise
the bound context is torn down in any state (R43, R44, R330). -/
def stopAt (site p : Nat) (ok : Nat → Bool) (s : State) : State :=
  let bound := match s.boundHandle p with
    | some h => if ok h then teardown h 0 s else s
    | none => s
  match NMap.find s.launches site with
  | some l => if l.state = 5 then s.dropLaunch site else if l.waiting then stopLaunch site l ok s else bound
  | none => bound

/-- The context that runs on every active face of a unit, whatever launched it. -/
def State.unitRunning (s : State) (p : Nat) : Option Nat :=
  let fs := s.activeFaces p
  match fs.head?.bind s.faceOwner with
  | some h => if (s.ctx h).state == 3 && fs.all fun f => (s.run h).faces.contains f then some h else none
  | none => none

/-- A STOP on a unit page (R43, R44): the group launch over the unit; a load that has failed on the page; its own launch or binding; or the
context that runs on all of it (log entry 26). -/
def unitStop (p : Nat) (s : State) : State :=
  match s.groupLaunch p true with
  | some e => stopLaunch e.1 e.2 (fun _ => true) s
  | none =>
    if (s.failedLoad p).isSome then s.forgetFailed p
    else if (NMap.find s.launches p).isSome || (s.boundHandle p).isSome then stopAt p p (fun _ => true) s
    else match s.unitRunning p with
      | some h => teardown h 0 s
      | none => s

/-- A DISARM at a site cancels an ARM that has not started (R43). -/
def disarmAt (site : Nat) (s : State) : State := match NMap.find s.launches site with
  | some l => if l.waiting && l.arm.isSome then s.dropLaunch site else s
  | none => s

/-- A write of UNIT_CMD (R43, R44): CMD in [3:0], STRICT in [4]. -/
def actUnitCmd (id p v : Nat) (s : State) : State :=
  let cmd := fld v 3 0
  if !pageUnit p || cmd == 0 || decide (4 < cmd) then s
  else if !s.en p then s.faultBy p 0x1002 id
  else if (s.unitFaces p).isEmpty || s.unitRetired p then s.faultBy p 0x1002 id
  else match cmd with
    | 1 => unitLaunch id p false (bit v 4) s
    | 2 => unitLaunch id p true (bit v 4) s
    | 3 => disarmAt p s
    | _ => unitStop p s

/-- UNIT_LAUNCH (R43). -/
def execUnitLaunch (id : Ident) (page : Page) (strict : Bool) (s : State) : Host.Outcome State Fault Refusal :=
  .next (guardW id page 0x058 s (actUnitCmd id page (1 + 16 * b2n strict)))
/-- UNIT_ARM (R43). -/
def execUnitArm (id : Ident) (page : Page) (strict : Bool) (s : State) : Host.Outcome State Fault Refusal :=
  .next (guardW id page 0x058 s (actUnitCmd id page (2 + 16 * b2n strict)))
/-- UNIT_DISARM (R43). -/
def execUnitDisarm (id : Ident) (page : Page) (s : State) : Host.Outcome State Fault Refusal :=
  .next (guardW id page 0x058 s (actUnitCmd id page 3))
/-- UNIT_STOP (R43). -/
def execUnitStop (id : Ident) (page : Page) (s : State) : Host.Outcome State Fault Refusal :=
  .next (guardW id page 0x058 s (actUnitCmd id page 4))

/-- A write of UNIT_BIND: discarded by R45, otherwise it binds and forgets a failed load (R44, R45). -/
def actUnitBind (p v : Nat) (s : State) : State :=
  if !pageUnit p || s.unitLocked p then s
  else
    ((s.wr p 0x054 (v % 64 + 256 * b2n (bit v 8))).dropLaunch p).forgetFailed p

/-- UNIT_BIND_WRITE (R44). -/
def execUnitBindWrite (id : Ident) (page : Page) (value : Word) (s : State) : Host.Outcome State Fault Refusal :=
  .next (guardW id page 0x054 s (actUnitBind page value.toNat))

/-! ### Partition commands (R326) -/

/-- The launch key of a PART_CMD for a partition and a slot. -/
def partSite (q slot : Nat) : Nat := 0x10000 + 64 * q + slot

/-- A LAUNCH or ARM of PART_CMD (R326, R349). -/
def partLaunch (id q : Nat) (arm strict : Bool) (s : State) : State :=
  let p := devPage
  let slot := s.rf p 0x054 5 0
  let fs := (s.partFaces q).filter fun f => s.pageOn (s.facePg f)
  let st := if s.rb p 0x054 8 then s.slotState slot else 0
  let g := s.rd64 p 0x068
  if s.rb p 0x008 1 then s
  else if fs = [] ∨ s.partRetired q then s.faultBy p 0x1002 id
  else if (st ≠ 0 ∧ st ≠ 4) ∨ s.testing fs then s.faultBy p 0x1003 id
  else if arm && decide (g ≤ s.gcount) then s.faultBy p 0x1004 id
  else beginLaunch (partSite q slot) p fs (if arm then some g else none) strict id s

/-- A write of PART_CMD (R326, R348, R349): PART in [5:0], CMD in [11:8], STRICT in [12]. -/
def actPartCmd (id v : Nat) (s : State) : State :=
  let q := fld v 5 0
  let cmd := fld v 11 8
  let site := partSite q (s.rf devPage 0x054 5 0)
  if cmd = 0 ∨ 4 < cmd then s
  else if !s.en devPage || s.partStopes q == [] then s.faultBy devPage 0x1002 id
  else match cmd with
    | 1 => partLaunch id q false (bit v 12) s
    | 2 => partLaunch id q true (bit v 12) s
    | 3 => disarmAt site s
    | _ => stopAt site devPage (fun h => (s.ctx h).part == q) s

/-- PART_LAUNCH (R326). -/
def execPartLaunch (id : Ident) (part : Fin 32) (strict : Bool) (s : State) : Host.Outcome State Fault Refusal :=
  .next (guardW id devPage 0x1A0 s (actPartCmd id (part + 0x100 + 0x1000 * b2n strict)))
/-- PART_ARM (R326). -/
def execPartArm (id : Ident) (part : Fin 32) (strict : Bool) (s : State) : Host.Outcome State Fault Refusal :=
  .next (guardW id devPage 0x1A0 s (actPartCmd id (part + 0x200 + 0x1000 * b2n strict)))
/-- PART_DISARM (R326). -/
def execPartDisarm (id : Ident) (part : Fin 32) (s : State) : Host.Outcome State Fault Refusal :=
  .next (guardW id devPage 0x1A0 s (actPartCmd id (part + 0x300)))
/-- PART_STOP (R326). -/
def execPartStop (id : Ident) (part : Fin 32) (s : State) : Host.Outcome State Fault Refusal :=
  .next (guardW id devPage 0x1A0 s (actPartCmd id (part + 0x400)))

/-! ### Loading and starting -/

/-- The page that records what happens at a launch site. -/
def sitePage (site : Nat) : Nat := if site < 0x10000 then site else if site < 0x20000 then devPage else cagePage

/-- The launch keys of a site. -/
def State.siteKeys (s : State) (x : Site) : List Nat := match x with
  | .page p => [p.val]
  | .part q => (s.launches.map (·.1)).filter fun k => decide (partSite q 0 ≤ k) && decide (k < partSite (q + 1) 0)

/-- The context of a launch starts (R43): its list, seed and step origin are those of the launch. -/
def startLaunch (site h : Nat) (l : Launch) (s : State) : State :=
  let r : Run := { list := l.list, words := headerWords (s.ld l.list 16), strict := l.strict, seed := l.seed, origin := l.origin,
                   faces := l.faces, site := site, step := l.origin % 2 ^ 32 }
  startContext h r { s with launches := NMap.put s.launches site { l with state := 3, handle := h } }

/-- The loader finishes for a launch (R236): FAULTED with LOAD_ERR, ARMED, or started; a context torn down meanwhile takes its launch
with it. -/
def loadDone (site : Nat) (s : State) : State :=
  match NMap.find s.launches site with
  | none => s
  | some l =>
    if l.state ≠ 1 then s
    else if l.bound ∧ (s.ctx l.handle).state ≠ 1 ∧ (s.ctx l.handle).state ≠ 5 then s.dropLaunch site
    else
      let h := if l.bound then some l.handle else none
      match s.loadBad h l.faces l.list with
      | some t => t.dropLaunch site
      | none =>
        let code := s.launchCheck h l.faces l.list l.strict
        if code ≠ 0 then
          let t : State := { s with launches := NMap.put s.launches site { l with state := 5, err := code } }
          t.fault { page := sitePage site, code := 0x5002, source := l.src, handle := h.getD 0x7FF }
        else match l.arm with
          | some _ => { s with launches := NMap.put s.launches site { l with state := 2, handle := h.getD 0 } }
          | none => startLaunch site (h.getD 0) l s

/-- LOAD_COMPLETE (R236). -/
def execLoadComplete (site : Site) (s : State) : Host.Outcome State Fault Refusal :=
  .next (match (s.siteKeys site).find? fun k => (NMap.find s.launches k).any fun l => l.state == 1 with
    | some k => loadDone k s
    | none => s)

/-- An armed launch has reached its GCOUNT. -/
def State.armReached (s : State) (l : Launch) : Bool := l.state == 2 && (match l.arm with
  | some a => l.jumped.isSome || decide (a ≤ s.gcount)
  | none => false)

/-- An armed launch starts; after a jump the timing record says so (R360, R366). -/
def armStart (site : Nat) (l : Launch) (s : State) : State :=
  let s1 := match l.jumped with
    | some g => recTiming 0x44 l.handle (g % 2 ^ 32) [] s
    | none => s
  if (s.ctx l.handle).state = 1 ∨ (s.ctx l.handle).state = 5 then startLaunch site l.handle l s1 else s1.dropLaunch site

/-- ARMED_START (R360). -/
def execArmedStart (site : Site) (s : State) : Host.Outcome State Fault Refusal :=
  .next (match (s.siteKeys site).find? fun k => (NMap.find s.launches k).any s.armReached with
    | some k => match NMap.find s.launches k with
      | some l => armStart k l s
      | none => s
    | none => s)

/-! ### The end of a context's work -/

/-- Unit pages whose UNIT_BIND names a slot. -/
def State.pagesBound (s : State) (slot : Nat) : List Nat :=
  allPages.filter fun p => pageUnit p && s.rb p 0x054 8 && s.rf p 0x054 5 0 == slot

/-- DONE is raised on the launch page and on every unit page whose UNIT_BIND names the context's slot (R35). -/
def raiseDone (h : Nat) (s : State) : State :=
  let site := (s.run h).site
  let ps := ((if site < 0x10000 then [site] else if site < 0x20000 then [devPage] else []) ++ s.pagesBound (s.ctx h).slot).eraseDups
  ps.foldl (fun t p => t.irq p 1) s

/-- Every face of a running context has finished: it is DONE, and its partition goes on (R210, R332). -/
def contextDone (h : Nat) (s : State) : State :=
  leavePart (s.ctx h).part h (raiseDone h (s.modCtx h fun c => { c with state := 5 }))

/-- A face is finished once STOP has issued and all its operations have completed (R210). -/
def finishFace (f : Nat) (s : State) : State :=
  match s.faceCtx f with
  | none => s
  | some h =>
    let x := s.face f
    if !x.stopped || x.issued != [] || x.finished then s
    else
      let s1 := s.setFace f { x with finished := true }
      if (s.run h).faces.all fun g => (s1.face g).finished then contextDone h s1 else s1

/-- FACE_FINISHED (R210). -/
def execFaceFinished (face : Face) (s : State) : Host.Outcome State Fault Refusal := .next (finishFace face s)

end Sys2Proof.Machine
end

