-- ==== Sys2Proof/Machine/BandWork.lean ====
section
/-! DEFINITION. Band work (R73-R89, R370-R372, R461, R573): launches, pose latches, deadlines, fallbacks and records, live and in
replay, and the LAUNCH firings of the schedule (R78). -/
namespace Sys2Proof.Machine

/-! ### Bands -/

/-- First line and lines of band `b` (R70). -/
def State.bandLines (s : State) (g b : Nat) : Nat × Nat := (b * s.hgH g, min ((b + 1) * s.hgH g) (s.hgA g) - b * s.hgH g)

/-- The launch block index of a band (R73). -/
def State.bandIdx (s : State) (g b : Nat) : Nat := b % s.hgK g

/-- First input row and input rows of a band (R75). -/
def State.inRows (s : State) (g F b : Nat) : Int × Nat :=
  let r := s.hgRatio g
  let l := s.bandLines g b
  let halo := leAt (s.desc (s.slotOf g F)) 0x28 1 % 128
  let first := l.1 * r.2.1 / r.1
  ((first : Int) - halo, ceilDiv ((l.1 + l.2) * r.2.1) r.1 - first + 2 * halo)

/-- The first row group of a band's input rows and their count (R75). -/
def State.rowGroups (s : State) (g F b hd : Nat) : Nat × Nat :=
  let r := s.inRows g F b
  let lo := (max r.1 0).toNat
  let hi := (min (r.1 + r.2) (s.hHeight hd : Int)).toNat
  if hi ≤ lo ∨ s.hRowGroup hd = 0 then (lo / max 1 (s.hRowGroup hd), 0)
  else (lo / s.hRowGroup hd, (hi - 1) / s.hRowGroup hd - lo / s.hRowGroup hd + 1)

/-- NEED_N and NEED_S of a band (R75). -/
def State.needStrips (s : State) (g F b hd : Nat) : Bool × Bool :=
  let r := s.inRows g F b
  (decide (r.1 < 0) && s.nbrKind g 2 != 0, decide ((s.hHeight hd : Int) < r.1 + r.2) && s.nbrKind g 3 != 0)

/-- F is the first frame of a new weight set or slot (R75, R89). -/
def State.isSwitched (s : State) (g F : Nat) : Bool := (s.group g).wAt == some F || (s.group g).sAt == some F

/-- Words 0x00 to 0x3F of a band launch block (R75). -/
def State.blockBytes (s : State) (g F b n p hd : Nat) : List Byte :=
  let i := s.bandIdx g b
  let l := s.bandLines g b
  let r := s.inRows g F b
  let rg := s.rowGroups g F b hd
  let need := s.needStrips g F b hd
  let edges := b2n (s.nbrKind g 0 == 0) + 2 * b2n (s.nbrKind g 1 == 0) + 4 * b2n (s.nbrKind g 2 == 0) + 8 * b2n (s.nbrKind g 3 == 0)
  leBytes 4 F ++ leBytes 4 (b + s.hgB g * 2 ^ 8 + l.2 * 2 ^ 16 + p * 2 ^ 24 + s.hgRf g * 2 ^ 28) ++
  leBytes 4 (l.1 + s.hgW g * 2 ^ 16) ++ leBytes 4 n ++ leBytes 8 hd ++
  leBytes 4 (toField 16 r.1 + r.2 * 2 ^ 16) ++ leBytes 4 (edges + rg.2 % 256 * 2 ^ 8 + (s.hFlagBase hd + rg.1) * 2 ^ 16) ++
  leBytes 8 (s.hgBuf g F + 4 * (l.1 * s.hgW g)) ++ leBytes 8 (s.hgBuf g F + 4 * s.hgW g * s.hgA g + 2 * (l.1 * s.hgW g)) ++
  leBytes 8 (s.hgWeights g F) ++
  leBytes 4 (b2n (s.isSwitched g F) + (s.haloBase g + rg.1) * 2 ^ 16 + b2n need.1 * 2 ^ 28 + b2n need.2 * 2 ^ 29) ++
  leBytes 4 (s.hgPose g + i + (s.hgDone g + i) * 2 ^ 16)

/-- A spare face carries a logical face of a partition (R375). -/
def State.spareIn (s : State) (p : Nat) : Bool := (s.partStopes p).any s.spareUsed

/-- The resident BAND context of a head group and band context index (R343). -/
def State.bandCtx (s : State) (g i : Nat) : Option Nat :=
  (s.residents (s.hgPart g)).find? fun h => (s.ctx h).cls == 1 && (s.ctx h).hg == g && (s.ctx h).bidx == i

/-- A band that the cage could not launch as a context carries LIST_FAULT (R342, R343; log entry 30). -/
def bandFault (k code : Nat) (s : State) : State := (s.modBand k fun x => { x with listFault := true }).fault { page := cagePage, code := code }

/-- The launch key of band context `i` of a head group. -/
def bandSite (g i : Nat) : Nat := 0x20000 + 4 * g + i

/-- The band list is launched in its context, with STRICT (R68, R73); the loader checks are not repeated, and a face under self-test
accepts no launch (R148). -/
def launchBand (g F b : Nat) (s : State) : State :=
  let k := bandKey g F b
  let i := s.bandIdx g b
  let q := s.hgPart g
  let d := s.desc (s.slotOf g F)
  let fs := (s.partFaces q).filter fun f => s.pageOn (s.facePg f)
  match s.bandCtx g i with
  | none => bandFault k 0x9001 s
  | some h =>
    if fs = [] ∨ s.partRetired q then bandFault k 0x1002 s
    else if (s.ctx h).active ∨ s.testing fs then bandFault k 0x1003 s
    else
      let o := s.rd64 devPage 0x070
      let r : Run := { list := slotField d 0x30, words := leAt d 0x38 4, strict := true, seed := s.rd64 devPage 0x080, origin := o,
                       faces := fs, site := bandSite g i, step := o % 2 ^ 32, band := some k }
      let l : Launch := { list := r.list, strict := true, bound := true, slot := (s.ctx h).slot, arm := none, origin := o,
                          seed := r.seed, faces := fs, state := 3, handle := h, src := 7 }
      let s1 := s.modBand k fun x => { x with launched := true, handle := h }
      startContext h r { s1 with launches := NMap.put s1.launches (bandSite g i) l }

/-- The bands of a head group's frame are run: the group is enabled, and the frame is neither before its first nor skipped by its display
(R64, R102, R103, R451). -/
def State.bandRuns (s : State) (g F b : Nat) : Bool :=
  s.hgEn g && decide (b < s.hgB g) && (s.frameMap g F).isSome && s.hgStarted g F && !s.frameSkipped g F

/-- The band has come to its launch line before. -/
def State.bandKnown (s : State) (k : Nat) : Bool := (NMap.find s.bands k).isSome

/-- The cage still acts on a band: it has come to its launch line, be the group disabled since (R103), or it is of a frame that the group
runs, launched or not (R80, R461). In replay only what was launched counts. -/
def State.bandLive (s : State) (g F b : Nat) : Bool := s.bandKnown (bandKey g F b) || (!s.replay && s.bandRuns g F b)

/-- The launch of a band is due: it runs, has not come to its launch line before, and the display is in that line (R71, R73). -/
def State.launchDue (s : State) (g F b : Nat) : Bool :=
  !s.replay && s.bandRuns g F b && !s.bandKnown (bandKey g F b) && s.hgAt g (s.launchPos g F b)

/-- The pose latch of a band is due (R71, R80). -/
def State.latchDue (s : State) (g F b : Nat) : Bool :=
  !s.replay && s.bandLive g F b && !(s.band (bandKey g F b)).latched && !(s.band (bandKey g F b)).poseWait && s.hgAt g (s.latchPos g F b)

/-- The deadline of a band is due (R71, R83). -/
def State.deadlineDue (s : State) (g F b : Nat) : Bool :=
  s.bandLive g F b && !(s.band (bandKey g F b)).due && s.hgAt g (s.deadlinePos g F b)

/-- The done flag of a band, as the cage watches it. -/
def State.doneKey (s : State) (g b : Nat) : Nat := s.hgDrift g * 4096 + (s.hgDone g + s.bandIdx g b)

/-- The band was complete when the cage looks: its done flag has been set since its launch (R83). -/
def State.doneAt (s : State) (g b : Nat) : Option Nat := (NMap.find s.doneWatch (s.doneKey g b)).join

/-- HALO_MISSING: a halo flag of the band's input rows, or a strip that it needs, has not come (R89). -/
def State.haloMissing (s : State) (g F b hd : Nat) : Bool :=
  let rg := s.rowGroups g F b hd
  let need := s.needStrips g F b hd
  let flag (i : Nat) : Bool := s.gflag (s.haloDrift g) (s.haloBase g + i)
  ((s.nbrKind g 0 != 0 || s.nbrKind g 1 != 0) && (List.range rg.2).any fun i => !flag (rg.1 + i)) ||
    (need.1 && !flag 256) || (need.2 && !flag 257)

/-- When the done flag of a band was set, if it was before the first cycle of its deadline line (R83). -/
def State.doneBefore (s : State) (g F b : Nat) : Option Nat := match (s.band (bandKey g F b)).edge with
  | some e => e.1
  | none => s.doneAt g b

/-- A band takes its completion from its done flag (R83). -/
def noteDone (g F b : Nat) (s : State) : State :=
  match s.doneBefore g F b with
  | none => s
  | some t =>
    if (s.band (bandKey g F b)).complete then s
    else (s.modBand (bandKey g F b) fun x => { x with complete := x.launched, ready := t }).tally cagePage 0x18

/-- The edge of a line: what the done flags of the bands whose deadline line it is show by then, and the reading of the time unit (R83,
R89). A replay has no deadline (R370). -/
def deadlineEdge (g : Nat) (s : State) : State :=
  if s.replay then s
  else { s with bands := s.bands.map fun e =>
    if e.1 / 2 ^ 40 == g && !e.2.due && s.deadlinePos g (e.1 % 2 ^ 40 / 256) (e.1 % 256) == s.hgPos g then
      (e.1, { e.2 with edge := some (s.doneAt g (e.1 % 256), s.reading) })
    else e }

/-- The deadline of a band (R83, R84, R461): completion, STOP, and the capture of its pose; a replay stops no band (R370). -/
def bandDeadline (g F b : Nat) (s : State) : State :=
  let k := bandKey g F b
  let x := s.band k
  if !s.deadlineDue g F b then s
  else
    let s1 := if x.launched then noteDone g F b s else s
    let y := s1.band k
    let hd := s.slotHdr g false (((s.frameMap g F).map (·.1)).getD 0 % s.inputDepth g)
    let s2 := s1.modBand k fun z => { z with
      due := true, deadline := (z.edge.map (·.2)).getD s.reading, pose := some (s1.ldBytes (s1.hgBlock g (s1.bandIdx g b) + 0x80) 64)
      haloMissing := s1.haloMissing g F b hd, spareActive := z.spareActive || s1.spareIn (s1.hgPart g) }
    if y.launched && !y.complete && !s.replay && (s2.run y.handle).band == some k then teardown y.handle 0 s2 else s2

/-- BAND_DEADLINE (R83). -/
def execBandDeadline (hg : Fin 4) (frame : Word) (band : Nat) (s : State) : Host.Outcome State Fault Refusal :=
  .next (bandDeadline hg frame.toNat band s)

/-- A band at its launch line: its done and pose flags are cleared, and nothing is known of it yet (R249). -/
def bandFresh (g F b : Nat) (s : State) : State :=
  let i := s.bandIdx g b
  let s1 := (s.setG (s.hgDrift g) (s.hgDone g + i) false).setG (s.hgDrift g) (s.hgPose g + i) false
  s1.modBand (bandKey g F b) fun _ => { switched := s.isSwitched g F, spareActive := s.spareIn (s.hgPart g) }

/-- The header of the input slot of frame `F`: that of rendered frame n (R56, R64). -/
def State.bandInput (s : State) (g F : Nat) : Nat := s.slotHdr g false (((s.frameMap g F).getD (0, 0)).1 % s.inputDepth g)

/-- The launch block of a band written, and its done flag watched (R73, R75, R83); what depends on a word in error of the slot header is
not (R264). -/
def bandPrepared (g F b : Nat) (s : State) : State :=
  let m := (s.frameMap g F).getD (0, 0)
  let hd := s.bandInput g F
  let a := s.hgBlock g (s.bandIdx g b)
  let s0 := if (s.ueIn hd 0x60).isSome then s else s.stBytes a (s.blockBytes g F b m.1 m.2 hd)
  let s1 := readStrike [(hd, 0xA0)] (s0.stBytes (a + 0x40) (s.goodBytes (hd + 0x60) (a + 0x40) 64))
  { s1 with doneWatch := NMap.put s1.doneWatch (s1.doneKey g b) none }

/-- The launch of a band from its input check on (R73, R75, R249). -/
def beginBand (g F b : Nat) (s : State) : State :=
  let s1 := bandFresh g F b s
  if s1.hFrame (s1.bandInput g F) ≠ ((s1.frameMap g F).getD (0, 0)).1 then
    (s1.modBand (bandKey g F b) fun x => { x with inputMissing := true }).tally cagePage 0x1B
  else launchBand g F b (bandPrepared g F b s1)

/-- What takes place at the launch line of a band before its own launch: the switches that its frame has reached commit (R97), and what is
kept of frames long scanned out goes. -/
def bandCommits (g F : Nat) (s : State) : State :=
  keepBands g (fun f _ => laterFrame f ((F + 2 ^ 32 - 5) % 2 ^ 32)) (commitSwitches g F s)

/-- The launch line of band 0 of a frame that launches no band: its commits alone (R64, R97). -/
def emptyLaunch (g F b : Nat) (s : State) : State :=
  if b = 0 && !s.replay && s.hgEn g && !s.bandRuns g F 0 && !s.frameSkipped g F && s.hgAt g (s.launchPos g F 0) then commitSwitches g F s
  else s

/-- The launch line of a band (R73, R74): the deadline of band b - K first, the commits, then the launch. -/
def bandLaunch (g F b : Nat) (s : State) : State :=
  if !s.launchDue g F b then emptyLaunch g F b s
  else beginBand g F b (bandCommits g F (if s.hgK g ≤ b then bandDeadline g F (b - s.hgK g) s else s))

/-- BAND_LAUNCH (R73). -/
def execBandLaunch (hg : Fin 4) (frame : Word) (band : Nat) (s : State) : Host.Outcome State Fault Refusal :=
  .next (bandLaunch hg frame.toNat band s)

/-! ### Poses (R79, R80, R573) -/

/-- The preference among poses of one stamp: TRACK, MOTION, HOST (R80). -/
def poseRank (src : Nat) : Nat := match src with
  | 1 => 3
  | 2 => 2
  | 3 => 1
  | _ => 0

/-- The entry of the pose ring that a latch takes (R80). Of entries with equal STAMP and SOURCE the one of the lowest place is taken, and
a SOURCE that R80 does not rank comes last (DESIGN CHOICE, log entry 30); an entry with a word in error is not taken (R264). -/
def State.bestPose (s : State) (g : Nat) : Option (List Byte) :=
  let a := galBase + s.rd cagePage (hgOff g + 0x58)
  ((List.range 16).map fun k => (s.ueIn (a + 64 * k) 64, s.ldBytes (a + 64 * k) 64)).foldl (fun b e =>
    let p := e.2
    if e.1.isSome || !bit (leAt p 4 4) 8 then b
    else match b with
      | none => some p
      | some q =>
        let t := leAt p 8 8
        let u := leAt q 8 8
        if u < t ∨ (u = t ∧ poseRank (leAt q 4 1 % 16) < poseRank (leAt p 4 1 % 16)) then some p else b) none

/-- The payload of a POSE flit: head group, band, two zero bytes, F, the pose (R572, log entry 31). -/
def posePayload (g F b : Nat) (pose : List Byte) : List Byte := leBytes 1 g ++ leBytes 1 b ++ leBytes 2 0 ++ leBytes 4 F ++ pose

/-- A pose goes into LATCHED_POSE of a band's launch block, its flag is set, and the input record enters it (R80, R82); the ACTIVE
device of a pair forwards it (R572). -/
def latchPose (g F b : Nat) (pose : List Byte) (s : State) : State :=
  let i := s.bandIdx g b
  let s1 := (s.stBytes (s.hgBlock g i + 0x80) pose).setG (s.hgDrift g) (s.hgPose g + i) true
  let s2 := s1.modBand (bandKey g F b) fun x => { x with latched := true, poseWait := false, poseSeq := leAt pose 0 2 }
  let s3 := recInput 0x05 (g + b * 256 + leAt pose 4 1 % 16 * 65536) F pose s2
  if s.standby then s3 else (s3.upPorts 2).foldl (fun t p => xcPush p 0x8 true 0 0 (posePayload g F b pose) t) s3

/-- The pose latch of a band (R80): the ring's pose, or RENDER_POSE; the STANDBY device takes the forwarded one (R573). -/
def poseLatch (g F b : Nat) (s : State) : State :=
  let k := bandKey g F b
  if !s.latchDue g F b then s
  else if s.standby then
    match NMap.find s.fwdPoses k with
    | some p => latchPose g F b p { s with fwdPoses := NMap.del s.fwdPoses k }
    | none => s.modBand k fun x => { x with poseWait := true }
  else
    let t := readStrike [(galBase + s.rd cagePage (hgOff g + 0x58), 1024)] s
    match s.bestPose g with
    | some p => latchPose g F b p t
    | none =>
      let s1 := (t.modBand k fun x => { x with poseNone := true }).tally cagePage 0x1C
      let a := s1.hgBlock g (s1.bandIdx g b)
      readStrike [(a + 0x40, 64)] (latchPose g F b (s1.goodBytes (a + 0x40) (a + 0x80) 64) s1)

/-- POSE_LATCH (R80). -/
def execPoseLatch (hg : Fin 4) (frame : Word) (band : Nat) (s : State) : Host.Outcome State Fault Refusal :=
  .next (poseLatch hg frame.toNat band s)

/-! ### Fallback and records (R85-R89) -/

/-- Band `b` of frame `f` can serve as a source: it is complete, nothing has been launched over it, and its pose is stored (R85,
R86, R463). -/
def State.sourceOk (s : State) (g f b : Nat) : Bool :=
  let x := s.band (bandKey g f b)
  x.complete && !(s.band (bandKey g ((f + s.hgDepth g) % 2 ^ 32) b)).launched

/-- The source frame of a substitution: the newest of F - 1 down to F - (depth - 1) that is complete there (R85). -/
def State.sourceFrame (s : State) (g F b : Nat) : Option Nat :=
  ((List.range (s.hgDepth g - 1)).map fun j => (F + 2 ^ 32 - 1 - j) % 2 ^ 32).find? fun f => s.sourceOk g f b

/-- The headframe begins to fetch a band, one line before its first (R71, R85). -/
def State.fetchDue (s : State) (g F b : Nat) : Bool := s.bandLive g F b && s.hgAt g (s.fetchPos g F b)

/-- The headframe begins to fetch a band: an incomplete one falls back, or is transparent (R85, R86). -/
def bandFetch (g F b : Nat) (s0 : State) : State :=
  let k := bandKey g F b
  let s := if s0.replay && (s0.band k).launched then noteDone g F b s0 else s0
  let x := s.band k
  if !s0.fetchDue g F b || x.complete || x.fallback || x.fbNone then (if s0.fetchDue g F b then s else s0)
  else match (s.sourceFrame g F b).filter fun f => x.pose.isSome && (s.band (bandKey g f b)).pose.isSome with
    | some f =>
      let s1 := ((s.modBand k fun y => { y with fallback := true, src := f }).tally cagePage 0x19).irq cagePage 8
      (s1.hgHeads g).foldl (fun t h => t.tally (headPage h) 0x51) s1
    | none => ((s.modBand k fun y => { y with fbNone := true }).tally cagePage 0x1A).irq cagePage 9

/-- The band record of a head (R89). -/
def State.bandRecord (s : State) (g F b h : Nat) : List Byte :=
  let x := s.band (bandKey g F b)
  leBytes 4 F ++
  leBytes 4 (b + h * 2 ^ 8 + g * 2 ^ 10 + b2n x.complete * 2 ^ 16 + b2n x.fallback * 2 ^ 17 + b2n x.fbNone * 2 ^ 18 +
    b2n x.inputMissing * 2 ^ 19 + b2n x.haloMissing * 2 ^ 20 + b2n x.listFault * 2 ^ 21 + b2n x.poseNone * 2 ^ 22 +
    b2n x.spareActive * 2 ^ 23 + b2n x.switched * 2 ^ 24) ++
  leBytes 8 (if x.complete then x.ready else 0) ++ leBytes 8 x.deadline ++
  leBytes 4 (if x.complete then F else if x.fallback then x.src else 0xFFFFFFFF) ++
  leBytes 4 (x.poseSeq + NMap.get 0 (s.head h).bandUnder b * 2 ^ 16)

/-- The record of a band on a head is due: the scan of its last line has ended there, and the heads of the group below it that scan have
theirs (R88). -/
def State.recordDue (s : State) (g F b h : Nat) : Bool :=
  let x := s.band (bandKey g F b)
  let l := s.bandLines g b
  s.bandLive g F b && (s.hgHeads g).contains h && !bit x.recorded h && decide (2 ≤ (s.head h).timing) && (s.head h).frame == F &&
    (s.head h).line == l.1 + l.2 &&
    (s.hgHeads g).all fun j => decide (h ≤ j) || bit x.recorded j || decide ((s.head j).timing < 2)

/-- The scan of a band's last line on a head ends: its record is written (R88). -/
def bandRecordWrite (g F b h : Nat) (s : State) : State :=
  let k := bandKey g F b
  if !s.recordDue g F b h then s
  else
    let s0 := s.modBand k fun x => { x with recorded := setBit x.recorded h true, spareActive := x.spareActive || s.spareIn (s.hgPart g) }
    let r := s0.rd64 cagePage (hgOff g + 0x28)
    let n := s0.rd cagePage (hgOff g + 0x68)
    let s1 := s0.stBytes (r / 64 * 64 + n % (256 * 2 ^ (r % 16)) * 32) (s0.bandRecord g F b h)
    (s1.wr cagePage (hgOff g + 0x68) ((n + 1) % 2 ^ 32)).modHead h fun x => { x with bandUnder := NMap.del x.bandUnder b }

/-- BAND_RECORD_WRITE (R88). -/
def execBandRecordWrite (hg : Fin 4) (frame : Word) (band : Nat) (head : Fin 4) (s : State) : Host.Outcome State Fault Refusal :=
  .next (bandRecordWrite hg frame.toNat band head s)

/-! ### The schedule (R77, R78) -/

/-- A band action of the line in progress is still to take place (R78). -/
def State.bandsOwed (s : State) (g : Nat) : Bool :=
  let f := (s.hgPos g).1
  [f, (f + 1) % 2 ^ 32].any fun F => (List.range (s.hgB g)).any fun b => s.launchDue g F b || s.latchDue g F b || s.deadlineDue g F b

/-- The head group that keys a schedule entry. -/
def State.schedHg (s : State) (k : Nat) : Nat := fld (nth 0 (NMap.get [] s.sched k) 0) 5 4

/-- Firings of a LAUNCH or SIGNAL entry in the line in progress: those j below COUNT with LINE + j × STRIDE that line (R77, R78). -/
def State.firings (s : State) (k : Nat) : Nat :=
  let e := NMap.get [] s.sched k
  let w0 := nth 0 e 0
  let p := s.hgPos (s.schedHg k)
  let line := fld (nth 0 e 1) 12 0
  let count := max 1 (fld (nth 0 e 1) 28 16)
  let stride := fld (nth 0 e 2) 12 0
  if (s.leadHead (s.schedHg k)).isNone || !(w0 % 16 == 2 || w0 % 16 == 3) || (p.1 &&& fld w0 15 8) != fld w0 23 16 || decide (p.2 < line)
  then 0
  else if stride = 0 then (if p.2 = line then count else 0)
  else if (p.2 - line) % stride = 0 ∧ (p.2 - line) / stride < count then 1
  else 0

/-- Firings of an entry that have taken place in the line in progress. -/
def State.firedCount (s : State) (k : Nat) : Nat := match (s.group (s.schedHg k)).fired with
  | some x => if (x.1, x.2.1) = s.hgPos (s.schedHg k) then (x.2.2.filter (· == k)).length else 0
  | none => 0

/-- Entry `k` is of a type and fires now, in frame `F`: a firing of the line is left, the band actions of the line and the firings of lower
entries have taken place (R77, R78). -/
def State.schedFires (s : State) (k type F : Nat) : Bool :=
  let g := s.schedHg k
  decide (nth 0 (NMap.get [] s.sched k) 0 % 16 = type) && (s.hgPos g).1 == F && decide (s.firedCount k < s.firings k) && !s.bandsOwed g &&
    s.sched.all fun e => decide (k ≤ e.1) || s.schedHg e.1 != g || decide (s.firings e.1 ≤ s.firedCount e.1)

/-- A firing of an entry is noted. -/
def noteFired (k : Nat) (s : State) : State :=
  let g := s.schedHg k
  let p := s.hgPos g
  s.modGroup g fun x => { x with fired := match x.fired with
    | some y => if (y.1, y.2.1) = p then some (p.1, p.2, y.2.2 ++ [k]) else some (p.1, p.2, [k])
    | none => some (p.1, p.2, [k]) }

/-- A SIGNAL firing sets its gallery flag (R78). -/
def schedSignal (k F : Nat) (s : State) : State :=
  let w2 := nth 0 (NMap.get [] s.sched k) 2
  if s.schedFires k 3 F then (noteFired k s).setG (fld w2 30 28) (fld w2 27 16) true else s

/-- SCHED_SIGNAL (R78). -/
def execSchedSignal (entry : Fin 256) (frame : Word) (s : State) : Host.Outcome State Fault Refusal := .next (schedSignal entry frame.toNat s)

/-- The two register writes of a LAUNCH firing, when its target is a unit page that is on (R45, R78). -/
def schedWrites (e : List Nat) (s : State) : State :=
  let p := fld (nth 0 e 2) 31 16
  if !pageAssigned p || !pageUnit p || !s.pageOn p then s
  else actUnitCmd 7 p (1 + 16 * b2n (bit (nth 0 e 0) 24)) (if s.unitLocked p then s else s.wr64 p 0x060 (nth 0 e 3 * 256))

/-- A LAUNCH firing writes UNIT_LIST and then UNIT_CMD LAUNCH to its target (R78). -/
def schedLaunch (k F : Nat) (s : State) : State :=
  if s.schedFires k 2 F then schedWrites (NMap.get [] s.sched k) (noteFired k s) else s

/-- SCHED_LAUNCH (R78). -/
def execSchedLaunch (entry : Fin 256) (frame : Word) (s : State) : Host.Outcome State Fault Refusal := .next (schedLaunch entry frame.toNat s)

/-! ### Replay (R370-R372) -/

/-- The hold of R371 keeps a band from being launched. -/
def State.replayHolds (s : State) (g F b : Nat) : Bool :=
  let p := s.launchPos g F b
  let f := s.rd cagePage 0x64C
  f == 0xFFFFFFFF || laterFrame p.1 f || (p.1 == f && decide (s.rd cagePage 0x650 < p.2))

/-- A commit that falls at a frame is still owed to its band 0 (R371). -/
def State.commitOwed (s : State) (g F : Nat) : Bool := s.adEn g && (s.ad g).phase != 2 && s.adSwitch g (s.ad g).step == F

/-- A band launches in replay: the band before it in its context is complete, its input is there, no hold applies (R370, R371). -/
def replayBandLaunch (g F b : Nat) (s0 : State) : State :=
  let s := if s0.hgK g ≤ b ∧ (s0.band (bandKey g F (b - s0.hgK g))).launched then noteDone g F (b - s0.hgK g) s0 else s0
  let before := decide (b < s.hgK g) || (s.band (bandKey g F (b - s.hgK g))).complete
  let free := match s.bandCtx g (s.bandIdx g b) with
    | some h => !(s.ctx h).active
    | none => true
  let n := ((s.frameMap g F).map (·.1)).getD 0
  if !s.replay || s.replayStop || !s.bandRuns g F b || s.bandKnown (bandKey g F b) || !before || !free || s.replayHolds g F b ||
      (b == 0 && s.commitOwed g F) || s.hFrame (s.slotHdr g false (n % s.inputDepth g)) != n then s
  else beginBand g F b (bandCommits g F s)

/-- REPLAY_BAND_LAUNCH (R370). -/
def execReplayBandLaunch (hg : Fin 4) (frame : Word) (band : Nat) (s : State) : Host.Outcome State Fault Refusal :=
  .next (replayBandLaunch hg frame.toNat band s)

/-- A face of the band's context holds on the band's pose flag. -/
def State.waitsPose (s : State) (g F b : Nat) : Bool :=
  let h := (s.band (bandKey g F b)).handle
  (s.run h).band == some (bandKey g F b) && (s.run h).faces.any fun f =>
    s.faceCtx f == some h && s.holdsOn h f == some (some (2, s.hgPose g + s.bandIdx g b, s.hgDrift g, true))

/-- The pose of a band comes from the replay ring when its list first waits on the pose flag (R370, R372). -/
def replayPoseLatch (g F b : Nat) (s : State) : State :=
  if !s.replay || s.replayStop || (s.band (bandKey g F b)).latched || !s.waitsPose g F b then s
  else match s.replayPeek with
    | none => replayWait s
    | some e =>
      if e.type = 5 ∧ e.a1 = F ∧ fld e.a0 1 0 = g ∧ fld e.a0 15 8 = b then latchPose g F b (s.replayBody e 64) (replayPop e s)
      else replayDiverge s

/-- REPLAY_POSE_LATCH (R370). -/
def execReplayPoseLatch (hg : Fin 4) (frame : Word) (band : Nat) (s : State) : Host.Outcome State Fault Refusal :=
  .next (replayPoseLatch hg frame.toNat band s)

/-- A band that a teardown interrupted before its deadline is launched again in its context (R641). -/
def relaunchBand (k : Nat) (s : State) : State :=
  let x := s.band k
  if x.launched && !x.due && !x.complete then launchBand (k / 2 ^ 40) (k % 2 ^ 40 / 256) (k % 256) s else s

end Sys2Proof.Machine
end

