-- ==== Sys2Proof/Machine/AdaptSteps.lean ====
section
/-! DEFINITION. Steps of on-device adaptation as commands (R298-R320): enabling, launching, decisions, late notices, and the
reducer (R302-R308, R566). -/
namespace Sys2Proof.Machine

/-! ### Enabling (R316, R319, R320) -/

/-- A state set descriptor has its MAGIC and VERSION (R295). -/
def State.setOk (s : State) (a : Nat) : Bool := s.ld a 2 == 0x4144 && s.ld (a + 2) 1 == 1

/-- The enable of adaptation passes R320. -/
def State.adOk (s : State) (g : Nat) : Bool :=
  let w := s.rd cagePage 0x500
  s.hgEn g && leAt (s.desc (s.hgSlot g)) 0x50 8 != 0 && s.setOk (s.adSet g 0) && s.setOk (s.adSet g 1) &&
    s.setWeights (s.adSet g (s.adCur g)) == (s.group g).weights && !s.rb cagePage (hgOff g + 0x4C) 8 && !s.rb cagePage (hgOff g + 0x5C) 9 &&
    decide (fld w 2 0 ≤ fld w 8 6) && decide (fld w 5 3 ≤ fld w 11 9)

/-- Adaptation starts with reference 0; with no other group adapting, no notice is outstanding (R292, R293). -/
def adStart (g : Nat) (s : State) : State :=
  let s1 := if s.adGroups = [] then { s with lateSeen := [], redWait := [] } else s
  (s1.modAd g fun _ => {}).wb cagePage (adOff g) 0 true

/-- A write of AD_CFG (R319, R320): while EN is 1, only HOLD and a write that clears EN take effect. -/
def actAdCfg (id g v : Nat) (s : State) : State :=
  match regAt cagePage (adOff g) with
  | none => s
  | some r =>
    let n := mergeWrite r.row (s.rd cagePage (adOff g)) v
    if s.adEn g then
      if bit n 0 then s.wb cagePage (adOff g) 1 (bit v 1) else freeHeld g ((adDisabled g s).wr cagePage (adOff g) n)
    else
      let t := s.wr cagePage (adOff g) (setBit n 0 false)
      if !bit n 0 then t else if t.adOk g then adStart g t else t.faultBy cagePage 0x8001 id

/-- AD_ENABLE (R320). -/
def execAdEnable (id : Ident) (hg : Fin 4) (value : Word) (s : State) : Host.Outcome State Fault Refusal :=
  .next (guardW id cagePage (adOff hg) s (actAdCfg id hg (setBit value.toNat 0 true)))
/-- AD_DISABLE (R320). -/
def execAdDisable (id : Ident) (hg : Fin 4) (value : Word) (s : State) : Host.Outcome State Fault Refusal :=
  .next (guardW id cagePage (adOff hg) s (actAdCfg id hg (setBit value.toNat 0 false)))

/-- A write of AD_CMD selects a state set, with adaptation off and no switch pending (R316, R319). -/
def actAdCmd (g v : Nat) (s : State) : State :=
  if s.adEn g || s.rb cagePage (hgOff g + 0x4C) 8 || bit v 0 == bit v 1 then s
  else s.wf cagePage (adOff g + 0x28) 0 0 (b2n (bit v 1))

/-- USE_SET0 (R319). -/
def execUseSet0 (id : Ident) (hg : Fin 4) (s : State) : Host.Outcome State Fault Refusal :=
  .next (guardW id cagePage (adOff hg + 0x38) s (actAdCmd hg 1))
/-- USE_SET1 (R319). -/
def execUseSet1 (id : Ident) (hg : Fin 4) (s : State) : Host.Outcome State Fault Refusal :=
  .next (guardW id cagePage (adOff hg + 0x38) s (actAdCmd hg 2))

/-! ### Launching (R298, R299) -/

/-- Address of the adaptation launch block. -/
def State.adBlock (s : State) (g : Nat) : Nat := galBase + s.rd cagePage (adOff g + 8)

/-- The adaptation launch block of a step (R299). -/
def State.adBlockBytes (s : State) (g j hd : Nat) : List Byte :=
  let cur := s.adCur g
  leBytes 4 j ++ leBytes 4 (s.adRef g j) ++ leBytes 4 (s.adFrame g j) ++ leBytes 4 (s.adSwitch g j) ++ leBytes 8 hd ++
  leBytes 8 (s.adSet g cur) ++ leBytes 8 (s.adSet g (1 - cur)) ++ leBytes 4 (s.rd cagePage 0x500) ++ leBytes 212 0

/-- UNIT_STEP_ORIGIN and UNIT_SEED of the launch are written on the stope pages of the group's partition, whose faces it starts (R298; the
pages are log entry 32). -/
def stepUnits (g origin seed : Nat) (s : State) : State :=
  (s.partStopes (s.hgPart g)).foldl (fun t st => (t.wr64 (stopePage st) 0x070 origin).wr64 (stopePage st) 0x080 seed) s

/-- The step's list is launched in its context; a list that does not load makes the step fail (R298, R310). -/
def launchStep (g j : Nat) (s : State) : State :=
  let list := slotField (s.desc (s.hgSlot g)) 0x50
  let fs := (s.partFaces (s.hgPart g)).filter fun f => s.pageOn (s.facePg f)
  let fail (t : State) : State := t.modAd g fun x => { x with phase := 1, failed := true }
  match (s.slotHandle (s.rf cagePage (adOff g) 29 24)).filter fun h => !(s.ctx h).active with
  | none => fail (s.fault { page := cagePage, code := 0x5002 })
  | some h =>
    match s.loadBad (some h) fs list with
    | some t => fail t
    | none =>
      if s.testing fs then fail (s.fault { page := cagePage, code := 0x1003, handle := h })
      else if s.launchCheck (some h) fs list true ≠ 0 || s.partRetired (s.hgPart g) then
        fail (s.fault { page := cagePage, code := 0x5002, handle := h })
      else
        let o := j * 2 ^ 20
        let seed := s.rd64 cagePage (adOff g + 0x20)
        let r : Run := { list := list, words := headerWords (s.ld list 16), strict := true, seed := seed, origin := o, faces := fs,
                         site := 0x20010 + g, step := o % 2 ^ 32 }
        let l : Launch := { list := list, strict := true, bound := true, slot := (s.ctx h).slot, arm := none, origin := o, seed := seed,
                            faces := fs, state := 3, handle := h, src := 7 }
        let s1 := s.modAd g fun x => { x with phase := 1, handle := h }
        startContext h r { stepUnits g o seed s1 with launches := NMap.put s1.launches (0x20010 + g) l }

/-- The cage launches the current step once its reference is there (R298). -/
def adaptStepLaunch (g : Nat) (s : State) : State :=
  let j := (s.ad g).step
  match s.refSlot g with
  | none => s
  | some i =>
    let hd := s.slotHdr g true i
    if !s.adEn g || !s.hgEn g || s.replayStop || (s.ad g).phase != 0 || (s.ad g).edge.isSome || s.hBit hd 2 || s.oldBusy g || s.rb cagePage (adOff g) 1 then s
    else
      let s1 := ((s.setAdFlag g 0 false).setAdFlag g 1 false).setAdFlag g 2 false
      launchStep g j (s1.stBytes (s1.adBlock g) (s1.adBlockBytes g j hd))

/-- ADAPT_STEP_LAUNCH (R298). -/
def execAdaptStepLaunch (hg : Fin 4) (s : State) : Host.Outcome State Fault Refusal := .next (adaptStepLaunch hg s)

/-! ### Decisions (R309, R310, R370) -/

/-- A step is ready on the device: every adapting group has launched it and set its STEP_DONE (R309). -/
def State.stepReady (s : State) (g : Nat) : Bool :=
  s.adGroups.all fun e => (s.ad e).step == (s.ad g).step && (s.ad e).phase != 0 && s.adFlag e 0

/-- The first cycle of a line of a head group's display: from the decision line of the current step on, what the device had ready there is
kept (R309). -/
def decisionEdge (g : Nat) (s : State) : State :=
  if !s.adEn g || (s.ad g).edge.isSome || (s.ad g).phase == 2 || posAfter (s.decisionPos g) (s.hgPos g) then s
  else s.modAd g fun x => { x with edge := some (s.stepReady g) }

/-- The device holds a late notice of another device for the current step of a group (R309). -/
def State.remoteLate (s : State) (g : Nat) : Bool := NMap.find s.lateSeen (s.ad g).step == some true

/-- The cause with which a step that is not ready is late (R310). -/
def State.lateCause (s : State) (g : Nat) : Nat := if s.remoteLate g then 6 else (s.ownCause g).getD 4

/-- The cage arms the switch of a ready step (R96, R309). In replay a refused ARM does not match the recorded outcome (R372). -/
def armStep (g : Nat) (s : State) : State :=
  let s1 := s.wr64 cagePage (hgOff g + 0x40) (s.setWeights (s.adSet g (1 - s.adCur g)))
  let s2 := armWeights g (s1.wr cagePage (hgOff g + 0x48) (s.adSwitch g (s.ad g).step))
  if s2.rb cagePage (hgOff g + 0x4C) 8 then s2.modAd g fun x => { x with phase := 2 }
  else if s2.replay then replayDiverge s2 else stepLate g 4 s2

/-- The skips that the replay ring supplies next, at most `n` (R370). -/
def replaySkips (g : Nat) : Nat → State → State
  | 0, s => s
  | n + 1, s => match s.replayPeek with
    | some e =>
      if e.type = 7 ∧ fld e.a0 1 0 = g ∧ fld e.a0 5 4 = 2 ∧ e.a1 % s.adPeriod g ≠ 0 then
        replaySkips g n (recAdapt g 2 0 e.a1 ((replayPop e s).tally cagePage 0x21))
      else s
    | none => s

/-- The decision in replay: the next ADAPT entry, for this group and step, decides (R370, R372). -/
def replayDecision (g : Nat) (s0 : State) : State :=
  let s := replaySkips g (s0.adPeriod g) s0
  match s.replayPeek with
  | none => replayWait s
  | some e =>
    if e.type ≠ 7 ∨ fld e.a0 1 0 ≠ g ∨ e.a1 ≠ (s.ad g).step then replayDiverge s
    else match fld e.a0 5 4 with
      | 0 => if s.stepReady g then armStep g (replayPop e s) else s
      | 1 => stepDrop g (fld e.a0 11 8) (replayPop e s)
      | _ => replayDiverge s

/-- The decision line of a head group's current step (R309): what was ready in the cycle before its first decides. A late notice of another
device drops the step without one of this device (R311). -/
def adaptDecision (g : Nat) (s : State) : State :=
  if !s.adEn g || (s.ad g).phase == 2 then s
  else if s.replay then (if s.replayStop then s else replayDecision g s)
  else match (s.ad g).edge with
    | none => s
    | some ready =>
      if s.remoteLate g then stepDrop g 6 s
      else if ready && !(s.ad g).mismatch && (NMap.find s.lateSeen (s.ad g).step).isNone then armStep g s
      else stepLate g (s.lateCause g) s

/-- ADAPT_DECISION (R309). -/
def execAdaptDecision (hg : Fin 4) (s : State) : Host.Outcome State Fault Refusal := .next (adaptDecision hg s)

/-- A late notice for a step arrives (R311, R313): an undecided or armed step is dropped; a device that has committed it records ADAPT_SPLIT
and counts the CANCEL that it discards (R97). A second notice is discarded, and a replay takes none (R370). -/
def lateNotice (p : Nat) (payload : List Byte) (s : State) : State :=
  let j := leAt payload 2 4
  if s.replay || (NMap.find s.lateSeen j).isSome then s
  else
    let s1 : State := { s with lateSeen := NMap.put s.lateSeen j true }
    let s2 := if s.mirror then s1 else bcastSend (some p) payload s1
    let s3 := s2.adGroups.foldl (fun t g => if (t.ad g).step = j then stepDrop g 6 t else t) s2
    if (List.range 4).any fun g => (s3.ad g).commits.contains j then adaptSplit (switchRefused s3) else s3

/-- BCAST_LATE (R311). -/
def execBcastLate (port : Fin 4) (flit : List Byte) (s : State) : Host.Outcome State Fault Refusal :=
  .next (if leAt (flitPayload flit) 0 1 = 2 then xcReceive port 0x7 flit (lateNotice port (flitPayload flit)) s else s)

/-! ### The reducer (R302-R308, R566) -/

/-- One element of a sum of the reducer: ADD_I16 saturating at ±32,767, or MAX_U32 (R303, R304). -/
def redElem (op a b : Nat) : Nat :=
  if op = 0 then toField 16 (clampI (-32767) 32767 (sext 16 a + sext 16 b)) else max a b

/-- Bytes of an element. -/
def redWidth (op : Nat) : Nat := if op = 0 then 2 else 4

/-- Two runs of elements combined, and how many saturated (R304). -/
def redCombine (op : Nat) (a b : List Byte) : List Byte × Nat :=
  let w := redWidth op
  let n := a.length / w
  let sat (k : Nat) : Bool := op == 0 && decide (32767 < (sext 16 (leAt a (2 * k) 2) + sext 16 (leAt b (2 * k) 2)).natAbs)
  ((List.range n).flatMap fun k => leBytes w (redElem op (leAt a (w * k) w) (leAt b (w * k) w)), ((List.range n).filter sat).length)

/-- Two runs combined on the device, saturating elements counted. -/
def redAdd (op : Nat) (a b : List Byte) (s : State) : List Byte × State :=
  let r := redCombine op a b
  (r.1, s.tallyN cagePage 0x22 r.2)

/-- The request record of a head group: j, SEQ, OP, ELEMS and the address of BUF (R303). -/
def State.redReq (s : State) (g : Nat) : Nat × Nat × Nat × Nat × Nat :=
  let a := s.adBlock g + 0x40
  let b := s.ld (a + 8) 4
  (s.ld (s.adBlock g) 4, s.ld (a + 1) 1, s.ld a 1 % 4, s.ld (a + 4) 4 % 2 ^ 23, galAddr (fld b 26 24) (fld b 23 0))

/-- The request is abandoned: REDUCE_MISMATCH, and every group's step will be late (R306). -/
def redAbandon (s : State) : State :=
  let s1 := s.adGroups.foldl (fun t g => t.modAd g fun x => { x with mismatch := true }) s
  { s1 with red := none, redWait := [] }.fault { page := cagePage, code := 0x8003 }

/-- Chunk size in bytes (R317). -/
def State.redChunk (s : State) : Nat := 1024 * 2 ^ s.rf cagePage 0x504 1 0

/-- The runs of bytes that flits carry of a request: offset of the chunk, offset in it, bytes, last of the chunk (R566). -/
def redPieces (chunk total : Nat) : List (Nat × Nat × Nat × Bool) :=
  (List.range (ceilDiv total chunk)).flatMap fun c =>
    let n := min chunk (total - c * chunk)
    (List.range (ceilDiv n 220)).map fun i => (c * chunk, 220 * i, min 220 (n - 220 * i), decide (n ≤ 220 * i + 220))

/-- Bytes of the request. -/
def RedJob.bytes (j : RedJob) : Nat := j.elems * redWidth j.op

/-- The sixteen key bytes of a REDUCE flit (R566, log entry 31): j, SEQ, OP, two zero bytes, ELEMS, the chunk's byte offset. -/
def RedJob.key (j : RedJob) (chunk : Nat) : List Byte :=
  leBytes 4 j.step ++ leBytes 1 j.seq ++ leBytes 1 j.op ++ leBytes 2 0 ++ leBytes 4 j.elems ++ leBytes 4 chunk

/-- A run of a request leaves on a port. -/
def redSend (j : RedJob) (p off : Nat) (bytes : List Byte) (s : State) : State :=
  match (redPieces s.redChunk j.bytes).find? fun e => e.1 + e.2.1 == off with
  | some e => xcPush p 0x6 e.2.2.2 0 0 (j.key e.1 ++ bytes) s
  | none => s

/-- The total of a run is known: it is kept, and travels on: north and west from the last row's corner, west along a row
(R305); the partner of a pair gets it (R308). -/
def redTotal (off : Nat) (bytes : List Byte) (north : Bool) (s : State) : State :=
  match s.red with
  | none => s
  | some j =>
    let w := s.rd cagePage 0x500
    let s1 : State := { s with red := some { j with total := NMap.put j.total off bytes } }
    if s.mirror then s1
    else
      let s2 := if north ∧ fld w 5 3 ≠ 0 then redSend j 0 off bytes s1 else s1
      let s3 := if fld w 2 0 ≠ 0 then redSend j 3 off bytes s2 else s2
      (s3.upPorts 2).foldl (fun t p => redSend j p off bytes t) s3

/-- A run of a request goes on as far as what has arrived allows: along its row, down the last column, and back (R305). -/
def redStep (off n : Nat) (s : State) : State :=
  match s.red with
  | none => s
  | some j =>
    let w := s.rd cagePage 0x500
    let c := fld w 2 0
    let r := fld w 5 3
    let own := sliceL j.localSum off n
    match if c = 0 then some (own, s) else (NMap.find j.fromW off).map fun a => redAdd j.op a own s with
    | none => s
    | some (row, s1) =>
      if c < fld w 8 6 then redSend j 1 off row s1
      else match if r = 0 then some (row, s1) else (NMap.find j.fromN off).map fun a => redAdd j.op a row s1 with
        | none => s
        | some (col, s2) => if r < fld w 11 9 then redSend j 2 off col s2 else redTotal off col true s2

/-- A REDUCE payload that has arrived acts on the request in progress: partial sums from W and N, totals from E, S and the pair
port (R305, R308); one whose key differs abandons the request (R306). -/
def redArrive (p : Nat) (payload : List Byte) (last : Bool) (s : State) : State :=
  match s.red with
  | none => s
  | some j =>
    let chunk := leAt payload 12 4
    if payload.take 16 ≠ j.key chunk then redAbandon s
    else
      let bytes := payload.drop 16
      let off := chunk + NMap.get 0 j.pos p
      let s1 : State := { s with red := some { j with
        pos := NMap.put j.pos p (if last then 0 else NMap.get 0 j.pos p + bytes.length)
        fromW := if p = 3 then NMap.put j.fromW off bytes else j.fromW
        fromN := if p = 0 then NMap.put j.fromN off bytes else j.fromN } }
      if s.xcRole p = 2 then redTotal off bytes false s1
      else if p = 3 ∨ p = 0 then redStep off bytes.length s1
      else redTotal off bytes (p = 2) s1

/-- A REDUCE payload waits for the local request, or acts; one of a step that this device has given up is dropped. -/
def redIn (p : Nat) (payload : List Byte) (last : Bool) (s : State) : State :=
  if s.red.isSome then redArrive p payload last s
  else if s.adGroups.any fun g => (s.ad g).mismatch && (s.ad g).step == leAt payload 0 4 then s
  else { s with redWait := s.redWait ++ [(p + 4 * b2n last, payload)] }

/-- REDUCE (R566). -/
def execReduce (port : Fin 4) (flit : List Byte) (s : State) : Host.Outcome State Fault Refusal :=
  .next (xcReceive port 0x6 flit (redIn port (flitPayload flit) (flitLast flit)) s)

/-- The reducer takes the request of every adapting group (R302-R306). -/
def reduceTake (s : State) : State :=
  match s.adGroups with
  | [] => s
  | g :: gs =>
    if s.red.isSome || !((g :: gs).all fun e => s.adFlag e 1) then s
    else
      let q := s.redReq g
      let same := gs.all fun e => let r := s.redReq e; r.1 == q.1 && r.2.1 == q.2.1 && r.2.2.1 == q.2.2.1 && r.2.2.2.1 == q.2.2.2.1
      let s1 := (g :: gs).foldl (fun t e => t.setAdFlag e 1 false) s
      let n := q.2.2.2.1 * redWidth q.2.2.1
      if !same || decide (1 < q.2.2.1) || q.2.2.2.1 == 0 || decide (4194304 < q.2.2.2.1) then redAbandon s1
      else match (g :: gs).findSome? fun e => s.ueIn (s.redReq e).2.2.2.2 n with
        | some a => redAbandon (ueStrike a none false s1)
        | none =>
          let first := (s1.ldBytes q.2.2.2.2 n, s1)
          let sum := gs.foldl (fun a e => redAdd q.2.2.1 a.1 (a.2.ldBytes (a.2.redReq e).2.2.2.2 n) a.2) first
          let j : RedJob := { step := q.1, seq := q.2.1, op := q.2.2.1, elems := q.2.2.2.1, bufs := (g :: gs).map fun e => (s.redReq e).2.2.2.2,
                              localSum := sum.1 }
          let t : State := { sum.2 with red := some j, redWait := [] }
          let t1 := if t.mirror || fld (t.rd cagePage 0x500) 2 0 != 0 then t
            else (redPieces t.redChunk n).foldl (fun u e => redStep (e.1 + e.2.1) e.2.2.1 u) t
          s.redWait.foldl (fun u e => redIn (e.1 % 4) e.2 (decide (4 ≤ e.1)) u) t1

/-- REDUCE_TAKE (R302). -/
def execReduceTake (s : State) : Host.Outcome State Fault Refusal := .next (reduceTake s)

/-- The result is in BUF of every group, and RED_DONE is set, once the total of every run is here (R302, R304). -/
def reduceDone (s : State) : State :=
  match s.red with
  | none => s
  | some j =>
    let ps := redPieces s.redChunk j.bytes
    if ps.all fun e => (NMap.find j.total (e.1 + e.2.1)).isSome then
      let bytes := ps.flatMap fun e => NMap.get [] j.total (e.1 + e.2.1)
      let s1 := j.bufs.foldl (fun t a => storeBytes 7 none a bytes t) s
      s1.adGroups.foldl (fun t g => t.setAdFlag g 2 true) { s1 with red := none }
    else s

/-- REDUCE_DONE (R302). -/
def execReduceDone (s : State) : Host.Outcome State Fault Refusal := .next (reduceDone s)

end Sys2Proof.Machine
end

