-- ==== Sys2Proof/Machine/Datagram.lean ====
section
/-! DEFINITION. Frames as they arrive: Ethernet, and an IPv4 packet that carries UDP (RFC 791, RFC 768; log entries 36 and 39), and the headers of
RTP, ST 2110-20 and ST 2110-40 packets. -/
namespace Sys2Proof.Machine

/-- An Ethernet frame without its check sequence: addresses, VLAN ID, R-TAG number, EtherType and what follows it. -/
structure EthFrame where
  dst : Nat
  src : Nat
  vid : Nat
  rtag : Option Nat
  etype : Nat
  body : List Byte
deriving DecidableEq, Repr

/-- The frame that bytes spell: an IEEE 802.1Q tag and an R-TAG are taken off. -/
def parseEth (b : List Byte) : EthFrame :=
  let tagged := beAt b 12 2 = 0x8100
  let o := if tagged then 16 else 12
  let vid := if tagged then beAt b 14 2 % 4096 else 0
  if beAt b o 2 = 0xF1C1 then ⟨beAt b 0 6, beAt b 6 6, vid, some (beAt b (o + 4) 2), beAt b (o + 6) 2, b.drop (o + 8)⟩
  else ⟨beAt b 0 6, beAt b 6 6, vid, none, beAt b o 2, b.drop (o + 2)⟩

/-- The frame check sequence, a frame's last four bytes, holds (R499). -/
def fcsOk (b : List Byte) : Bool := decide (18 ≤ b.length) && crc32 (b.take (b.length - 4)) == leAt b (b.length - 4) 4

/-- The IPv4 packet of a frame, with its check sequence, that an ingress port takes: at most 9,018 bytes, or 9,022 with one tag where the port
takes tags; no Pause frame (R475). -/
def ingressFrame (vlan : Bool) (b : List Byte) : Option (List Byte) :=
  let tag := beAt b 12 2 = 0x8100
  let f := parseEth (b.take (b.length - 4))
  if (tag ∧ !vlan) ∨ (if tag then 9022 else 9018) < b.length ∨ f.rtag.isSome ∨ f.etype ≠ 0x0800 then none else some f.body

/-- A UDP datagram. -/
structure Dgram where
  src : Nat
  dst : Nat
  sport : Nat
  dport : Nat
  payload : List Byte
deriving DecidableEq, Repr

/-- The UDP datagram of an IPv4 packet; none for another protocol, a fragment or a packet cut short (R475). -/
def parseUdp (p : List Byte) : Option Dgram :=
  let ihl := 4 * (leAt p 0 1 % 16)
  let len := beAt p 2 2
  let ul := beAt p (ihl + 4) 2
  if leAt p 0 1 / 16 ≠ 4 ∨ ihl < 20 ∨ p.length < len ∨ len < ihl + ul ∨ ul < 8 ∨ leAt p 9 1 ≠ 17 ∨ beAt p 6 2 % 2 ^ 14 ≠ 0 then none
  else some ⟨beAt p 12 4, beAt p 16 4, beAt p ihl 2, beAt p (ihl + 2) 2, sliceL p (ihl + 8) (ul - 8)⟩

/-- The groups that an IGMP membership query asks for: 0 is every group (RFC 3376; log entry 36). -/
def igmpQuery (p : List Byte) : Option Nat :=
  let ihl := 4 * (leAt p 0 1 % 16)
  if leAt p 0 1 / 16 ≠ 4 ∨ ihl < 20 ∨ p.length < ihl + 8 ∨ leAt p 9 1 ≠ 2 ∨ leAt p ihl 1 ≠ 0x11 then none else some (beAt p (ihl + 4) 4)

/-- An RTP packet: marker, payload type, sequence number, timestamp, and what follows the header. -/
structure Rtp where
  marker : Bool
  pt : Nat
  seq : Nat
  ts : Nat
  body : List Byte
deriving DecidableEq, Repr

/-- The RTP packet of a payload of version 2. -/
def parseRtp (b : List Byte) : Option Rtp :=
  let b0 := leAt b 0 1
  let b1 := leAt b 1 1
  let n := 12 + 4 * (b0 % 16)
  let ext := if bit b0 4 then 4 + 4 * beAt b (n + 2) 2 else 0
  if b0 / 64 ≠ 2 ∨ b.length < n + ext then none
  else some ⟨bit b1 7, b1 % 128, beAt b 2 2, beAt b 4 4, b.drop (n + ext)⟩

/-- The 32-bit extended sequence number (R477): the payload header's first two bytes above RTP's number. -/
def Rtp.extSeq (r : Rtp) : Nat := beAt r.body 0 2 * 65536 + r.seq

/-- A sample row of ST 2110-20: field bit, row, offset, and its samples. -/
structure SampleRow where
  field : Bool
  row : Nat
  off : Nat
  data : List Byte
deriving DecidableEq, Repr

/-- The sample row data headers from an index on, at most three (R479): length, F and row, C and offset. -/
def rowHeaders : Nat → List Byte → Nat → Option (List (Nat × Bool × Nat × Nat) × Nat)
  | 0, _, _ => none
  | fuel + 1, b, i =>
    if b.length < i + 6 then none
    else
      let h := (beAt b i 2, bit (beAt b (i + 2) 2) 15, beAt b (i + 2) 2 % 2 ^ 15, beAt b (i + 4) 2 % 2 ^ 15)
      if bit (beAt b (i + 4) 2) 15 then (rowHeaders fuel b (i + 6)).map fun r => (h :: r.1, r.2) else some ([h], i + 6)

/-- The rows of an ST 2110-20 packet; none when its headers run past the packet or are more than three (R479). -/
def sampleRows (b : List Byte) : Option (List SampleRow) :=
  match rowHeaders 3 b 2 with
  | none => none
  | some (hs, at') =>
    if b.length < at' + (hs.map (·.1)).foldl (· + ·) 0 then none
    else some ((hs.foldl (fun (a : List SampleRow × Nat) h => (a.1 ++ [⟨h.2.1, h.2.2.1, h.2.2.2, sliceL b a.2 h.1⟩], a.2 + h.1)) ([], at')).1)

/-- The containers of the pixels in a pgroup sequence (R480): 10 or 12 bits, first sample most significant; YCbCr samples run
Cb, Y, Cr. -/
def unpackPixels (bits : Nat) (ycc : Bool) (data : List Byte) : List Byte :=
  let v := beNat data
  let total := 8 * data.length
  (List.range (total / (3 * bits))).flatMap fun j =>
    let c (k : Nat) : Nat := v / 2 ^ (total - (3 * j + k + 1) * bits) % 2 ^ bits
    let o := if ycc then [c 1, c 0, c 2] else [c 0, c 1, c 2]
    if bits = 10 then leBytes 4 (nth 0 o 0 + nth 0 o 1 * 2 ^ 10 + nth 0 o 2 * 2 ^ 20)
    else leBytes 8 (nth 0 o 0 + nth 0 o 1 * 2 ^ 16 + nth 0 o 2 * 2 ^ 32)

/-- The ANC packets from bit `at` on: DID, SDID and user data words, ten bits each, packets at multiples of 32 bits (RFC 8331; log
entry 36). -/
def ancPackets : Nat → List Byte → Nat → List (Nat × Nat × List Nat)
  | 0, _, _ => []
  | n + 1, b, at' =>
    let v := beNat b
    let total := 8 * b.length
    let w (i : Nat) : Nat := if total < at' + 32 + 10 * (i + 1) then 0 else v / 2 ^ (total - (at' + 32 + 10 * (i + 1))) % 2 ^ 10
    let c := w 2 % 256
    if total < at' + 62 then []
    else (w 0 % 256, w 1 % 256, (List.range c).map fun i => w (3 + i)) :: ancPackets n b (at' + ceilDiv (32 + 10 * (c + 4)) 32 * 32)

/-- A pose record of bytes whose fields run most significant byte first, in the byte order of the store (R79, R482, R484). -/
def poseOfBe (b : List Byte) : List Byte :=
  (sliceL b 0 4).reverse ++ (sliceL b 4 4).reverse ++ (sliceL b 8 8).reverse ++
    (List.range 12).flatMap fun k => (sliceL b (16 + 4 * k) 4).reverse

end Sys2Proof.Machine
end

