-- ==== Sys2Proof/Machine/Sorter.lean ====
section
/-! DEFINITION. The sorters (R281-R290): jobs, decoding of candidates, ordering, suppression and output. -/
namespace Sys2Proof.Machine

/-- The sorter of a die. -/
def State.sorter (s : State) (c : Nat) : Sorter := NMap.get {} s.sorters c

/-- The state with a sorter replaced. -/
def State.setSorter (s : State) (c : Nat) (x : Sorter) : State := { s with sorters := NMap.put s.sorters c x }

/-! ### Descriptors (R282) -/

/-- CAND, ANCHORS and OUT stand at 0x08, 0x10 and 0x18 of a descriptor. -/
def sortAddr (d : List Byte) (o : Nat) : Nat := leAt d o 8 % 2 ^ 40
/-- PART of a job. -/
def sortPart (d : List Byte) : Nat := leAt d 4 1 % 64
/-- N_CAND of a job. -/
def sortCands (d : List Byte) : Nat := leAt d 0x20 4
/-- N_ANCHOR of a job. -/
def sortAnchors (d : List Byte) : Nat := leAt d 0x2A 2
/-- MAX_OUT of a job. -/
def sortMax (d : List Byte) : Nat := leAt d 0x28 2
/-- IMG_W of a job. -/
def sortImgW (d : List Byte) : Nat := leAt d 0x2C 2
/-- IMG_H of a job. -/
def sortImgH (d : List Byte) : Nat := leAt d 0x2E 2
/-- START (lo = 0) or DONE (lo = 16) of a job, as drift and index. -/
def sortFlag (d : List Byte) (lo : Nat) : Nat × Nat := (fld (leAt d 0x30 4) (lo + 14) (lo + 12), fld (leAt d 0x30 4) (lo + 11) lo)

/-- The bits that each word of a descriptor names; the others are reserved (R282). -/
def sortMasks : List Nat :=
  [0x00FFFFFF, 0x13F, 0xFFFFFFFF, 0xFF, 0xFFFFFFFF, 0xFF, 0xFFFFFFFF, 0xFF, 0x1FFFFF, 0xFFFFFFFF, 0xFFFF1FFF, 0x1FFF1FFF,
    0x7FFF7FFF, 0, 0, 0]

/-- A descriptor keeps R282. -/
def sortDescOk (d : List Byte) : Bool :=
  leAt d 0 2 == 0x534F && leAt d 2 1 == 1 &&
  ((List.range 16).all fun k => leAt d (4 * k) 4 &&& nth 0 sortMasks k == leAt d (4 * k) 4) &&
  decide (sortPart d < 32) && sortAddr d 0x08 % 64 == 0 && sortAddr d 0x10 % 8 == 0 && sortAddr d 0x18 % 64 == 0 &&
  decide (1 ≤ sortCands d ∧ sortCands d ≤ 1048576) && decide (1 ≤ sortMax d ∧ sortMax d ≤ 4096) && sortAnchors d != 0 &&
  sortImgW d != 0 && sortImgH d != 0

/-! ### Candidates (R283, R284) -/

/-- A decoded candidate: score, class, index and its clipped box in units of 1/8 pixel. -/
structure Box where
  score : Nat
  cls : Nat
  idx : Nat
  x0 : Nat
  y0 : Nat
  x1 : Nat
  y1 : Nat
deriving DecidableEq, Repr

/-- An integer over 2^k rounded to nearest, ties away from zero. -/
def rndShift (x : Int) (k : Nat) : Int :=
  let a := (2 * x.natAbs + 2 ^ k) / 2 ^ (k + 1)
  if x < 0 then -(a : Int) else a

/-- e(f): 2^(f / 4,096) × 32,768 correctly rounded (R284). -/
def sortExp (f : Nat) : Nat :=
  if f = 0 then 32768 else (expSeries 48 0 (f * ln2Fix / 4096) (2 ^ 160) * 2 ^ 16 + 2 ^ 160) / 2 ^ 161

/-- A size of a box: min(65,535, rnd(A × e(f) × 2^n / 32,768)) with D = 4,096 n + f (R284). -/
def sortSize (a : Nat) (d : Int) : Nat :=
  let n := d / 4096
  let f := (d % 4096).toNat
  min 65535 ((2 * (a * sortExp f * 2 ^ (n + 8).toNat) + 2 ^ 23) / 2 ^ 24)

/-- The clipped extent of a box along one axis: centre, size and limit (R284). -/
def sortExtent (c : Int) (w lim : Nat) : Nat × Nat :=
  let x0 := c - (w / 2 : Nat)
  ((clampI 0 (8 * lim : Nat) x0).toNat, (clampI 0 (8 * lim : Nat) (x0 + w)).toNat)

/-- A candidate decoded against its anchor; none when its box is empty (R284). -/
def decodeBox (d cand anchor : List Byte) (i : Nat) : Option Box :=
  let s16 (o : Nat) : Int := sext 16 (leAt cand o 2)
  let an (o : Nat) : Nat := leAt anchor o 2
  let cx := (an 0 : Int) + rndShift (s16 8 * an 4) 12
  let cy := (an 2 : Int) + rndShift (s16 10 * an 6) 12
  let x := sortExtent cx (sortSize (an 4) (s16 12)) (sortImgW d)
  let y := sortExtent cy (sortSize (an 6) (s16 14)) (sortImgH d)
  if x.2 ≤ x.1 ∨ y.2 ≤ y.1 then none else some ⟨leAt cand 0 2, leAt cand 2 1, i, x.1, y.1, x.2, y.2⟩

/-! ### Order and suppression (R285, R286) -/

/-- A box placed before the first of a list ordered by descending score, ties by ascending index, that it precedes. -/
def insertBox (b : Box) : List Box → List Box
  | [] => [b]
  | c :: cs => if c.score < b.score ∨ (c.score = b.score ∧ b.idx < c.idx) then b :: c :: cs else c :: insertBox b cs

/-- The overlap of two intervals. -/
def overlap (a0 a1 b0 b1 : Nat) : Nat := min a1 b1 - max a0 b0

/-- A kept box suppresses a candidate (R286). -/
def suppresses (agnostic : Bool) (t : Nat) (k c : Box) : Bool :=
  let area (b : Box) : Nat := (b.x1 - b.x0) * (b.y1 - b.y0)
  let inter := overlap k.x0 k.x1 c.x0 c.x1 * overlap k.y0 k.y1 c.y0 c.y1
  (agnostic || k.cls == c.cls) && decide (t * (area k + area c - inter) < inter * 65536)

/-- The candidates taken in order: those kept, in kept order, and how many were suppressed (R286). -/
def suppressAll (agnostic : Bool) (t m : Nat) : List Box → List Box → Nat → List Box × Nat
  | [], kept, n => (kept, n)
  | c :: cs, kept, n =>
    if m ≤ kept.length then (kept, n)
    else if kept.any fun k => suppresses agnostic t k c then suppressAll agnostic t m cs kept (n + 1)
    else suppressAll agnostic t m cs (kept ++ [c]) n

/-! ### Jobs (R281, R287, R288) -/

/-- What a completed job reports. -/
structure SortResult where
  kept : List Box := []
  passed : Nat := 0
  dropped : Nat := 0
  overflow : Nat := 0
  suppressed : Nat := 0

/-- The candidates of a job that pass the threshold. -/
def State.sortPassed (s : State) (d : List Byte) : List (Nat × List Byte) :=
  ((List.range (sortCands d)).map fun i => (i, s.ldBytes (sortAddr d 0x08 + 16 * i) 16)).filter fun e =>
    decide (leAt d 0x24 2 ≤ leAt e.2 0 2)

/-- A job over its candidates (R284-R286). -/
def State.sortRun (s : State) (d : List Byte) : SortResult :=
  let ps := s.sortPassed d
  let boxes := ps.filterMap fun e =>
    if sortAnchors d ≤ leAt e.2 4 4 then none else decodeBox d e.2 (s.ldBytes (sortAddr d 0x10 + 8 * leAt e.2 4 4) 8) e.1
  let ordered := boxes.foldl (fun l b => insertBox b l) []
  let r := suppressAll (bit (leAt d 4 4) 8) (leAt d 0x26 2) (sortMax d) (ordered.take 16384) [] 0
  ⟨r.1, ps.length, ps.length - boxes.length, boxes.length - 16384, r.2⟩

/-- A box record (R287). -/
def Box.bytes (b : Box) : List Byte :=
  leBytes 2 b.x0 ++ leBytes 2 b.y0 ++ leBytes 2 b.x1 ++ leBytes 2 b.y1 ++ leBytes 2 b.score ++ leBytes 2 b.cls ++ leBytes 4 b.idx

/-- The output header (R287): KEPT, STATUS and the four counts. -/
def sortHeader (kept status passed dropped overflow suppressed : Nat) : List Byte :=
  leBytes 2 kept ++ leBytes 2 status ++ leBytes 4 passed ++ leBytes 4 dropped ++ leBytes 4 overflow ++ leBytes 4 suppressed ++
    leBytes 44 0

/-- An access of a sorter job: within the windows of PART, at an assigned address of memory (R288). -/
def State.sortAllow (s : State) (d : List Byte) (right a n : Nat) : Bool :=
  n == 0 || (rangeInMemory a n && s.partAllow (sortPart d) right a n)

/-- The reads of a job: its candidates, and the anchors that passing candidates name. -/
def State.sortReads (s : State) (d : List Byte) : List (Nat × Nat) :=
  (sortAddr d 0x08, 16 * sortCands d) :: (s.sortPassed d).filterMap fun e =>
    if sortAnchors d ≤ leAt e.2 4 4 then none else some (sortAddr d 0x10 + 8 * leAt e.2 4 4, 8)

/-- What stops a job: its STATUS and the address (R288). -/
def State.sortBlock (s : State) (d : List Byte) (n : Nat) : Option (Nat × Nat) :=
  let rs := s.sortReads d
  match rs.find? fun r => !s.sortAllow d 1 r.1 r.2 with
  | some r => some (2, r.1)
  | none =>
    match rs.findSome? fun r => s.ueIn r.1 r.2 with
    | some a => some (3, a)
    | none => if s.sortAllow d 2 (sortAddr d 0x18) (64 + 16 * n) then none else some (2, sortAddr d 0x18)

/-- A job has met what ends it (R288): SORT_DESC, SORT_ADDR, or an uncorrectable error, to which R264 applies. -/
def sortStrike (c status a : Nat) (s : State) : State :=
  if status = 1 then s.fault { page := sorterPage c, code := 0x7004 }
  else if status = 2 then s.fault { page := sorterPage c, code := 0x7005, detail := a }
  else ueStrike a none false s

/-- The header of a job that ends with an error is written where its OUT may be written. The manual states no counts for it:
they are free values, except for a descriptor that fails, where nothing has been counted (log entry 33). -/
def sortErrHeader (status : Nat) (d : List Byte) (s : State) : State :=
  if !s.sortAllow d 2 (sortAddr d 0x18) 64 then s
  else if status = 1 then storeBytes 7 none (sortAddr d 0x18) (sortHeader 0 1 0 0 0 0) s
  else
    let k := s.draw 16
    let p := k.2.draw 32
    let x := p.2.draw 32
    let o := x.2.draw 32
    let u := o.2.draw 32
    storeBytes 7 none (sortAddr d 0x18) (sortHeader k.1 status p.1 x.1 o.1 u.1) u.2

/-- A write of SORT_JOB enqueues a job, or ends in FULL (R281). -/
def actSortJob (id c a : Nat) (s : State) : State :=
  let t := s.sorter c
  if 8 ≤ t.queue.length then s.busErr id (sorterPage c) 4 else s.setSorter c { t with queue := t.queue ++ [fld a 39 6 * 64] }

/-- SORT_JOB (R281). -/
def execSortJob (id : Ident) (die : Fin 2) (addr : Nat) (s : State) : Host.Outcome State Fault Refusal :=
  .next (guardW id (sorterPage die) 0x104 s (actSortJob id die addr))

/-- A write of SORT_FLUSH (R281). -/
def actSortFlush (c v : Nat) (s : State) : State := if bit v 0 then s.setSorter c { s.sorter c with queue := [] } else s

/-- SORT_FLUSH (R281). -/
def execSortFlush (id : Ident) (die : Fin 2) (s : State) : Host.Outcome State Fault Refusal :=
  .next (guardW id (sorterPage die) 0x110 s (actSortFlush die 1))

/-- The job at the head starts once its START flag reads 1, which it clears; its descriptor is checked (R281, R288). -/
def sortStart (c : Nat) (s : State) : State :=
  let t := s.sorter c
  match t.job, t.queue with
  | none, a :: q =>
    let d := s.ldBytes a 64
    let st := sortFlag d 0
    if !s.gflag st.1 st.2 || s.quiet (sorterPage c) then s
    else
      let e := if !rangeInMemory a 64 then 2 else if (s.ueIn a 64).isSome then 3 else if !sortDescOk d then 1
        else if !s.sortAllow d 1 a 64 then 2 else 0
      let s1 := (s.setG st.1 st.2 false).setSorter c { queue := q, job := some { desc := d, status := e } }
      if e = 0 then s1 else sortStrike c e ((s.ueIn a 64).getD a) s1
  | _, _ => s

/-- SORT_JOB_START (R281). -/
def execSortJobStart (die : Fin 2) (s : State) : Host.Outcome State Fault Refusal := .next (sortStart die s)

/-- The output of a job is written and tallied (R287). -/
def sortWrite (c : Nat) (d : List Byte) (r : SortResult) (s : State) : State :=
  ((storeBytes 7 none (sortAddr d 0x18)
      (sortHeader r.kept.length 0 r.passed r.dropped r.overflow r.suppressed ++ r.kept.flatMap Box.bytes) s).tallyN
    (sorterPage c) 0x4E r.suppressed).tallyN (sorterPage c) 0x4F r.overflow

/-- A job ends: its output or its error header, DONE and the interrupt (R281, R287, R288). -/
def sortEnd (c : Nat) (s : State) : State :=
  match (s.sorter c).job with
  | none => s
  | some j =>
    let d := j.desc
    let r := if j.status = 0 then s.sortRun d else {}
    let bad := if j.status = 0 then s.sortBlock d r.kept.length else none
    let e := (bad.map (·.1)).getD j.status
    let s1 := match bad with
      | some b => sortStrike c b.1 b.2 s
      | none => s
    let s2 := if e = 0 then sortWrite c d r s1 else sortErrHeader e d s1
    let done := sortFlag d 16
    let s3 := (s2.setSorter c { s2.sorter c with job := none }).setG done.1 done.2 true
    ((s3.wf (sorterPage c) 0x108 15 8 e).incWrap (sorterPage c) 0x10C).irq (sorterPage c) (if e = 0 then 8 else 9)

/-- SORT_JOB_END (R287). -/
def execSortJobEnd (die : Fin 2) (s : State) : Host.Outcome State Fault Refusal := .next (sortEnd die s)

end Sys2Proof.Machine
end

