-- ==== Sys2Proof/Machine/Vision.lean ====
section
/-! DEFINITION. What the assay engines compute (R382-R403): pixels, pyramid, corners, descriptors, feature lists, matches and
block flow. -/
namespace Sys2Proof.Machine

/-! ### Images (R382, R383) -/

/-- A level image: width, height and its pixels in raster order. -/
structure Img where
  w : Nat
  h : Nat
  px : Array Nat

/-- The pixel at a position of an image. -/
def Img.at (m : Img) (x y : Nat) : Nat := m.px.getD (y * m.w + x) 0

/-- An image formed pixel by pixel. -/
def Img.build (w h : Nat) (f : Nat → Nat → Nat) : Img :=
  ⟨w, h, ((List.range h).flatMap fun y => (List.range w).map fun x => f x y).toArray⟩

/-- The pixels of a line's payload, normalised to 12 bits (R382): RAW8 a byte each, RAW10 four in five bytes, RAW12 two in three
bytes (log entry 34). -/
def csiPixels (fmt : Nat) (w : Nat) (bs : List Byte) : List Nat :=
  let b (i : Nat) : Nat := leAt bs i 1
  (List.range w).map fun x => match fmt with
    | 0 => b x * 16
    | 1 => (b (x / 4 * 5 + x % 4) * 4 + b (x / 4 * 5 + 4) / 4 ^ (x % 4) % 4) * 4
    | _ => b (x / 2 * 3 + x % 2) * 16 + b (x / 2 * 3 + 2) / 16 ^ (x % 2) % 16

/-- The next level of the pyramid (R383). -/
def Img.half (m : Img) : Img := Img.build (m.w / 2) (m.h / 2) fun x y =>
  (m.at (2 * x) (2 * y) + m.at (2 * x + 1) (2 * y) + m.at (2 * x) (2 * y + 1) + m.at (2 * x + 1) (2 * y + 1) + 2) / 4

/-- Level `l` of a frame (R383). -/
def Img.level (m : Img) : Nat → Img
  | 0 => m
  | l + 1 => (m.level l).half

/-- A position of level `l` with an offset in 1/64 pixel, in level-0 coordinates (R384). -/
def toLevel0 (l : Nat) (x : Nat) (dx : Int) : Int := (64 * (x : Int) + dx) * (2 ^ l : Nat) + 32 * ((2 ^ l : Nat) - 1)

/-- A quotient rounded to the nearest integer, ties away from zero (positive denominator). -/
def rndQuot (a b : Int) : Int :=
  let q := (2 * a.natAbs + b.toNat) / (2 * b.toNat)
  if a < 0 then -(q : Int) else q

/-! ### Corners (R385-R387) -/

/-- The offsets of a square window of side 2r + 1, in raster order. -/
def window (r : Nat) : List (Int × Int) :=
  (List.range (2 * r + 1)).flatMap fun j => (List.range (2 * r + 1)).map fun i => (((i : Nat) : Int) - r, ((j : Nat) : Int) - r)

/-- The pixel at an offset from a position. -/
def Img.off (m : Img) (x y : Nat) (d : Int × Int) : Nat := m.at ((x : Int) + d.1).toNat ((y : Int) + d.2).toNat

/-- The score of a level pixel (R385). -/
def Img.score (m : Img) (x y : Nat) : Nat :=
  let g := (window 3).map fun d =>
    (((m.off x y (d.1 + 1, d.2) : Nat) : Int) - m.off x y (d.1 - 1, d.2), ((m.off x y (d.1, d.2 + 1) : Nat) : Int) - m.off x y (d.1, d.2 - 1))
  let sxx := g.foldl (fun a e => a + e.1 * e.1) 0
  let syy := g.foldl (fun a e => a + e.2 * e.2) 0
  let sxy := g.foldl (fun a e => a + e.1 * e.2) 0
  (max 0 (sxx * syy - sxy * sxy - (sxx + syy) * (sxx + syy) / 16)).toNat / 2 ^ 28

/-- The offsets of the neighbours that precede a pixel in raster order; the others are their negatives. -/
def before8 : List (Int × Int) := [(-1, -1), (0, -1), (1, -1), (-1, 0)]

/-- The pixel of a score image is a feature (R386). -/
def isCorner (sc : Img) (floor x y : Nat) : Bool :=
  let c := sc.at x y
  decide (floor ≤ c) && (before8.all fun d => decide (sc.off x y d < c)) && before8.all fun d => decide (sc.off x y (-d.1, -d.2) ≤ c)

/-- The sub-pixel offset from three scores (R387). -/
def subPixel (l c r : Nat) : Int :=
  let d : Int := 2 * (2 * (c : Int) - l - r)
  if d ≤ 0 then 0 else clampI (-32) 32 (rndQuot (64 * ((r : Int) - l)) d)

/-! ### Orientation and descriptor (R388-R391) -/

/-- rnd(16,384 × sin(πk / 16)) for k from 0 to 8 (R388). -/
def sin16 : List Nat := [0, 3196, 6270, 9102, 11585, 13623, 15137, 16069, 16384]

/-- S_k (R388). -/
def sinK (k : Nat) : Int :=
  let j := k % 16
  let v : Int := ((nth 0 sin16 (if j ≤ 8 then j else 16 - j) : Nat) : Int)
  if k % 32 < 16 then v else -v

/-- C_k (R388). -/
def cosK (k : Nat) : Int := sinK (k + 8)

/-- The orientation of a feature: the bin of the greatest projection of its moments, ties to the lower (R388). -/
def Img.orient (m : Img) (x y : Nat) : Nat :=
  let ds := (window 15).filter fun d => decide (d.1 * d.1 + d.2 * d.2 ≤ 225)
  let m10 := ds.foldl (fun a d => a + d.1 * m.off x y d) 0
  let m01 := ds.foldl (fun a d => a + d.2 * m.off x y d) 0
  let v (k : Nat) : Int := m10 * cosK k + m01 * sinK k
  (List.range 32).foldl (fun b k => if v b < v k then k else b) 0

/-- The box image at a position (R389). -/
def Img.box (m : Img) (x y : Int) : Nat :=
  (window 2).foldl (fun a d => a + m.at (x + d.1).toNat (y + d.2).toNat) 0

/-- A point of the pattern. -/
abbrev Pt := Int × Int

/-- The generator of the comparison pattern (R391): pairs drawn until `n` stand, with at most `fuel` draws of four values. -/
def drawPairs : Nat → Nat → Nat → List (Pt × Pt)
  | 0, _, _ => []
  | fuel + 1, n, s =>
    let nx (a : Nat) : Nat := (25173 * a + 13849) % 65536
    let v (a : Nat) : Int := ((21 * a / 65536 : Nat) : Int) - 10
    let a := nx s
    let b := nx a
    let c := nx b
    let d := nx c
    let p : Pt := (v a, v b)
    let q : Pt := (v c, v d)
    if n = 0 then [] else if p = q then drawPairs fuel n d else (p, q) :: drawPairs fuel (n - 1) d

/-- The 256 pairs of the comparison pattern (R391). -/
def pattern : List (Pt × Pt) := drawPairs 1024 256 1

/-- A pattern point rotated by a bin (R389). -/
def rotate (k : Nat) (p : Pt) : Pt := (rndShift (p.1 * cosK k - p.2 * sinK k) 14, rndShift (p.1 * sinK k + p.2 * cosK k) 14)

/-- The descriptor of a feature, as its 32 bytes (R389, R391). -/
def Img.descriptor (m : Img) (x y k : Nat) : List Byte :=
  let at' (p : Pt) : Nat := let r := rotate k p; m.box ((x : Int) + r.1) ((y : Int) + r.2)
  let bits := pattern.map fun e => decide (at' e.1 < at' e.2)
  leBytes 32 (bits.foldr (fun b a => 2 * a + b2n b) 0)

/-- The patch variance of a feature (R390). -/
def Img.patchVar (m : Img) (x y : Nat) : Nat :=
  let vs := (window 15).map (m.off x y)
  let s := vs.foldl (· + ·) 0
  (961 * vs.foldl (fun a v => a + v * v) 0 - s * s) / 923521

/-! ### Feature lists (R386, R392, R405) -/

/-- A feature as R392 orders it: score, and its position in raster order. -/
structure Corner where
  score : Nat
  x : Nat
  y : Nat
deriving DecidableEq, Repr

/-- The features of a level in raster order (R386). -/
def corners (sc : Img) (floor : Nat) : List Corner :=
  if sc.w < 40 ∨ sc.h < 40 then []
  else (List.range (sc.h - 32)).flatMap fun j => (List.range (sc.w - 32)).filterMap fun i =>
    if isCorner sc floor (16 + i) (16 + j) then some ⟨sc.at (16 + i) (16 + j), 16 + i, 16 + j⟩ else none

/-- The score image of a level; only the positions that features need are formed. -/
def Img.scores (m : Img) : Img := Img.build m.w m.h fun x y =>
  if 15 ≤ x ∧ x + 16 ≤ m.w ∧ 15 ≤ y ∧ y + 16 ≤ m.h then m.score x y else 0

/-- Place of a corner among those ordered by descending score, ties by raster order. -/
def insertCorner (c : Corner) : List Corner → List Corner
  | [] => [c]
  | d :: ds => if d.score < c.score then c :: d :: ds else d :: insertCorner c ds

/-- The kept features, in raster order: the `cap` highest scores, ties to the earlier position (R392). -/
def keepCorners (cap : Nat) (cs : List Corner) : List Corner :=
  if cs.length ≤ cap then cs
  else let best := (cs.foldl (fun l c => insertCorner c l) []).take cap; cs.filter fun c => best.contains c

/-- A feature record (R405). -/
def featureRecord (m sc : Img) (l varFloor : Nat) (c : Corner) : List Byte :=
  let k := m.orient c.x c.y
  let v := m.patchVar c.x c.y
  let dx := subPixel (sc.at (c.x - 1) c.y) c.score (sc.at (c.x + 1) c.y)
  let dy := subPixel (sc.at c.x (c.y - 1)) c.score (sc.at c.x (c.y + 1))
  leBytes 4 (toField 19 (toLevel0 l c.x dx)) ++ leBytes 4 (toField 19 (toLevel0 l c.y dy)) ++
    leBytes 4 (l + k * 256 + b2n (decide (v < varFloor)) * 2 ^ 31) ++ leBytes 4 c.score ++ leBytes 4 v ++ leBytes 12 0 ++
    m.descriptor c.x c.y k

/-! ### Hints (R393, R394) -/

/-- The hint record may be used: VALID is 1 and its reserved fields are zero (R393, R394). -/
def hintOk (h : List Byte) : Bool := leAt h 4 4 == 1 && leAt h 0x1A 2 == 0 && leAt h 0x1C 4 == 0

/-- The predicted position of reference content (R393); the identity without a valid hint (R394). -/
def predict (h : List Byte) (valid : Bool) (p : Pt) : Pt :=
  if !valid then p
  else
    let a (o : Nat) : Int := sext 16 (leAt h o 2)
    (rndShift (a 8 * p.1 + a 10 * p.2) 14 + sext 32 (leAt h 0x10 4), rndShift (a 12 * p.1 + a 14 * p.2) 14 + sext 32 (leAt h 0x14 4))

/-- R0 (R394), with AS_RADIUS. -/
def hintRadius (h : List Byte) (valid : Bool) (radius : Nat) : Nat :=
  if valid then min (fld radius 14 8) (max 1 (ceilDiv (3 * leAt h 0x18 2) 256)) else fld radius 6 0

/-! ### Matcher (R395-R397) -/

/-- What the matcher reads of a feature record: position, FLAT and descriptor. -/
structure Feat where
  pos : Pt
  flat : Bool
  desc : Nat
deriving DecidableEq, Repr

/-- A feature of its record's bytes. -/
def Feat.ofBytes (b : List Byte) : Feat := ⟨((leAt b 0 4 % 2 ^ 19 : Nat), (leAt b 4 4 % 2 ^ 19 : Nat)), bit (leAt b 8 4) 31, leAt b 0x20 32⟩

/-- The number of 1 bits among the low `n`. -/
def popcount : Nat → Nat → Nat
  | 0, _ => 0
  | n + 1, v => v % 2 + popcount n (v / 2)

/-- The Hamming distance of two descriptors. -/
def hamming (a b : Nat) : Nat := popcount 256 (a ^^^ b)

/-- Two positions lie within a distance on both axes. -/
def near (r : Nat) (p q : Pt) : Bool := decide ((p.1 - q.1).natAbs ≤ r) && decide ((p.2 - q.2).natAbs ≤ r)

/-- The best and the second best distance of a feature over indexed candidates, with the index of the best (R395). -/
def bestTwo (q : Feat) (cs : List (Nat × Feat)) : Option (Nat × Nat × Nat) :=
  cs.foldl (fun a c =>
    let d := hamming q.desc c.2.desc
    match a with
    | none => some (c.1, d, 256)
    | some (i, d1, d2) => if d < d1 then some (c.1, d, d1) else some (i, d1, min d2 d)) none

/-- The settings of a matcher job. -/
structure MatchSet where
  r0 : Nat
  maxDist : Nat
  ratio : Nat
  lr : Bool

/-- The match record of feature `i` of level `l` (R396, R397): its status and its bytes. -/
def matchOne (m : MatchSet) (p : Pt → Pt) (qs cs : List (Nat × Feat)) (l : Nat) (q : Nat × Feat) : Nat × List Byte :=
  let rec' (st cand d1 d2 : Nat) : Nat × List Byte :=
    (st, leBytes 4 (q.1 + l * 2 ^ 12 + st * 2 ^ 16) ++ leBytes 4 cand ++ leBytes 4 (d1 + d2 * 2 ^ 16) ++ leBytes 4 0)
  if q.2.flat then rec' 1 0 0 0
  else match bestTwo q.2 (cs.filter fun c => near (64 * m.r0) (p c.2.pos) q.2.pos) with
    | none => rec' 3 0 0 0
    | some (i, d1, d2) =>
      let c := ((cs.find? fun e => e.1 == i).map (·.2)).getD q.2
      let back := (bestTwo c (qs.filter fun e => near (64 * m.r0) e.2.pos q.2.pos)).map (·.1)
      if m.maxDist < d1 then rec' 3 0 0 0
      else if m.ratio * d2 ≤ d1 * 256 then rec' 4 i d1 d2
      else if m.lr && back != some q.1 then rec' 2 0 0 0
      else rec' 0 i d1 d2

/-! ### Flow (R399-R402) -/

/-- The sum of absolute differences of two 8×8 blocks. -/
def sad (a : Img) (ax ay : Nat) (b : Img) (bx by' : Nat) : Nat :=
  ((List.range 8).flatMap fun j => (List.range 8).map fun i =>
    (((a.at (ax + i) (ay + j) : Nat) : Int) - b.at (bx + i) (by' + j)).natAbs).foldl (· + ·) 0

/-- The variance of an 8×8 block (R400). -/
def blockVar (m : Img) (x y : Nat) : Nat :=
  let vs := (List.range 8).flatMap fun j => (List.range 8).map fun i => m.at (x + i) (y + j)
  let s := vs.foldl (· + ·) 0
  (64 * vs.foldl (fun a v => a + v * v) 0 - s * s) / 4096

/-- An 8×8 block at a position lies wholly inside an image. -/
def Img.holds (m : Img) (x y : Int) : Bool := decide (0 ≤ x) && decide (0 ≤ y) && decide (x + 8 ≤ m.w) && decide (y + 8 ≤ m.h)

/-- A candidate displacement: its offsets from the prediction and its cost. -/
structure Cand where
  a : Int
  b : Int
  cost : Nat
deriving DecidableEq, Repr

/-- A candidate comes before another: smaller cost, then smaller |a| + |b|, then smaller b, then smaller a (R400). -/
def Cand.beats (c d : Cand) : Bool :=
  let n (e : Cand) : Nat := e.a.natAbs + e.b.natAbs
  decide (c.cost < d.cost) || (c.cost == d.cost && (decide (n c < n d) || (n c == n d && (decide (c.b < d.b) || (c.b == d.b && decide (c.a < d.a))))))

/-- The best of candidates. -/
def bestCand (cs : List Cand) : Option Cand := cs.foldl (fun b c => match b with
  | none => some c
  | some d => if c.beats d then some c else some d) none

/-- The candidates of a search for a block of `m` at (x, y) in `n` around (cx, cy): the block of offset (a, b) stands at
(cx + e·a, cy + e·b). -/
def candidates (m : Img) (x y : Nat) (n : Img) (cx cy : Int) (r : Nat) (e : Int) : List Cand :=
  (window r).filterMap fun d =>
    let bx := cx + e * d.1
    let by' := cy + e * d.2
    if n.holds bx by' then some ⟨d.1, d.2, sad m x y n bx.toNat by'.toNat⟩ else none

/-- The sub-pixel part along an axis from the costs beside the best (R400). -/
def flowSub (cs : List Cand) (c : Cand) (da db : Int) : Int :=
  let cost (e : Int) : Option Nat := (cs.find? fun k => k.a == c.a + e * da && k.b == c.b + e * db).map (·.cost)
  match cost (-1), cost 1 with
  | some l, some r =>
    let d : Int := 2 * ((l : Int) + r - 2 * c.cost)
    if d ≤ 0 then 0 else clampI (-32) 32 (rndQuot (64 * ((l : Int) - r)) d)
  | _, _ => 0

/-- A flow record (R402). -/
def flowRecord (fx fy : Int) (conf st cost : Nat) : List Byte :=
  leBytes 4 (toField 32 fx) ++ leBytes 4 (toField 32 fy) ++ leBytes 4 (conf + st * 256) ++ leBytes 4 cost

/-- The settings of a flow job. -/
structure FlowSet where
  level : Nat
  r0 : Nat
  varFloor : Nat
  lr : Bool

/-- The flow record of block (i, j) (R400-R402). -/
def flowOne (f : FlowSet) (p : Pt → Pt) (cur prev : Img) (i j : Nat) : List Byte :=
  let x := 8 * i
  let y := 8 * j
  let c0 : Pt := (toLevel0 f.level (x + 3) 32, toLevel0 f.level (y + 3) 32)
  let pr : Pt := (rndShift ((p c0).1 - c0.1) (6 + f.level), rndShift ((p c0).2 - c0.2) (6 + f.level))
  let r := min 16 (ceilDiv f.r0 (2 ^ f.level))
  let cs := candidates cur x y prev ((x : Int) - pr.1) ((y : Int) - pr.2) r (-1)
  if blockVar cur x y < f.varFloor then flowRecord 0 0 0 1 0
  else match bestCand cs with
    | none => flowRecord 0 0 0 3 0
    | some c =>
      let u : Pt := (pr.1 + c.a, pr.2 + c.b)
      let bx := ((x : Int) - u.1).toNat
      let by' := ((y : Int) - u.2).toNat
      let back := bestCand (candidates prev bx by' cur x y 2 1)
      let far := match back with
        | none => false
        | some k => decide (1 < k.a.natAbs) || decide (1 < k.b.natAbs)
      let fx := (64 * u.1 + flowSub cs c 1 0) * (2 ^ f.level : Nat)
      let fy := (64 * u.2 + flowSub cs c 0 1) * (2 ^ f.level : Nat)
      let fits (v : Int) : Bool := decide (-65536 ≤ v) && decide (v ≤ 65535)
      let mean := (cs.map (·.cost)).foldl (· + ·) 0 / cs.length
      if c.a.natAbs = r ∨ c.b.natAbs = r then flowRecord 0 0 0 3 c.cost
      else if f.lr && far then flowRecord 0 0 0 2 c.cost
      else if !fits fx || !fits fy then flowRecord 0 0 0 3 c.cost
      else flowRecord fx fy (if mean = 0 then 0 else 255 * (mean - c.cost) / mean) 0 c.cost

end Sys2Proof.Machine
end

