-- ==== Sys2Proof/Machine/Assay.lean ====
section
/-! DEFINITION. The camera ports (R491-R494, R503) and the assay engines (R381-R420): frames, feature lists, matcher and flow
jobs, and their registers. -/
namespace Sys2Proof.Machine

/-! ### Settings of a stream (R415, R416) -/

/-- The page settings of a stream, as the words from 0x100. -/
def State.asCfg (s : State) (k : Nat) : List Nat := (List.range 10).map fun j => s.rd (assayPage k) (0x100 + 4 * j)

/-- The settings word at an offset. -/
def cfgWord (c : List Nat) (off : Nat) : Nat := nth 0 c ((off - 0x100) / 4)
/-- A bit of AS_CFG. -/
def cfgBit (c : List Nat) (b : Nat) : Bool := bit (cfgWord c 0x100) b
/-- WIDTH and HEIGHT. -/
def cfgSize (c : List Nat) : Nat × Nat := (fld (cfgWord c 0x104) 12 0, fld (cfgWord c 0x104) 28 16)
/-- CAP (R392). -/
def cfgCap (c : List Nat) : Nat := 64 * fld (cfgWord c 0x10C) 6 0
/-- FLOW_LEVEL. -/
def cfgFlowLevel (c : List Nat) : Nat := fld (cfgWord c 0x100) 9 8
/-- Size of level `l` (R383). -/
def cfgLevel (c : List Nat) (l : Nat) : Nat × Nat := ((cfgSize c).1 / 2 ^ l, (cfgSize c).2 / 2 ^ l)
/-- Flow blocks per row and column (R399). -/
def cfgBlocks (c : List Nat) : Nat × Nat := let z := cfgLevel c (cfgFlowLevel c); (z.1 / 8, z.2 / 8)

/-- Offset of the match records in a result buffer (R404). -/
def matchOff (c : List Nat) : Nat := 64 + 4 * cfgCap c * 64
/-- Offset of the flow records. -/
def flowOff (c : List Nat) : Nat := matchOff c + 4 * cfgCap c * 16
/-- Offset of the level image. -/
def imageOff (c : List Nat) : Nat := flowOff c + (if cfgBit c 4 then 16 * ((cfgBlocks c).1 * (cfgBlocks c).2) else 0)
/-- AS_BUFSIZE (R404). -/
def bufSize (c : List Nat) : Nat :=
  let z := cfgLevel c (cfgFlowLevel c)
  ceilDiv (imageOff c + (if cfgBit c 4 then 2 * z.1 * z.2 else 0)) 65536 * 65536
/-- Address of the result buffer of a frame (R404). -/
def bufAddr (c : List Nat) (seq : Nat) : Nat := galBase + cfgWord c 0x108 + seq % 2 * bufSize c

/-- The state with a ready flag of a frame's buffer set or cleared: 0 FEAT, 1 MATCH, 2 FLOW (R407). -/
def setReady (c : List Nat) (seq j : Nat) (v : Bool) (s : State) : State :=
  let f := cfgWord c 0x110
  s.setG (fld f 14 12) (fld f 11 0 + 3 * (seq % 2) + j) v

/-- The START flag of the matcher (0) or the flow engine (1), as drift and index (R410). -/
def startFlag (c : List Nat) (j : Nat) : Nat × Nat := let f := cfgWord c 0x110; (fld f 14 12, fld f 27 16 + j)

/-- A bit of the header word 0x04 of a frame's buffer set. -/
def headerBit (c : List Nat) (seq b : Nat) (s : State) : State :=
  let a := bufAddr c seq + 4
  storeNum a 4 (setBit (s.ld a 4) b true) s

/-- A stream pipeline. -/
def State.as (s : State) (k : Nat) : AssaySt := NMap.get {} s.assay k
/-- The state with a stream pipeline changed. -/
def State.modAs (s : State) (k : Nat) (f : AssaySt → AssaySt) : State := { s with assay := NMap.put s.assay k (f (s.as k)) }

/-! ### Frames of a stream (R406, R407, R409) -/

/-- The buffer header of a completed frame from STATUS to R0, and SEQ_END (R406). -/
def frameHeader (f : AsFrame) (jobs : Nat) (n ovf : List Nat) (s : State) : State :=
  let a := bufAddr f.cfg f.seq
  let b := cfgBlocks f.cfg
  let s1 := storeBytes 7 none (a + 4) (leBytes 4 (f.status + jobs + b2n f.valid * 2 ^ 13 + b2n (cfgBit f.cfg 5) * 2 ^ 14) ++
    leBytes 8 f.sof ++ leBytes 8 f.eof ++ n.flatMap (leBytes 2) ++ (ovf.map fun v => min v 0xFFFF).flatMap (leBytes 2) ++
    leBytes 4 (if f.valid then leAt f.hint 0 4 else 0)) s
  let s2 := storeBytes 7 none (a + 0x30) (leBytes 2 b.1 ++ leBytes 2 b.2 ++ leBytes 1 (hintRadius f.hint f.valid (cfgWord f.cfg 0x120))) s1
  storeNum (a + 0x3C) 4 f.seq s2

/-- A frame has been completed: AS_FRAME, STATUS and the causes (R415, R419). -/
def frameDone (k : Nat) (f : AsFrame) (s : State) : State :=
  let p := assayPage k
  let s1 := ((s.wr p 0x130 f.seq).wf p 0x12C 15 8 f.status).modAs k fun x => { x with last := some (f.seq, f.status, f.cfg) }
  if f.status = 0 then (s1.irq p 8).tally p 0x68 else s1.irq p 11

/-- A frame that met an error ends: STATUS, no features, all three flags with both jobs SKIPPED (R409). -/
def frameBad (k : Nat) (f : AsFrame) (s : State) : State :=
  let s1 := frameHeader f (2 ^ 9 + 2 ^ 11) [0, 0, 0, 0] [0, 0, 0, 0] s
  frameDone k f (setReady f.cfg f.seq 2 true (setReady f.cfg f.seq 1 true (setReady f.cfg f.seq 0 true s1)))

/-- A job is marked SKIPPED (R407, R411, R412): its header bit and its flag; `flow` names the flow engine. -/
def jobSkipped (flow : Bool) (j : AsJob) (s : State) : State :=
  let s1 := headerBit j.cfg j.seq (if flow then 11 else 9) s
  let s2 := setReady j.cfg j.seq (if flow then 2 else 1) true s1
  s2.irq (assayPage j.stream) (if flow then 10 else 9)

/-- An abandoned or unqueued job: SKIPPED, and counted (R411, R412). -/
def jobDropped (flow : Bool) (s : State) (j : AsJob) : State := (jobSkipped flow j s).tally (assayPage j.stream) 0x6B

/-- A job is queued, or SKIPPED when its queue is full (R411). -/
def queueJob (flow : Bool) (j : AsJob) (s : State) : State :=
  if 8 ≤ (if flow then s.mf.flowQ else s.mf.matchQ).length then jobDropped flow s j
  else if flow then { s with mf := { s.mf with flowQ := s.mf.flowQ ++ [j] } }
  else { s with mf := { s.mf with matchQ := s.mf.matchQ ++ [j] } }

/-- A job of a frame is queued when it is enabled; a disabled one sets its flag (R407, R410). -/
def offerJob (flow : Bool) (k : Nat) (f : AsFrame) (ref : Option (Nat × List Nat)) (s : State) : State :=
  if cfgBit f.cfg (if flow then 4 else 3) then
    queueJob flow { stream := k, seq := f.seq, cfg := f.cfg, hint := f.hint, valid := f.valid, refStream := k, ref := ref } s
  else setReady f.cfg f.seq (if flow then 2 else 1) true s

/-- The image of a frame as its rows stand. -/
def AsFrame.image (f : AsFrame) : Img := ⟨(cfgSize f.cfg).1, (cfgSize f.cfg).2, f.rows.flatten.toArray⟩

/-- The features of level `l` of a frame: kept, and how many were found. -/
def AsFrame.features (f : AsFrame) (m sc : Img) (l : Nat) : List (List Byte) × Nat :=
  let cs := corners sc (cfgWord f.cfg 0x114)
  ((keepCorners (cfgCap f.cfg) cs).map (featureRecord m sc l (cfgWord f.cfg 0x118)), cs.length)

/-- The bytes of a level image, 16 bits per pixel (R404). -/
def Img.bytes (m : Img) : List Byte := m.px.toList.flatMap (leBytes 2)

/-- The previous frame serves the flow engine as a reference: it completed with STATUS 0 (R403). -/
def flowRef (x : AssaySt) (f : AsFrame) : Option (Nat × List Nat) :=
  match x.last with
  | some l => if (l.1 + 1) % 2 ^ 32 = f.seq ∧ l.2.1 = 0 then some (l.1, f.cfg) else none
  | none => none

/-- The list of the previous frame, the matcher's reference unless it runs in stereo (R395); FRAME_SEQ counts modulo 2^32. -/
def matchRef (x : AssaySt) (f : AsFrame) : Option (Nat × List Nat) :=
  match x.last with
  | some l => if (l.1 + 1) % 2 ^ 32 = f.seq then some (l.1, f.cfg) else none
  | none => none

/-- The feature lists of an ended frame are written, then its header and FEAT, and its jobs are offered (R392, R404-R407, R410). -/
def featuresComplete (k : Nat) (s : State) : State :=
  match (s.as k).ended with
  | none => s
  | some f =>
    let a := bufAddr f.cfg f.seq
    let ls := (List.range 4).map fun l => let m := f.image.level l; f.features m m.scores l
    let cap := cfgCap f.cfg
    let s0 := s.modAs k fun x => { x with ended := none }
    let s1 := ((List.range 4).zip ls).foldl (fun t e => storeBytes 7 none (a + 64 + e.1 * cap * 64) e.2.1.flatten t) s0
    let s2 := if cfgBit f.cfg 4 then storeBytes 7 none (a + imageOff f.cfg) (f.image.level (cfgFlowLevel f.cfg)).bytes s1 else s1
    let ovf := ls.map fun e => e.2 - e.1.length
    let s3 := frameHeader f 0 (ls.map fun e => e.1.length) ovf s2
    let s4 := frameDone k f ((setReady f.cfg f.seq 0 true s3).tallyN (assayPage k) 0x69 (ovf.foldl (· + ·) 0))
    offerJob true k f (flowRef (s.as k) f) (offerJob false k f (matchRef (s.as k) f) s4)

/-- FEATURES_COMPLETE (R407). -/
def execFeaturesComplete (stream : Fin 4) (s : State) : Host.Outcome State Fault Refusal := .next (featuresComplete stream s)

/-- A job of frame k of a stream, or one that reads frame `r` of it, is abandoned when the stream starts a frame (R412). -/
def jobOverrun (k seq : Nat) (j : AsJob) : Bool :=
  (j.stream == k && (j.seq + 1) % 2 ^ 32 == seq) ||
    (j.refStream == k && j.stream != k && (match j.ref with
      | some r => (r.1 + 2) % 2 ^ 32 == seq
      | none => false))

/-- The jobs that a frame-start packet abandons (R412). -/
def abandonJobs (k seq : Nat) (s : State) : State :=
  let m := s.mf
  let hit := jobOverrun k seq
  let s1 : State := { s with mf := {
    matchQ := m.matchQ.filter fun j => !hit j, matchJob := m.matchJob.filter fun j => !hit j
    flowQ := m.flowQ.filter fun j => !hit j, flowJob := m.flowJob.filter fun j => !hit j } }
  let s2 := ((m.matchJob.toList ++ m.matchQ).filter hit).foldl (jobDropped false) s1
  ((m.flowJob.toList ++ m.flowQ).filter hit).foldl (jobDropped true) s2

/-- The pipeline accepts a frame (R394, R407, R412, R417). -/
def frameStart (k : Nat) (s : State) : State :=
  if !s.en (assayPage k) || s.quiet (assayPage k) || !s.pageOn (assayPage k) then s
  else
    let s1 := featuresComplete k s
    let n := (s1.as k).next
    let c := s1.asCfg k
    let s2 := abandonJobs k n s1
    let s3 := setReady c n 2 false (setReady c n 1 false (setReady c n 0 false s2))
    let f : AsFrame := { seq := n, sof := s.reading, cfg := c }
    (storeNum (bufAddr c n) 4 n s3).modAs k fun x => { x with next := (n + 1) % 2 ^ 32, frame := some f }

/-- The hint record of a frame, and whether it is valid: none that meets an uncorrectable error is (R264, R394). -/
def State.hintOf (s : State) (f : AsFrame) : List Byte × Bool :=
  let a := galBase + cfgWord f.cfg 0x124
  (s.ldBytes a 32, (s.ueIn a 32).isNone && hintOk (s.ldBytes a 32))

/-- A frame-end packet of a frame: its hint is latched and its CAMERA entry is written (R394, R413). -/
def frameEndPacket (k : Nat) (f : AsFrame) (s : State) : AsFrame × State :=
  let h := s.hintOf f
  ({ f with eof := s.reading, hint := h.1, valid := h.2 },
    recInput 0x03 k f.seq (shake256 (Config.lineBytes f.rows.flatten) 32) (readStrike [(galBase + cfgWord f.cfg 0x124, 32)] s))

/-- The frame of a pipeline ends with an error of its port (R409); one cut off has no frame-end packet. -/
def frameFailed (k : Nat) (packet : Bool) (s : State) : State :=
  match (s.as k).frame with
  | none => s
  | some f =>
    let e := if packet then frameEndPacket k f s else ({ f with eof := s.reading }, s)
    frameBad k { e.1 with status := if f.status = 0 then 1 else f.status } (e.2.modAs k fun x => { x with frame := none })

/-- A frame ends without an error of its port (R394, R413). -/
def frameEnded (k : Nat) (s : State) : State :=
  match (s.as k).frame with
  | none => s
  | some f =>
    if f.status ≠ 0 then frameFailed k true s
    else
      let e := frameEndPacket k f s
      e.2.modAs k fun x => { x with frame := none, ended := some e.1 }

/-! ### Camera ports (R491-R494, R503) -/

/-- A camera port. -/
def State.cam (s : State) (c : Nat) : CamSt := NMap.get {} s.cams c
/-- The state with a camera port changed. -/
def State.modCam (s : State) (c : Nat) (f : CamSt → CamSt) : State := { s with cams := NMap.put s.cams c (f (s.cam c)) }

/-- A camera port takes packets: it is enabled and its domain is on. -/
def State.camOn (s : State) (c : Nat) : Bool := s.en (camPage c) && s.pageOn (camPage c)

/-- A port reports an error of a frame (R493). -/
def camError (c code : Nat) (s : State) : State := (s.wf (camPage c) 0x104 15 8 code).modCam c fun x => { x with err := code }

/-- A frame of a port ends (R493): counted, with or without an error. -/
def camFrameOver (c : Nat) (s : State) : State :=
  let s1 := (s.incWrap (camPage c) 0x108).tally (camPage c) 0x5E
  let s2 := if (s.cam c).err = 0 then s1 else ((s1.incSat (camPage c) 0x110).tally (camPage c) 0x5F).irq (camPage c) 8
  s2.modCam c fun _ => {}

/-- A packet reaches a camera port (R493): a header with one wrong bit is corrected and counted, one with more is discarded, and
the open frame has an error. -/
def camPacket (c : Nat) (header : CsiHeader) (k : State → State) (s : State) : State :=
  if !s.camOn c then s
  else match header with
    | .good => k s
    | .corrected => k (s.incSat (camPage c) 0x10C)
    | .bad => if (s.cam c).inFrame then camError c 1 s else s

/-- A Frame Start packet (R407, R493). -/
def csiFrameStart (c : Nat) (s : State) : State :=
  let s1 := if (s.cam c).inFrame then camFrameOver c (frameFailed c false (camError c 5 s)) else s
  frameStart c (s1.modCam c fun _ => { inFrame := true })

/-- CSI_FRAME_START (R407). -/
def execCsiFrameStart (cam : Fin 4) (header : CsiHeader) (s : State) : Host.Outcome State Fault Refusal :=
  .next (camPacket cam header (csiFrameStart cam) s)

/-- Bits of a pixel of PIXFMT (R492). -/
def pixBits (fmt : Nat) : Nat := match fmt with
  | 0 => 8
  | 1 => 10
  | _ => 12

/-- A line enters the frame of a stream (R382, R409). -/
def pipelineLine (k : Nat) (finding : CsiFinding) (payload : List Byte) (s : State) : State :=
  match (s.as k).frame with
  | none => s
  | some f =>
    if f.status ≠ 0 then s
    else match finding with
      | .overrun => (s.modAs k fun x => { x with frame := some { f with status := 2 } }).tally (assayPage k) 0x6A
      | .memError => s.modAs k fun x => { x with frame := some { f with status := 3 } }
      | _ => s.modAs k fun x => { x with frame := some { f with
          rows := f.rows ++ [csiPixels (fld (cfgWord f.cfg 0x100) 1 0) (cfgSize f.cfg).1 payload] } }

/-- A long packet of the selected data type (R492, R493). -/
def csiLine (c : Nat) (finding : CsiFinding) (payload : List Byte) (s : State) : State :=
  if !(s.cam c).inFrame then s
  else
    let g := s.asCfg c
    let b := pixBits (fld (cfgWord g 0x100) 1 0)
    let s1 := if finding = .crcBad then camError c 2 s
      else if payload.length * 8 ≠ (cfgSize g).1 * b then camError c 3 s else s
    pipelineLine c finding payload (s1.modCam c fun x => { x with lines := x.lines + 1 })

/-- What the port finds of the header of a line's packet. -/
def lineHeader (f : CsiFinding) : CsiHeader :=
  match f with
  | .corrected => .corrected
  | .headerBad => .bad
  | _ => .good

/-- CSI_LINE (R492). -/
def execCsiLine (cam : Fin 4) (finding : CsiFinding) (payload : List Byte) (s : State) : Host.Outcome State Fault Refusal :=
  .next (camPacket cam (lineHeader finding) (csiLine cam finding payload) s)

/-- Data types that a port does not drop (R492): Frame Start and End, Line Start and End, and the type of PIXFMT, RAW8, RAW10 or RAW12
(log entry 43). -/
def State.camTakes (s : State) (c dt : Nat) : Bool := decide (dt < 4) || dt == 0x2A + fld (cfgWord (s.asCfg c) 0x100) 1 0

/-- CSI_DT_DROPPED (R492). -/
def execCsiDtDropped (cam : Fin 4) (packet : CsiPacket) (s : State) : Host.Outcome State Fault Refusal :=
  .next (camPacket cam packet.header (fun t => if t.camTakes cam packet.dt then t else t.tally (camPage cam) 0x60) s)

/-- A Frame End packet (R394, R409, R493). -/
def csiFrameEnd (c : Nat) (s : State) : State :=
  if !(s.cam c).inFrame then s
  else
    let s1 := if (s.cam c).lines = (cfgSize (s.asCfg c)).2 then s else camError c 4 s
    let s2 := if (s1.cam c).err = 0 then frameEnded c s1 else frameFailed c true s1
    camFrameOver c s2

/-- CSI_FRAME_END (R394). -/
def execCsiFrameEnd (cam : Fin 4) (header : CsiHeader) (s : State) : Host.Outcome State Fault Refusal :=
  .next (camPacket cam header (csiFrameEnd cam) s)

/-- What refuses the enable of a camera port (R503). -/
def camRefuse (c : Nat) (s : State) : Nat :=
  let v := s.rd (camPage c) 0x100
  if fld v 1 0 = 3 ∨ fld v 27 16 < 80 ∨ 2500 < fld v 27 16 then 0xE003 else 0

/-- A write of CTRL of a camera port (R503); a port that is disabled leaves its frame. -/
def actCamCtrl (id c v : Nat) (s : State) : State :=
  ctrlWrite id (camPage c) v (camRefuse c) (fun t => t) (fun t => (t.modCam c fun _ => {}).modAs c fun x => { x with frame := none }) s

/-- CAM_ENABLE (R503). -/
def execCamEnable (id : Ident) (cam : Fin 4) (s : State) : Host.Outcome State Fault Refusal :=
  .next (guardW id (camPage cam) 0x008 s fun t => actCamCtrl id cam (t.ctrlWith (camPage cam) true) t)

/-! ### Enabling a stream (R417) -/

/-- What refuses the enable of a stream pipeline (R417). -/
def assayRefuse (k : Nat) (s : State) : Nat :=
  let c := s.asCfg k
  let z := cfgLevel c (cfgFlowLevel c)
  let f := cfgWord c 0x110
  if (cfgBit c 5 ∧ fld (cfgWord c 0x100) 7 6 = k) ∨ (cfgBit c 4 ∧ (z.1 < 8 ∨ z.2 < 8)) ∨
      galSize < cfgWord c 0x108 + 2 * bufSize c ∨ 4095 < fld f 11 0 + 5 ∨ 4095 < fld f 27 16 + 1 then 0xB001 else 0

/-- A stream pipeline is enabled: FRAME_SEQ starts at 0, no frame precedes it (R403, R404, R406). -/
def assayOn (k : Nat) (s : State) : State := (s.wr (assayPage k) 0x128 (bufSize (s.asCfg k))).modAs k fun _ => {}

/-- EN of a stream falls: its frame is abandoned and its queued jobs are SKIPPED (R417). -/
def assayOff (k : Nat) (s : State) : State :=
  let m := s.mf
  let mine (j : AsJob) : Bool := j.stream == k
  let s1 : State := { s with mf := { m with matchQ := m.matchQ.filter fun j => !mine j, flowQ := m.flowQ.filter fun j => !mine j } }
  let s2 := (m.matchQ.filter mine).foldl (fun t j => jobSkipped false j t) s1
  let s3 := (m.flowQ.filter mine).foldl (fun t j => jobSkipped true j t) s2
  s3.modAs k fun x => { x with frame := none, ended := none }

/-- A write of CTRL of a stream pipeline (R417). -/
def actAssayCtrl (id k v : Nat) (s : State) : State := ctrlWrite id (assayPage k) v (assayRefuse k) (assayOn k) (assayOff k) s

/-- ASSAY_ENABLE (R417). -/
def execAssayEnable (id : Ident) (stream : Fin 4) (s : State) : Host.Outcome State Fault Refusal :=
  .next (guardW id (assayPage stream) 0x008 s fun t => actAssayCtrl id stream (t.ctrlWith (assayPage stream) true) t)
/-- ASSAY_DISABLE (R417). -/
def execAssayDisable (id : Ident) (stream : Fin 4) (s : State) : Host.Outcome State Fault Refusal :=
  .next (guardW id (assayPage stream) 0x008 s fun t => actAssayCtrl id stream (t.ctrlWith (assayPage stream) false) t)

/-! ### Jobs of the shared unit (R395-R403, R410, R411) -/

/-- The head job may start: its START flag reads 1 with GRAPH (R410). -/
def jobReady (s : State) (j : AsJob) (n : Nat) : Bool :=
  s.pageOn sharedPage && !s.quiet sharedPage && (!cfgBit j.cfg 2 || s.gflag (startFlag j.cfg n).1 (startFlag j.cfg n).2)

/-- The START flag of a job that starts is cleared (R410). -/
def clearStart (j : AsJob) (n : Nat) (s : State) : State :=
  if cfgBit j.cfg 2 then s.setG (startFlag j.cfg n).1 (startFlag j.cfg n).2 false else s

/-- The reference list of a matcher job: the stream's previous frame, or the last completed list of the pair stream (R395). -/
def State.refList (s : State) (j : AsJob) : Nat × Option (Nat × List Nat) :=
  if cfgBit j.cfg 5 then
    let p := fld (cfgWord j.cfg 0x100) 7 6
    (p, (s.as p).last.map fun e => (e.1, e.2.2))
  else (j.stream, j.ref)

/-- A matcher job starts (R395, R410). -/
def matchStart (s : State) : State :=
  match s.mf.matchJob, s.mf.matchQ with
  | none, j :: q =>
    if !jobReady s j 0 then s
    else
      let r := s.refList j
      clearStart j 0 { s with mf := { s.mf with matchQ := q, matchJob := some { j with refStream := r.1, ref := r.2 } } }
  | _, _ => s

/-- MATCH_JOB_START (R410). -/
def execMatchJobStart (s : State) : Host.Outcome State Fault Refusal := .next (matchStart s)

/-- The features of level `l` of a frame's buffer, with their indices (R404, R406). -/
def State.featList (s : State) (c : List Nat) (seq l : Nat) : List (Nat × Feat) :=
  let a := bufAddr c seq
  let n := s.ld (a + 0x18 + 2 * l) 2
  (List.range (min n (cfgCap c))).map fun i => (i, Feat.ofBytes (s.ldBytes (a + 64 + (l * cfgCap c + i) * 64) 64))

/-- The ranges that a matcher job reads of a level of a frame's buffer: its count and its features (R406). -/
def State.featRanges (s : State) (c : List Nat) (seq l : Nat) : List (Nat × Nat) :=
  let a := bufAddr c seq
  [(a + 0x18 + 2 * l, 2), (a + 64 + l * cfgCap c * 64, 64 * min (s.ld (a + 0x18 + 2 * l) 2) (cfgCap c))]

/-- The ranges that a matcher job reads at a level: its own features and those of its reference. -/
def State.matchRanges (s : State) (j : AsJob) (l : Nat) : List (Nat × Nat) :=
  s.featRanges j.cfg j.seq l ++ (j.ref.map fun r => s.featRanges r.2 r.1 l).getD []

/-- The match records of level `l` of a job (R395-R397). -/
def State.matchLevel (s : State) (j : AsJob) (l : Nat) : List (Nat × List Byte) :=
  let qs := s.featList j.cfg j.seq l
  let cs := (j.ref.map fun r => s.featList r.2 r.1 l).getD []
  let m : MatchSet := ⟨hintRadius j.hint j.valid (cfgWord j.cfg 0x120), fld (cfgWord j.cfg 0x11C) 8 0, fld (cfgWord j.cfg 0x11C) 23 16, cfgBit j.cfg 10⟩
  qs.map (matchOne m (predict j.hint j.valid) qs cs l)

/-- A matcher job ends (R397, R406, R407, R418). The records of a level that depend on a word in error are not written (R264). REF_SEQ is a free value where there is no reference list (log entry 34). -/
def matchDone (s : State) : State :=
  match s.mf.matchJob with
  | none => s
  | some j =>
    let a := bufAddr j.cfg j.seq
    let rs := (List.range 4).map fun l => if (s.matchRanges j l).any fun r => (s.ueIn r.1 r.2).isSome then [] else s.matchLevel j l
    let s1 := ((List.range 4).zip rs).foldl (fun t e => storeBytes 7 none (a + matchOff j.cfg + e.1 * cfgCap j.cfg * 16) (e.2.flatMap (·.2)) t)
      (readStrike ((List.range 4).flatMap (s.matchRanges j)) s)
    let bad := ((rs.map fun l => (l.filter fun e => e.1 != 0).length).foldl (· + ·) 0)
    let r := match j.ref with
      | some r => (r.1, s1)
      | none => s1.draw 32
    let s2 := setReady j.cfg j.seq 1 true (headerBit j.cfg j.seq 8 (storeNum (a + 0x2C) 4 r.1 r.2))
    let s3 := ((s2.tallyN (assayPage j.stream) 0x6C bad).irq (assayPage j.stream) 9).wf sharedPage 0x104 15 0 (s2.rf sharedPage 0x104 15 0 + 1)
    { s3 with mf := { s3.mf with matchJob := none } }

/-- MATCH_JOB_DONE (R398). -/
def execMatchJobDone (s : State) : Host.Outcome State Fault Refusal := .next (matchDone s)

/-- A flow job starts (R410). -/
def flowStart (s : State) : State :=
  match s.mf.flowJob, s.mf.flowQ with
  | none, j :: q =>
    if !jobReady s j 1 then s
    else
      clearStart j 1 { s with mf := { s.mf with flowQ := q, flowJob := some j } }
  | _, _ => s

/-- FLOW_JOB_START (R410). -/
def execFlowJobStart (s : State) : Host.Outcome State Fault Refusal := .next (flowStart s)

/-- The level image of a frame's buffer. -/
def State.levelImage (s : State) (c : List Nat) (seq : Nat) : Img :=
  let z := cfgLevel c (cfgFlowLevel c)
  let a := bufAddr c seq + imageOff c
  Img.build z.1 z.2 fun x y => s.ld (a + 2 * (y * z.1 + x)) 2

/-- The flow records of a job, in raster order of blocks (R399-R402). -/
def State.flowRecords (s : State) (j : AsJob) (ref : Nat) : List (List Byte) :=
  let cur := s.levelImage j.cfg j.seq
  let prev := s.levelImage j.cfg ref
  let f : FlowSet := ⟨cfgFlowLevel j.cfg, hintRadius j.hint j.valid (cfgWord j.cfg 0x120), cfgWord j.cfg 0x118, cfgBit j.cfg 10⟩
  let b := cfgBlocks j.cfg
  (List.range b.2).flatMap fun y => (List.range b.1).map fun x => flowOne f (predict j.hint j.valid) cur prev x y

/-- The level images that a flow job reads: its frame's and the previous one's (R401). -/
def State.flowRanges (_s : State) (j : AsJob) (ref : Nat) : List (Nat × Nat) :=
  let z := cfgLevel j.cfg (cfgFlowLevel j.cfg)
  [j.seq, ref].map fun q => (bufAddr j.cfg q + imageOff j.cfg, 2 * z.1 * z.2)

/-- A flow job ends (R402, R403, R407, R418). Records that depend on a word in error are not written (R264). -/
def flowDone (s : State) : State :=
  match s.mf.flowJob with
  | none => s
  | some j =>
    let rd := (j.ref.map fun r => s.flowRanges j r.1).getD []
    let rs := if rd.any fun r => (s.ueIn r.1 r.2).isSome then [] else (j.ref.map fun r => s.flowRecords j r.1).getD []
    let s1 := storeBytes 7 none (bufAddr j.cfg j.seq + flowOff j.cfg) rs.flatten (readStrike rd s)
    let s2 := setReady j.cfg j.seq 2 true (headerBit j.cfg j.seq (if j.ref.isSome then 10 else 12) s1)
    let bad := (rs.filter fun r => leAt r 9 1 != 0).length
    let s3 := ((s2.tallyN (assayPage j.stream) 0x6C bad).irq (assayPage j.stream) 10).wf sharedPage 0x104 31 16 (s2.rf sharedPage 0x104 31 16 + 1)
    { s3 with mf := { s3.mf with flowJob := none } }

/-- FLOW_JOB_DONE (R403). -/
def execFlowJobDone (s : State) : Host.Outcome State Fault Refusal := .next (flowDone s)

/-- AS_STAT (R415): ACTIVE, BUF, and STATUS of the last frame. -/
def State.asStat (s : State) (k : Nat) : Nat :=
  let x := s.as k
  let f := x.frame.orElse fun _ => x.ended
  let buf := match f with
    | some g => g.seq % 2
    | none => ((x.last.map (·.1)).getD 0) % 2
  b2n f.isSome + 2 * buf + s.rf (assayPage k) 0x12C 15 8 * 256

/-- MF_STAT (R418). -/
def State.mfStat (s : State) : Nat :=
  s.mf.matchQ.length + 16 * b2n s.mf.matchJob.isSome + 256 * s.mf.flowQ.length + 4096 * b2n s.mf.flowJob.isSome

end Sys2Proof.Machine
end

