-- ==== Sys2Proof/Machine/Warp.lean ====
section
/-! DEFINITION. The arithmetic of the fallback warp (R464, R465, R672, R673) and of composition and output encoding
(R456-R458). -/
namespace Sys2Proof.Machine

/-! ### Warp -/

/-- A pose as it enters the warp, every field in binary32 (R79, R673). -/
structure WarpPose where
  q : List Nat
  pos : List Nat
  f : List Nat
  c : List Nat
  near : Nat

/-- A pose record in binary32 (R673). -/
def WarpPose.of (b : List Byte) : WarpPose :=
  let s (o k : Nat) : Nat := f32OfFix (sext 32 (leAt b o 4)) k
  let u (o k : Nat) : Nat := f32OfFix (leAt b o 4 : Nat) k
  ⟨[s 0x1C 30, s 0x20 30, s 0x24 30, s 0x28 30], [s 0x10 16, s 0x14 16, s 0x18 16], [u 0x2C 16, u 0x30 16], [s 0x34 16, s 0x38 16],
    u 0x3C 24⟩

/-- Entry of R(q), each in the order of R673. -/
def WarpPose.rot (p : WarpPose) : List (List Nat) :=
  let w := nth 0 p.q 0
  let x := nth 0 p.q 1
  let y := nth 0 p.q 2
  let z := nth 0 p.q 3
  let two := 0x40000000
  let one := 0x3F800000
  let diag (a b : Nat) : Nat := f32Sub one (f32Mul two (f32Add (f32Mul a a) (f32Mul b b)))
  let plus (a b c d : Nat) : Nat := f32Mul two (f32Add (f32Mul a b) (f32Mul c d))
  let minus (a b c d : Nat) : Nat := f32Mul two (f32Sub (f32Mul a b) (f32Mul c d))
  [[diag y z, minus x y w z, plus x z w y], [plus x y w z, diag x z, minus y z w x], [minus x z w y, plus y z w x, diag x y]]

/-- A matrix times a vector (R673). -/
def matVec (m : List (List Nat)) (v : List Nat) : List Nat :=
  m.map fun r => f32Add (f32Add (f32Mul (nth 0 r 0) (nth 0 v 0)) (f32Mul (nth 0 r 1) (nth 0 v 1))) (f32Mul (nth 0 r 2) (nth 0 v 2))

/-- The transpose of a 3×3 matrix. -/
def transpose3 (m : List (List Nat)) : List (List Nat) := (List.range 3).map fun j => m.map fun r => nth 0 r j

/-- A finite value floored, reduced by an origin with saturation at 32 bits; none for a NaN or an infinity (R672). -/
def warpFloor (a origin : Nat) : Option Int :=
  match Fl.ofBits a with
  | .fin s m e => let k := clampI (-(2 ^ 31)) (2 ^ 31 - 1) (finFloor s m e); some (clampI (-(2 ^ 31)) (2 ^ 31 - 1) (k - origin))
  | _ => none

/-- The geometry of a warp: canvas origin, region width, and the rows that may be read (R465). -/
structure WarpGeo where
  x0 : Nat
  y0 : Nat
  w : Nat
  /-- first and last row of the band -/
  lo : Nat
  hi : Nat
  /-- a row outside the band may be read -/
  rowOk : Int → Bool

/-- limit (R465). -/
def WarpGeo.limit (g : WarpGeo) (u v : Int) : Nat × Nat :=
  let v' := if (g.lo : Int) ≤ v ∧ v ≤ g.hi then v else if g.rowOk v then v else if v < g.lo then (g.lo : Int) else g.hi
  ((clampI 0 ((g.w : Int) - 1) u).toNat, v'.toNat)

/-- One iteration of the warp for destination pixel (x, y) from the depth word at (u, v) (R464). -/
def warpStep (g : WarpGeo) (d s : WarpPose) (c x y : Nat) : Nat × Nat :=
  let coord (o v k : Nat) : Nat := f32Div (f32Sub (f32Add (f32OfInt ((o + v : Nat) : Int)) 0x3F000000) (nth 0 d.c k)) (nth 0 d.f k)
  let r := [coord g.x0 x 0, coord g.y0 y 1, 0x3F800000]
  let back := transpose3 s.rot
  let p := if c = 0 then matVec back (matVec d.rot r)
    else
      let z := f32Div (f32Mul s.near (f32OfInt 16777215)) (f32OfInt ((256 * c + 128 : Nat) : Int))
      let t := matVec d.rot (r.map fun e => f32Mul e z)
      matVec back ((List.range 3).map fun i => f32Sub (f32Add (nth 0 t i) (nth 0 d.pos i)) (nth 0 s.pos i))
  let pz := nth 0 p 2
  if !f32Lt 0 pz then (x, y)
  else
    let proj (k : Nat) : Nat := f32Add (f32Div (f32Mul (nth 0 s.f k) (nth 0 p k)) pz) (nth 0 s.c k)
    match warpFloor (proj 0) g.x0, warpFloor (proj 1) g.y0 with
    | some u, some v => g.limit u v
    | _, _ => (x, y)

/-! ### Composition (R456, R457) -/

/-- A pixel of composition: three 12-bit components. -/
abbrev Pix := List Nat

/-- A C30 word expanded to 12 bits. -/
def pixC30 (v : Nat) : Pix := [fld v 9 0, fld v 19 10, fld v 29 20].map fun c => c * 4 + c / 256
/-- An RGBA8 word expanded to 12 bits. -/
def pixRgba (v : Nat) : Pix := [fld v 7 0, fld v 15 8, fld v 23 16].map fun c => c * 16 + c / 16

/-- A pixel of a test pattern (R456): pattern, place in the rectangle, its width, and LAYER_CLRVAL. -/
def patternPix (pat x y w clr : Nat) : Pix := match pat with
  | 1 => pixC30 clr
  | 2 =>
    let on (b : Bool) : Nat := if b then 3071 else 0
    let k := 8 * x / w
    [on (k == 0 || k == 1 || k == 4 || k == 5), on (decide (k < 4)), on (k == 0 || k == 2 || k == 4 || k == 6)]
  | 3 => let v := if w = 1 then 0 else 4095 * x / (w - 1); [v, v, v]
  | _ => let v := if x % 32 = 0 ∨ y % 32 = 0 then 4095 else 0; [v, v, v]

/-- The effective alpha of a pixel: its own alpha p under the layer's g (R457). -/
def effAlpha (g p : Nat) : Nat := (p * g + 127) / 255

/-- A layer's pixel of effective alpha `a` over what lies below it (R457). -/
def blend (a : Nat) (s d : Pix) : Pix :=
  (List.range 3).map fun i => (a * nth 0 s i + (255 - a) * nth 0 d i + 127) / 255

/-! ### Output (R458) -/

/-- An output encoding: ENC, bits per component, NARROW, MATRIX, SPACE. -/
structure Encoding where
  enc : Nat
  bits : Nat
  narrow : Bool
  matrix : Nat
  space : Nat

/-- A coefficient rounded to 2^-16: numerator over denominator, ties away from zero. -/
def coef16 (n : Int) (d : Nat) : Int :=
  let q := (2 * n.natAbs * 65536 + d) / (2 * d)
  if n < 0 then -(q : Int) else q

/-- The luma weights of R and B in 1/10,000: BT.709, or BT.2020 non-constant luminance (log entry 35). -/
def lumaW (matrix : Nat) : Int × Int := if matrix = 0 then (2126, 722) else (2627, 593)

/-- RGB to narrow-range YCbCr with coefficients at 2^-16 and one final rounding (R458; log entry 35). -/
def toYcc (matrix : Nat) (v : Pix) : Pix :=
  let kr := (lumaW matrix).1
  let kb := (lumaW matrix).2
  let kg := 10000 - kr - kb
  let dot (a b c : Int) (o : Int) : Nat :=
    ((2 * (o * 65536 + a * nth 0 v 0 + b * nth 0 v 1 + c * nth 0 v 2) + 65536) / 131072).toNat
  let y (k : Int) : Int := coef16 (k * 3504) (10000 * 4095)
  -- chroma: 3,584 / 4,095 × (component − luma) / (2 (1 − weight))
  let ch (k : Int) (w : Int) : Int := coef16 (k * 3584) ((2 * (10000 - w)).toNat * 4095)
  [dot (y kr) (y kg) (y kb) 256, dot (ch (-kr) kb) (ch (-kg) kb) (ch (10000 - kb) kb) 2048,
    dot (ch (10000 - kr) kr) (ch (-kg) kr) (ch (-kb) kr) 2048]

/-- Step 1 of R458. -/
def encodeSpace (e : Encoding) (v : Pix) : Pix :=
  if e.space = 1 then v
  else if e.enc ≠ 0 then toYcc e.matrix v
  else if e.narrow then v.map fun c => 256 + (2 * c * 3504 + 4095) / 8190
  else v

/-- Step 3 of R458. -/
def encodeBits (n v : Nat) : Nat := if n = 12 then v else min (2 ^ n - 1) ((v + 2 ^ (11 - n)) / 2 ^ (12 - n))

/-- Step 2 of R458: in 4:2:2 an even pixel carries luma and the filtered chroma, an odd one luma alone. -/
def subsample (vs : List Pix) (x : Nat) : Pix :=
  let n := vs.length
  let p (i : Nat) : Pix := nth [0, 0, 0] vs i
  if x % 2 = 1 then [nth 0 (p x) 0]
  else
    let l := p (if x = 0 then 0 else x - 1)
    let r := p (min (n - 1) (x + 1))
    nth 0 (p x) 0 :: [1, 2].map fun i => (nth 0 l i + 2 * nth 0 (p x) i + nth 0 r i + 2) / 4

/-- A line of composed pixels as the head sends it (R458). -/
def encodeLine (e : Encoding) (vs : List Pix) : List Pix :=
  let c := vs.map (encodeSpace e)
  let t := if e.enc = 2 then (List.range c.length).map (subsample c) else c
  t.map fun p => p.map (encodeBits e.bits)

/-- Black of an output encoding, before step 2 of R458 (R466). -/
def blackPix (e : Encoding) : Pix := if e.enc ≠ 0 then [256, 2048, 2048] else if e.narrow then [256, 256, 256] else [0, 0, 0]

/-- A line of black (R466). -/
def blackLine (e : Encoding) (w : Nat) : List Pix :=
  let c := List.replicate w (blackPix e)
  let t := if e.enc = 2 then (List.range w).map (subsample c) else c
  t.map fun p => p.map (encodeBits e.bits)

end Sys2Proof.Machine
end

