-- ==== Sys2Proof/Machine/Head.lean ====
section
/-! DEFINITION. The heads (R444-R474): link training, frame and line timing, layers, underrun, composition and output, the
fallback warp, mute and Panel Replay, and the FRAME_SUM entry (R366). -/
namespace Sys2Proof.Machine

/-- HEAD_STAT bits. -/
def State.headBit (s : State) (h b : Nat) : Bool := s.rb (headPage h) 0x108 b

/-! ### Links (R445, R446) -/

/-- The link configurations in ascending capacity, ties to the lower rate: capacity in Mbit/s, rate, lanes (R445). -/
def linkConfigs : List (Nat × Nat × Nat) :=
  [(6480, 0, 0), (9697, 1, 0), (12960, 0, 1), (13091, 2, 0), (19394, 1, 1), (19394, 3, 0), (25920, 0, 2), (26182, 2, 1),
    (38788, 1, 2), (38788, 3, 1), (52364, 2, 2), (77576, 3, 2)]

/-- Bits per component of BPC. -/
def State.headBpc (s : State) (h : Nat) : Nat := 8 + 2 * s.rf (headPage h) 0x100 9 8
/-- ENC of a head. -/
def State.headEnc (s : State) (h : Nat) : Nat := s.rf (headPage h) 0x100 7 6

/-- A configuration carries the mode of a head within MAX_RATE and MAX_LANES (R445). -/
def State.linkFits (s : State) (h : Nat) (c : Nat × Nat × Nat) : Bool :=
  let bpp := (if s.headEnc h = 2 then 2 else 3) * s.headBpc h
  let frac := s.headFrac h
  decide (103 * (s.headMode h).clk * bpp * (if frac then 1000 else 1) ≤ 100 * c.1 * 10000 * (if frac then 1001 else 1)) &&
    decide (c.2.1 ≤ s.rf (headPage h) 0x100 19 18) && decide (c.2.2 ≤ s.rf (headPage h) 0x100 17 16)

/-- The sink of a head supports a configuration. -/
def sinkTakes (sink : Nat) (c : Nat × Nat × Nat) : Bool := bit sink c.2.1 && bit sink (4 + c.2.2)

/-- The first configuration from place `i` on that can be trained. -/
def State.nextLink (s : State) (h i : Nat) : Option Nat :=
  (List.range linkConfigs.length).find? fun k =>
    decide (i ≤ k) && s.linkFits h (nth (0, 0, 0) linkConfigs k) && sinkTakes (s.head h).sink (nth (0, 0, 0) linkConfigs k)

/-- Training goes on with the next configuration, or the head records LINK_FAIL (R445). -/
def trainFrom (h i : Nat) (s : State) : State :=
  match s.nextLink h i with
  | some k => s.modHead h fun x => { x with training := some k }
  | none => (s.modHead h fun x => { x with training := none }).fault { page := headPage h, code := 0xD002 }

/-- HPD rises: the capabilities of the sink are read and training begins (R445). -/
def hpdRise (h caps : Nat) (s : State) : State :=
  if !s.pageOn (headPage h) then s
  else
    let s1 := (s.modHead h fun x => { x with sink := caps }).wb (headPage h) 0x108 0 true
    trainFrom h 0 ((s1.wb (headPage h) 0x108 1 false).wb (headPage h) 0x108 6 (bit caps 8))

/-- HPD_RISE (R445). -/
def execHpdRise (head : Fin 4) (caps : Nat) (s : State) : Host.Outcome State Fault Refusal := .next (hpdRise head caps s)

/-- HOLD_REQ, when the link is up again after a loss during hold: the head enters hold again by R467, or refuses it (R468). -/
def holdAgain (h : Nat) (s : State) : State :=
  if !s.rb (headPage h) 0x104 0 || (s.head h).hold != 0 then s
  else if s.en (headPage h) && s.headBit h 6 then s.modHead h fun x => { x with hold := 1, wake := none }
  else (s.wb (headPage h) 0x104 0 false).fault { page := headPage h, code := 0xD003 }

/-- A training ends (R445): outcome 0 is a trained link. -/
def linkTrainingDone (h outcome : Nat) (s : State) : State :=
  match (s.head h).training with
  | none => s
  | some k =>
    if outcome ≠ 0 then trainFrom h (k + 1) s
    else
      let c := nth (0, 0, 0) linkConfigs k
      let s1 := ((s.wb (headPage h) 0x108 1 true).wf (headPage h) 0x108 3 2 c.2.2).wf (headPage h) 0x108 5 4 c.2.1
      holdAgain h (s1.modHead h fun x => { x with training := none })

/-- LINK_TRAINING_DONE (R445). -/
def execLinkTrainingDone (head : Fin 4) (outcome : Nat) (s : State) : Host.Outcome State Fault Refusal :=
  .next (linkTrainingDone head outcome s)

/-- A link trains again (R446). -/
def retrainHead (h : Nat) (s : State) : State :=
  trainFrom h 0 (((s.wb (headPage h) 0x108 1 false).tally (headPage h) 0x52).irq (headPage h) 9 |>.sumAdd 4 1)

/-- A link is lost (R446, R468). -/
def linkLoss (h : Nat) (s : State) : State :=
  if !s.headBit h 1 then s
  else
    let s1 := (s.incWrap (headPage h) 0x12C).wb (headPage h) 0x108 7 false
    retrainHead h (s1.modHead h fun x => { x with hold := if x.hold = 3 then 0 else x.hold, wake := none })

/-- LINK_LOSS (R446). -/
def execLinkLoss (head : Fin 4) (s : State) : Host.Outcome State Fault Refusal := .next (linkLoss head s)

/-! ### Enabling (R472) -/

/-- What refuses the enable of a head (R472). -/
def headRefuse (h : Nat) (s : State) : Nat :=
  let m := s.headMode h
  if (s.headFrac h ∧ !m.frac) ∨ (s.headEnc h ≠ 2 ∧ m.bpc < s.headBpc h) ∨ (s.rb (headPage h) 0x100 12 ∧ s.headEnc h = 0) ∨
      !(linkConfigs.any fun c => s.linkFits h c) then 0xD001 else 0

/-- An enabled head waits for the first frame start after the write (R472). -/
def headOn (h : Nat) (s : State) : State :=
  let f := s.frameAfter h 1
  s.modHead h fun x => { sink := x.sink, training := x.training, timing := 1, frame := f % 2 ^ 32 }

/-- A head is switched off: its timing ends, and with it a hold. -/
def headOff (h : Nat) (s : State) : State :=
  (s.modHead h fun x => { sink := x.sink, training := x.training }).wr (headPage h) 0x108 (s.rd (headPage h) 0x108 % 2 ^ 7)

/-- A write of CTRL of a head (R472). -/
def actHeadEn (id h v : Nat) (s : State) : State :=
  let used := (List.range 4).any fun g => s.hgEn g && (s.hgHeads g).contains h
  if s.en (headPage h) && !bit v 0 && used then s else ctrlWrite id (headPage h) v (headRefuse h) (headOn h) (headOff h) s

/-- HEAD_ENABLE (R472). -/
def execHeadEnable (id : Ident) (head : Fin 4) (s : State) : Host.Outcome State Fault Refusal :=
  .next (guardW id (headPage head) 0x008 s fun t => actHeadEn id head (t.ctrlWith (headPage head) true) t)

/-! ### Layers (R453-R457) -/

/-- The head's timing runs. -/
def State.headRuns (s : State) (h : Nat) : Bool := decide (2 ≤ (s.head h).timing) && s.pageOn (headPage h)

/-- A word of the latched block of layer `k`; before any latch the registers' reset values (R470). -/
def layerWord (h : HeadSt) (k off : Nat) : Nat := if h.layers = [] then (if off = 0 then 0xFF00 else 0) else nth 0 h.layers ((0x40 * k + off) / 4)
/-- A 64-bit word of a layer's latched block. -/
def layerAddr (h : HeadSt) (k off : Nat) : Nat := layerWord h k off + 2 ^ 32 * layerWord h k (off + 4)
/-- GALPHA of a layer. -/
def layerAlpha (h : HeadSt) (k : Nat) : Nat := fld (layerWord h k 0) 15 8
/-- A layer of L1-L3 is enabled. -/
def layerOn (h : HeadSt) (k : Nat) : Bool :=
  bit (layerWord h k 0) 0 && fld (layerWord h k 8) 15 0 != 0 && fld (layerWord h k 8) 31 16 != 0

/-- Where pixel (x, y) of the active area lies in a layer's rectangle, if it does (R453). -/
def inLayer (h : HeadSt) (k x y : Nat) : Option (Nat × Nat) :=
  let p := layerWord h k 4
  let z := layerWord h k 8
  let px := fld p 15 0
  let py := fld p 31 16
  if layerOn h k ∧ px ≤ x ∧ x < px + fld z 15 0 ∧ py ≤ y ∧ y < py + fld z 31 16 then some (x - px, y - py) else none

/-- The clear-flag bit of a surface pixel: its byte address and bit (R432, R455). -/
def clearAt (h : HeadSt) (k sx sy : Nat) : Nat × Nat :=
  let t := sy / 32 * fld (layerWord h k 0x30) 15 0 + sx / 32
  (layerAddr h k 0x28 + t / 8, t % 8)

/-- The bytes that a surface pixel of L1-L3 needs (R455, R460): address and count. -/
def surfaceReads (s : State) (h : HeadSt) (k sx sy : Nat) : List (Nat × Nat) :=
  let c := layerWord h k 0
  let clr := clearAt h k sx sy
  let cleared := bit c 3 && bit (s.ld clr.1 1) clr.2
  if k = 3 ∧ fld c 7 5 ≠ 0 then []
  else (if bit c 3 then [(clr.1, 1)] else []) ++
    (if cleared then [] else [(layerAddr h k 0x10 + sy * layerWord h k 0x0C + 4 * sx, 4)]) ++
    (if bit c 4 then [(layerAddr h k 0x18 + sy * layerWord h k 0x20 + sx, 1)] else [])

/-- The alpha and the colour of a pixel of L1-L3 (R455-R457). -/
def surfacePix (s : State) (h : HeadSt) (k sx sy : Nat) : Nat × Pix :=
  let c := layerWord h k 0
  if k = 3 ∧ fld c 7 5 ≠ 0 then (255, patternPix (fld c 7 5) sx sy (fld (layerWord h k 8) 15 0) (layerWord h k 0x24))
  else
    let clr := clearAt h k sx sy
    let v := if bit c 3 && bit (s.ld clr.1 1) clr.2 then layerWord h k 0x24
      else s.ld (layerAddr h k 0x10 + sy * layerWord h k 0x0C + 4 * sx) 4
    let rgba := fld c 2 1 = 1
    let a := if bit c 4 then s.ld (layerAddr h k 0x18 + sy * layerWord h k 0x20 + sx) 1 else if rgba then fld v 31 24 else 255
    (a, if rgba then pixRgba v else pixC30 v)

/-! ### L0 (R454, R464, R465) -/

/-- Address of the colour word of a region pixel of a frame (R454). -/
def State.colourAt (s : State) (g F u y : Nat) : Nat := s.hgBuf g F + 4 * (y * s.hgW g + u)
/-- Address of the depth companion of a region pixel of a frame (R454). -/
def State.depthAt (s : State) (g F u y : Nat) : Nat := s.hgBuf g F + 4 * s.hgW g * s.hgA g + 2 * (y * s.hgW g + u)

/-- A row outside band `b` may be read from frame `f` (R85, R465). -/
def State.warpRow (s : State) (g f b : Nat) (v : Int) : Bool :=
  let l := s.bandLines g b
  let m := s.rf cagePage (hgOff g + 4) 29 24
  decide ((l.1 : Int) - m ≤ v) && decide (v < l.1 + l.2 + m) && decide (0 ≤ v) && decide (v < s.hgA g) && s.sourceOk g f (v.toNat / s.hgH g)

/-- Where a warped pixel of band `b` of frame `F` takes its colour in frame `f`, and the depth words read on the way (R464). -/
def State.warpTo (s : State) (g F f b x y : Nat) : (Nat × Nat) × List (Nat × Nat) :=
  let c := s.rd cagePage (hgOff g + 0x3C)
  let l := s.bandLines g b
  let geo : WarpGeo := ⟨c % 65536, c / 65536, s.hgW g, l.1, l.1 + l.2 - 1, s.warpRow g f b⟩
  let d := WarpPose.of (((s.band (bandKey g F b)).pose).getD [])
  let q := WarpPose.of (((s.band (bandKey g f b)).pose).getD [])
  let a1 := s.depthAt g f x y
  let p1 := warpStep geo d q (s.ld a1 2) x y
  let a2 := s.depthAt g f p1.1 p1.2
  (warpStep geo d q (s.ld a2 2) x y, [(a1, 2), (a2, 2)])

/-- What L0 shows of a band: 0 nothing, 1 the band buffer, 2 the warp (R454, R103); nothing before the first frame of an enable (R102). -/
def State.l0Kind (s : State) (g F b : Nat) : Nat :=
  let x := s.band (bandKey g F b)
  if s.hgEn g && !s.hgStarted g F then 0 else if x.complete then 1 else if x.fallback then 2 else 0

/-- The bytes that a pixel of L0 needs, and the address of its colour; none where it is transparent. A warped pixel needs depth
words besides its colour. -/
def State.l0At (s : State) (h F x y : Nat) : Option (Nat × List (Nat × Nat)) :=
  match s.groupOfHead h with
  | none => none
  | some g =>
    let b := y / s.hgH g
    let u := s.headXoff g h + x
    match s.l0Kind g F b with
    | 1 => let a := s.colourAt g F u y; some (a, [(a, 4)])
    | 2 =>
      let f := (s.band (bandKey g F b)).src
      let w := s.warpTo g F f b u y
      let a := s.colourAt g f w.1.1 w.1.2
      some (a, w.2 ++ [(a, 4)])
    | _ => none

/-- HOLD_REQ was cleared during hold, and line 0 of frame `F` lies at least 8 lines later: pixel data may resume there (R469). -/
def State.wakeIn (s : State) (h F : Nat) : Bool :=
  match (s.head h).wake with
  | some w => decide (w.2 + 8 ≤ (F + 2 ^ 32 - w.1) % 2 ^ 32 * (s.headMode h).vt)
  | none => false

/-- Pixel data may resume in the frame in progress (R469). -/
def State.wakeDue (s : State) (h : Nat) : Bool := s.wakeIn h (s.head h).frame

/-! ### Fetch (R453, R459) -/

/-- A layer is switched off in the frame in progress. -/
def State.layerOff (s : State) (h k : Nat) : Bool := s.headBit h (9 + k)

/-- The bytes that a pixel of layer `k` needs. -/
def State.layerReads (s : State) (h F k x y : Nat) : List (Nat × Nat) :=
  if k = 0 then ((s.l0At h F x y).map (·.2)).getD []
  else match inLayer (s.head h) k x y with
    | some p => surfaceReads s (s.head h) k p.1 p.2
    | none => []

/-- The effective alpha and the colour of a pixel of layer `k`; none where it does not show (R454-R457). -/
def State.layerPix (s : State) (h F k x y : Nat) : Option (Nat × Pix) :=
  let hd := s.head h
  if k = 0 then (s.l0At h F x y).map fun a => (if a.2.length = 1 then effAlpha (layerAlpha hd 0) 255 else 255, pixC30 (s.ld a.1 4))
  else (inLayer hd k x y).map fun p => let v := surfacePix s hd k p.1 p.2; (effAlpha (layerAlpha hd k) v.1, v.2)

/-- The first pixel of a line at which layer `k` meets an uncorrectable error, with the word (R265); none for a layer that is not
fetched. -/
def State.layerBad (s : State) (h F k y : Nat) : Option (Nat × Nat) :=
  if s.eccBad = [] ∨ (F = (s.head h).frame ∧ s.layerOff h k) then none
  else (List.range (s.headMode h).w).findSome? fun x =>
    ((s.layerReads h F k x y).findSome? fun r => s.ueIn r.1 r.2).map fun a => (x, a)

/-- The pixels of layer `k` that a fetch of line `y` of frame `F` brings: a layer that is switched off in the frame is not fetched, and
an uncorrectable error ends the fetch (R265, R460). -/
def State.fetchLayer (s : State) (h F k y : Nat) : List (Option (Nat × Pix)) :=
  let n := match s.layerBad h F k y with
    | some b => b.1
    | none => (s.headMode h).w
  if F = (s.head h).frame ∧ s.layerOff h k then [] else (List.range n).map fun x => s.layerPix h F k x y

/-- The head fetches in frame `F`: it does not hold then (R468, R469). -/
def State.fetchesIn (s : State) (h F : Nat) : Bool := (s.head h).hold != 3 || s.wakeIn h F

/-- The fetch of a line of the enabled layers (R459); R264 applies to the words in error that it meets (R265). -/
def fetchLine (h F y : Nat) (s : State) : State :=
  let b : LineBuf := { frame := F, line := y, layers := (List.range 4).map fun k => s.fetchLayer h F k y }
  strikeAll 7 none ((List.range 4).filterMap fun k => (s.layerBad h F k y).map (·.2)) (s.modHead h fun x => { x with next := some b })

/-- At the start of a line the head begins to fetch the next one; in line V - 1 that is line 0 of the next frame (R453, R459). -/
def fetchNext (h : Nat) (s : State) : State :=
  let x := s.head h
  let m := s.headMode h
  if x.line + 1 < m.h ∧ s.fetchesIn h x.frame then fetchLine h x.frame (x.line + 1) s
  else if x.line + 1 = m.vt ∧ s.fetchesIn h ((x.frame + 1) % 2 ^ 32) then fetchLine h ((x.frame + 1) % 2 ^ 32) 0 s
  else s.modHead h fun y => { y with next := none }

/-- The heads of a group whose fetch stands at the first line of a band fetch it as the substitution makes it (R85, R86). -/
def refetchBand (g F b : Nat) (s : State) : State :=
  (s.hgHeads g).foldl (fun t h => match (t.head h).next with
    | some n => if n.frame = F ∧ n.line = (t.bandLines g b).1 then fetchLine h F n.line t else t
    | none => t) s

/-- The headframe begins to fetch a band; the lines that it substitutes are fetched in its place (R85, R459). -/
def bandFetchLines (g F b : Nat) (s : State) : State :=
  let t := bandFetch g F b s
  if (t.band (bandKey g F b)).fallback && !(s.band (bandKey g F b)).fallback then refetchBand g F b t else t

/-- BAND_FETCH (R85). -/
def execBandFetch (hg : Fin 4) (frame : Word) (band : Nat) (s : State) : Host.Outcome State Fault Refusal :=
  .next (bandFetchLines hg frame.toNat band s)

/-- The head latches its layer registers, background and MUTE, unless LOCK keeps them (R453, R466). In line V - 1 the fetch of line 0
begins with what they now hold. -/
def layerLatch (h : Nat) (s : State) : State :=
  if (s.head h).timing = 0 ∨ !s.pageOn (headPage h) ∨ s.rb (headPage h) 0x104 2 then s
  else
    let w := (List.range 64).map fun k => s.rd (headPage h) (0x200 + 4 * k)
    let m := s.rb (headPage h) 0x104 1
    let s1 := (s.modHead h fun x => { x with layers := w, bg := s.rd (headPage h) 0x120, mute := m }).wb (headPage h) 0x108 8 m
    if (s.head h).next.isSome && (s.head h).line + 1 == (s.headMode h).vt then fetchNext h s1 else s1

/-- LAYER_LATCH (R453). -/
def execLayerLatch (head : Fin 4) (s : State) : Host.Outcome State Fault Refusal := .next (layerLatch head s)

/-! ### Lines (R449, R451, R457-R459, R466) -/

/-- The output encoding of a head (R471). -/
def State.headEncoding (s : State) (h : Nat) : Encoding :=
  ⟨s.headEnc h, s.headBpc h, s.rb (headPage h) 0x100 10, s.rf (headPage h) 0x100 11 11, s.rf (headPage h) 0x100 12 12⟩

/-- The pixels of a layer over what lies below them; no more of it shows where its pixels end (R457, R460). -/
def overLayer : List Pix → List (Option (Nat × Pix)) → List Pix
  | d :: ds, some p :: l => blend p.1 p.2 d :: overLayer ds l
  | d :: ds, none :: l => d :: overLayer ds l
  | ds, _ => ds

/-- The pixels that the head sends of a line from its buffer: composed and encoded, or black while it is muted (R457, R458, R466). -/
def State.linePix (s : State) (h : Nat) (b : LineBuf) : List (List Nat) :=
  let m := s.headMode h
  let e := s.headEncoding h
  if (s.head h).mute then blackLine e m.w else encodeLine e (b.layers.foldl overLayer (List.replicate m.w (pixC30 (s.head h).bg)))

/-- The head sends pixel data: its link is up and it does not hold (R446, R467, R469). -/
def State.headSends (s : State) (h : Nat) : Bool := s.headBit h 1 && s.fetchesIn h (s.head h).frame

/-! ### Underrun (R460) -/

/-- The bands of the frame that a layer switched off at a line touches, and those after it (R89, R460). -/
def underBands (g k line : Nat) (s : State) (x : HeadSt) : HeadSt :=
  let b := line / s.hgH g
  { x with bandUnder := ((List.range (s.hgB g)).filter fun j => decide (b ≤ j)).foldl (fun m j =>
    NMap.put m j (setBit (NMap.get 0 m j) k true)) x.bandUnder }

/-- A layer of a head is switched off from the line in progress to the end of the frame (R460). -/
def switchOff (h k : Nat) (s : State) : State :=
  if s.layerOff h k then s
  else
    let s1 := (((s.wb (headPage h) 0x108 (9 + k) true).irq (headPage h) 8).tally (headPage h) 0x50)
    match s1.groupOfHead h with
    | some g => s1.modHead h (underBands g k (s.head h).line s1)
    | none => s1

/-- The last output that is a line of a head's frame takes other pixels: the list of outputs, the newest first. -/
def amendLine (h F y : Nat) (px : List (List Nat)) : List Out → List Out
  | [] => []
  | .line h' F' y' p :: l => if h' = h ∧ F' = F ∧ y' = y then .line h F y px :: l else .line h' F' y' p :: amendLine h F y px l
  | o :: l => o :: amendLine h F y px l

/-- The line in progress goes on without a layer from a pixel on: the pixels before it are unaffected (R460). -/
def cutLine (h k pixel : Nat) (s : State) : State :=
  match (s.head h).cur with
  | none => s
  | some b =>
    let b1 := { b with layers := setNth b.layers k ((nth [] b.layers k).take pixel) }
    let s1 := s.modHead h fun x => { x with cur := some b1 }
    if s.headSends h then { s1 with out := (amendLine h b.frame b.line (s.linePix h b1) s.out.reverse).reverse } else s1

/-- A pixel of a layer is due and lacks a byte: the layer is switched off from that pixel to the end of the frame (R460). Nothing is due in
the blanking lines, in a layer that is off, and while the head fetches nothing. -/
def layerUnderrun (h k pixel : Nat) (s : State) : State :=
  let x := s.head h
  let m := s.headMode h
  if !s.headRuns h || x.hold == 3 || s.layerOff h k || !(k == 0 || layerOn x k) || decide (m.h ≤ x.line) || decide (m.w ≤ pixel) then s
  else switchOff h k (cutLine h k pixel s)

/-- LAYER_UNDERRUN (R460). -/
def execLayerUnderrun (head : Fin 4) (under : Underrun) (s : State) : Host.Outcome State Fault Refusal :=
  .next (layerUnderrun head under.layer under.pixel s)

/-! ### Line starts -/

/-- The line in progress has been fetched: where the fetch of R459 did not cover it (the first line after the timing starts, a frame that
does not follow the last one), it is fetched now (log entry 35). -/
def lineFetched (h : Nat) (s : State) : State :=
  let x := s.head h
  match x.next with
  | some b => if b.frame = x.frame ∧ b.line = x.line then s else fetchLine h x.frame x.line s
  | none => fetchLine h x.frame x.line s

/-- The head composes and sends the line in progress from its buffer; a layer that lacks pixels is switched off (R457-R460, R466). -/
def sendLine (h : Nat) (s : State) : State :=
  let x := s.head h
  let m := s.headMode h
  if m.h ≤ x.line || !s.fetchesIn h x.frame then s.modHead h fun y => { y with cur := none }
  else
    let s1 := lineFetched h s
    let n := (s1.head h).next.getD {}
    let b := { n with layers := (List.range 4).map fun k => if s1.layerOff h k then [] else nth [] n.layers k }
    let s2 := (s1.modHead h fun y => { y with cur := some b })
    let s3 := ((List.range 4).filter fun k => decide ((nth [] b.layers k).length < m.w)).foldl (fun t k => switchOff h k t) s2
    if s.headSends h then s3.send (.line h x.frame x.line (s.linePix h b)) else s3

/-- A frame begins at line 0: switched-off layers return, UNDERRUN moves to UNDERRUN_LAST, the hold goes on, and a head that sends gives
the VSC SDP of the frame (R444, R460, R467, R468; log entry 35). -/
def frameBegin (h F : Nat) (s : State) : State :=
  let u := s.rf (headPage h) 0x108 12 9
  let s1 := (s.wf (headPage h) 0x108 16 13 u).wf (headPage h) 0x108 12 9 0
  let s2 := s1.modHead h fun x => { x with
    timing := 2, frame := F, line := 0, bandUnder := [], hold := if x.hold = 1 then 2 else if x.hold = 2 then 4 else x.hold }
  let s3 := if s2.fetchesIn h F then s2 else s2.tally (headPage h) 0x54
  let e := s3.headEncoding h
  if s3.headSends h then s3.send (.sdp h F e.enc e.bits e.matrix (e.narrow || e.enc != 0)) else s3

/-- The cage sees the edge of a line of the head groups that a head leads: deadlines of bands, decision lines of steps, and the first frame
of a group enabled before its display began (R83, R102, R309). -/
def lineEdge (h : Nat) (s : State) : State :=
  (List.range 4).foldl (fun t g =>
    if t.leadHead g = some h then decisionEdge g (deadlineEdge g (hgFirst (t.head h).frame t g)) else t) s

/-- What the cage keeps of bands from a frame on goes when the display goes back to it (R451). -/
def bandsBack (h F : Nat) (s : State) : State :=
  if laterFrame F (s.head h).frame then s
  else (List.range 4).foldl (fun t g => if t.leadHead g = some h then keepBands g (fun f _ => laterFrame F f) t else t) s

/-- What a head does at the start of the line that it has come to (R459): it sends it and begins to fetch the next. -/
def runLine (h : Nat) (s : State) : State := fetchNext h (sendLine h (lineEdge h s))

/-- A line start of a head (R449, R451, R459): the next line, or the next frame; a head that completes its frame before a rephase
then waits for the first frame start. -/
def lineStart (h : Nat) (s : State) : State :=
  let x := s.head h
  if x.timing = 0 ∨ !s.pageOn (headPage h) then s
  else if x.timing = 1 then runLine h (frameBegin h x.frame s)
  else if x.line + 1 < (s.headMode h).vt then runLine h (s.modHead h fun y => { y with line := y.line + 1 })
  else
    let s1 := if s.headSends h then s.tally (headPage h) 0x53 else s
    if x.timing = 3 then
      let f := s1.frameAfter h 0 % 2 ^ 32
      (bandsBack h f s1).modHead h fun y => { y with timing := 1, frame := f }
    else runLine h (frameBegin h ((x.frame + 1) % 2 ^ 32) s1)

/-- LINE_START (R459). -/
def execLineStart (head : Fin 4) (s : State) : Host.Outcome State Fault Refusal := .next (lineStart head s)

/-- A jump has left a phase error above 1,000 ns (R451). -/
def headRephase (h : Nat) (s : State) : State :=
  if (s.head h).timing ≠ 2 ∨ !s.pageOn (headPage h) then s
  else (((s.modHead h fun x => { x with timing := 3 }).tally (headPage h) 0x55).incWrap (headPage h) 0x128).irq (headPage h) 11

/-- HEAD_REPHASE (R451). -/
def execHeadRephase (head : Fin 4) (s : State) : Host.Outcome State Fault Refusal := .next (headRephase head s)

/-! ### Panel Replay (R467-R469) -/

/-- HOLD_REQ is set (R467). -/
def holdRequest (id h : Nat) (s : State) : State :=
  if s.en (headPage h) && s.headBit h 1 && s.headBit h 6 then
    (s.wb (headPage h) 0x104 0 true).modHead h fun x => { x with hold := if x.hold = 0 then 1 else x.hold, wake := none }
  else (s.wb (headPage h) 0x104 0 false).faultBy (headPage h) 0xD003 id

/-- HOLD_REQ is cleared (R467, R469). -/
def holdClear (h : Nat) (s : State) : State :=
  (s.wb (headPage h) 0x104 0 false).modHead h fun x =>
    if x.hold = 3 then { x with wake := some (x.frame, x.line) } else { x with hold := 0 }

/-- A write of HEAD_CTRL (R467, R469, R470): HOLD_REQ, MUTE and LOCK; RETRAIN in [3]. -/
def actHeadCtrl (id h v : Nat) (s : State) : State :=
  let old := s.rb (headPage h) 0x104 0
  let s1 := s.wr (headPage h) 0x104 (v % 8 / 2 * 2 + b2n old)
  let s2 := if bit v 0 && !old then holdRequest id h s1 else if !bit v 0 && old then holdClear h s1 else s1
  if bit v 3 && s2.headBit h 0 then retrainHead h s2 else s2

/-- HEAD_CTRL as it stands, its bit 0 replaced. -/
def State.headCtrlWith (s : State) (h : Nat) (req : Bool) : Nat := setBit (s.rd (headPage h) 0x104) 0 req

/-- HEAD_RETRAIN (R470). -/
def execHeadRetrain (id : Ident) (head : Fin 4) (s : State) : Host.Outcome State Fault Refusal :=
  .next (guardW id (headPage head) 0x104 s fun t => actHeadCtrl id head (t.rd (headPage head) 0x104 % 8 + 8) t)
/-- HOLD_REQUEST (R467). -/
def execHoldRequest (id : Ident) (head : Fin 4) (s : State) : Host.Outcome State Fault Refusal :=
  .next (guardW id (headPage head) 0x104 s fun t => actHeadCtrl id head (t.headCtrlWith head true) t)
/-- HOLD_EXIT_REQUEST (R469). -/
def execHoldExitRequest (id : Ident) (head : Fin 4) (s : State) : Host.Outcome State Fault Refusal :=
  .next (guardW id (headPage head) 0x104 s fun t => actHeadCtrl id head (t.headCtrlWith head false) t)

/-- The head holds, once the whole next frame has been sent (R467). -/
def holdEnter (h : Nat) (s : State) : State :=
  let x := s.head h
  if s.headRuns h && (x.hold == 4 || (x.hold == 2 && decide ((s.headMode h).h ≤ x.line + 1))) then
    ((s.modHead h fun y => { y with hold := 3, wake := none }).wb (headPage h) 0x108 7 true).irq (headPage h) 10
  else s

/-- HOLD_ENTER (R467). -/
def execHoldEnter (head : Fin 4) (s : State) : Host.Outcome State Fault Refusal := .next (holdEnter head s)

/-- The head leaves hold at the line 0 that R469 names. -/
def holdExit (h : Nat) (s : State) : State :=
  if (s.head h).hold = 3 && s.headRuns h && s.wakeDue h then
    ((s.modHead h fun y => { y with hold := 0, wake := none }).wb (headPage h) 0x108 7 false).irq (headPage h) 10
  else s

/-- HOLD_EXIT (R469). -/
def execHoldExit (head : Fin 4) (s : State) : Host.Outcome State Fault Refusal := .next (holdExit head s)

/-! ### The FRAME_SUM entry (R366) -/

/-- A FRAME_SUM entry of the head group of REC_CTRL.HG: the frame before the one in progress (R366). The cycles at a throttled clock are 0
when step 0 has held since the last entry, and otherwise timing: a free value (log entry 35). -/
def frameSumWrite (g : Nat) (s : State) : State :=
  if s.rf cagePage 0x600 3 2 ≠ g || !(s.hgHeads g).any fun j => decide (2 ≤ (s.head j).timing) then s
  else
    let f := if s.thrStep = 0 ∧ nth 0 s.frameSum 7 = 0 then (0, s) else s.draw 32
    let t := recTiming 0x43 0 (((s.hgPos g).1 + 2 ^ 32 - 1) % 2 ^ 32) ((s.frameSum.take 7 ++ [f.1]).flatMap (leBytes 4)) f.2
    { t with frameSum := List.replicate 8 0 }

/-- FRAME_SUM_WRITE (R366). -/
def execFrameSumWrite (hg : Fin 4) (s : State) : Host.Outcome State Fault Refusal := .next (frameSumWrite hg s)

/-- HEAD_GROUP (R470): IN_GROUP, HG, XOFF. -/
def State.headGroupReg (s : State) (h : Nat) : Nat := match s.groupOfHead h with
  | some g => 1 + 16 * g + 65536 * s.headXoff g h
  | none => 0

end Sys2Proof.Machine
end

