-- ==== Sys2Proof/Machine/Crosscut.lean ====
section
/-! DEFINITION. The crosscut ports and the pair (R557-R584): training, replay and retraining, remote windows, halo strips,
broadcasts, heartbeats, and takeover. The link layer is in Link.lean, the reducer in AdaptSteps.lean. -/
namespace Sys2Proof.Machine

/-! ### Training (R557-R559, R562) -/

/-- The state of a port changes; LINK_CHANGE says so (R584, log entry 31). -/
def setXcState (p st : Nat) (s : State) : State :=
  if s.xcState p = st then s else (s.wf (xcPage p) 0x104 2 0 st).irq (xcPage p) 8

/-- The port trains, unless its role is OFF (R557). -/
def xcTrain (p : Nat) (s : State) : State := if s.xcRole p = 0 then s else setXcState p 1 s

/-- A write of CTRL of a crosscut page: EN set starts training, EN cleared takes the port down (R557). -/
def actXcEn (id p v : Nat) (s : State) : State :=
  ctrlWrite id (xcPage p) v (fun _ => 0) (xcTrain p) (setXcState p 0) s

/-- XC_ENABLE (R557). -/
def execXcEnable (id : Ident) (port : Fin 4) (s : State) : Host.Outcome State Fault Refusal :=
  .next (guardW id (xcPage port) 0x008 s fun t => actXcEn id port (t.ctrlWith (xcPage port) true) t)

/-- The wall neighbour of a port stands where R559 wants it: E with W, N with S. -/
def State.adjacent (s : State) (p prow pcol : Nat) : Bool :=
  let c := s.rf cagePage 0x500 2 0
  let r := s.rf cagePage 0x500 5 3
  match p with
  | 0 => decide (prow + 1 = r) && decide (pcol = c)
  | 1 => decide (prow = r) && decide (pcol = c + 1)
  | 2 => decide (prow = r + 1) && decide (pcol = c)
  | _ => decide (prow = r) && decide (pcol + 1 = c)

/-- What the peer reported fits the role of the port (R559): `peer` holds ROLE in [1:0], the port in [3:2], ROW in [6:4], COL in
[9:7], PAIR_CFG.ROLE in [10]. -/
def State.peerFits (s : State) (p peer : Nat) : Bool :=
  if s.xcRole p = 2 then decide (fld peer 1 0 = 2) && (bit peer 10 != s.standby)
  else decide (fld peer 1 0 = 1) && decide (fld peer 3 2 = (p + 2) % 4) && s.adjacent p (fld peer 6 4) (fld peer 9 7)

/-- The held flits are sent again with their SEQ (R562). -/
def resendHeld (p : Nat) (fs : List (List Byte)) (s : State) : State :=
  fs.foldl (fun t f => xcEmit p f ((((t.incSat (xcPage p) 0x10C).tally (xcPage p) 0x89)).sumAdd p 1)) s

/-- The hoists go on with the copies that wait for a port (R564, R674). -/
def pumpPort (p : Nat) (s : State) : State :=
  (List.range 80).foldl (fun t h => ((t.hoist h).filter fun j => j.port == some p && j.todo != []).foldl (fun u j =>
    if (u.freeTag p).isSome || wOp j.word == 0x73 then turnJob h j.id (pumpJob h j.id u) else u) t) s

/-- The port is UP: what it holds is sent again, what is queued follows, and waiting copies proceed (R562, R674). -/
def xcGoUp (p : Nat) (s : State) : State :=
  let s1 := resendHeld p (s.port p).held (setXcState p 2 s)
  pumpPort p (xcPump p (s1.port p).queue.length s1)

/-- Training ends: a lane that has not trained leaves the port DOWN; another reset count of the peer gives PEER_RESET; a wrong
peer gives MISMATCH (R557, R559, R562). Bit 11 of `peer` says that a lane has not trained, and [63:32] hold the reset
count. -/
def xcTrainingDone (p peer : Nat) (s : State) : State :=
  if s.xcState p ≠ 1 ∨ !s.en (xcPage p) ∨ !s.pageOn (xcPage p) then s
  else if bit peer 11 then setXcState p 0 s
  else
    let pg := xcPage p
    let s1 := (((s.wf pg 0x104 5 4 (fld peer 3 2)).wf pg 0x104 10 8 (fld peer 6 4)).wf pg 0x104 14 12 (fld peer 9 7)).wf pg 0x104 17 16 (fld peer 1 0)
    let n := fld peer 63 32
    if !s1.peerFits p peer then setXcState p 3 s1
    else if (s1.port p).peerReset.any fun m => m != n then setXcState p 4 s1
    else xcGoUp p (s1.modPort p fun x => { x with peerReset := some n })

/-- XC_TRAINING_DONE (R559). -/
def execXcTrainingDone (port : Fin 4) (peer : Nat) (s : State) : Host.Outcome State Fault Refusal := .next (xcTrainingDone port peer s)

/-- A port that is UP trains again and keeps what it holds (R562). -/
def xcRetrain (p : Nat) (s : State) : State :=
  if s.xcUp p then xcTrain p (s.modPort p fun x => { x with replays := 0 }) else s

/-- XC_LINK_RETRAIN (R562). -/
def execXcLinkRetrain (port : Fin 4) (s : State) : Host.Outcome State Fault Refusal := .next (xcRetrain port s)

/-- What the port holds is discarded, and training starts afresh (R562). -/
def xcResync (p : Nat) (s : State) : State :=
  if s.en (xcPage p) then
    xcTrain p (s.modPort p fun x => { x with txSeq := 0, rxSeq := 0, held := [], tags := [], replays := 0, peerReset := none })
  else s

/-- A write of XC_CTRL: RETRAIN in [0], RESYNC in [1] (R581). -/
def actXcCtrl (p v : Nat) (s : State) : State :=
  let s1 := if bit v 0 && s.en (xcPage p) then xcTrain p s else s
  if bit v 1 then xcResync p s1 else s1

/-- RETRAIN (R581). -/
def execRetrain (id : Ident) (port : Fin 4) (s : State) : Host.Outcome State Fault Refusal :=
  .next (guardW id (xcPage port) 0x108 s (actXcCtrl port 1))
/-- RESYNC (R562). -/
def execResync (id : Ident) (port : Fin 4) (s : State) : Host.Outcome State Fault Refusal :=
  .next (guardW id (xcPage port) 0x108 s (actXcCtrl port 2))

/-! ### Replay (R561) -/

/-- A NAK names the next SEQ that the peer expects: the flits before it are acknowledged, and from it on they are replayed. -/
def flitNak (p seq : Nat) (s : State) : State :=
  let x := s.port p
  let k := (x.held.map flitSeq).idxOf (seq % 2 ^ 16)
  if !s.xcUp p ∨ (x.held.length ≤ k ∧ seq % 2 ^ 16 ≠ x.txSeq) then s
  else
    let s1 := s.modPort p fun y =>
      { y with held := y.held.drop k, replays := if y.held.length ≤ k then 0 else if k = 0 then y.replays + 1 else 1 }
    let s2 := resendHeld p (s1.port p).held s1
    xcPump p (s2.port p).queue.length s2

/-- FLIT_NAK (R561). -/
def execFlitNak (port : Fin 4) (seq : Nat) (s : State) : Host.Outcome State Fault Refusal := .next (flitNak port seq s)

/-- A flit that fails is discarded, counted, and answered with a NAK (R561). -/
def flitDiscarded (p : Nat) (crc : Bool) (s : State) : State :=
  if !s.xcUp p then s
  else xcIdle p true (if crc then (s.incSat (xcPage p) 0x110).tally (xcPage p) 0x8A else (s.incSat (xcPage p) 0x10C).tally (xcPage p) 0x89)

/-- FLIT_DISCARDED (R561). -/
def execFlitDiscarded (port : Fin 4) (crc : Bool) (s : State) : Host.Outcome State Fault Refusal := .next (flitDiscarded port crc s)

/-! ### Remote windows (R241, R564, R599) -/

/-- The identity of an access that arrives on a port (R558). -/
def State.xcIdent (s : State) (p : Nat) : Nat := if s.xcRole p = 2 then 0x14 else 0x10 + p

/-- A memory grant covers a range for an identity and a right, 1 R, 2 W (R599). -/
def State.grantOk (s : State) (id right a n : Nat) : Bool :=
  (List.range 16).any fun k =>
    let o := 0x400 + 0x20 * k
    let at' := s.rd bootPage (o + 0x10)
    bit at' 0 && bit at' right && decide (8 ≤ id) && bit at' id && decide (s.rd64 bootPage o / 65536 * 65536 ≤ a) &&
      decide (a + n ≤ s.rd64 bootPage (o + 8) / 65536 * 65536 + 65536)

/-- The device ranges of a range of a window offset, none where a byte is unassigned (R241). -/
def windowRanges (off n : Nat) : Option (List (Nat × Nat)) :=
  if off + n ≤ 0xC00000000 then some [(off, n)]
  else if off + n ≤ 0xC08000000 then
    if 0xC00000000 ≤ off then some [(galBase + (off - 0xC00000000), n)]
    else some [(off, 0xC00000000 - off), (galBase, off + n - 0xC00000000)]
  else none

/-- STATUS of an access through a window, 0 when it may go on: NO_PAGE 2, DENIED 1 (R564, R590, R599). -/
def State.remoteStatus (s : State) (p right off n : Nat) : Nat :=
  match windowRanges off n with
  | none => 2
  | some rs => if !s.boot.window && rs.all fun r => s.grantOk (s.xcIdent p) right r.1 r.2 then 0 else 1

/-- Words in error that a write in part leaves unwritten, or that a read meets. -/
def rangesBad (s : State) (rs : List (Nat × Nat)) (write : Bool) : List Nat :=
  rs.flatMap fun r => if write then s.stuckWords r.1 r.2 else s.badWords r.1 r.2

/-- Bytes stored over ranges in order. -/
def putRanges : List (Nat × Nat) → List Byte → State → State
  | [], _, s => s
  | r :: rs, bs, s => putRanges rs (bs.drop r.2) (s.stBytes r.1 (bs.take r.2))

/-- A MEM_WR flit: its bytes are written, and MEM_ACK answers with the STATUS (R564). -/
def memWr (p : Nat) (f : List Byte) (s : State) : State :=
  let bs := flitPayload f
  let off := fld (flitArg f) 39 0
  let st := s.remoteStatus p 2 off bs.length
  if st ≠ 0 then xcPush p 4 true (flitTag f) st [] s
  else
    let rs := (windowRanges off bs.length).getD []
    let bad := rangesBad s rs true
    xcPush p 4 true (flitTag f) (if bad = [] then 0 else 3) [] (strikeAll (s.xcIdent p) none bad (putRanges rs bs s))

/-- MEM_WR (R564). -/
def execMemWr (port : Fin 4) (flit : List Byte) (s : State) : Host.Outcome State Fault Refusal :=
  .next (xcReceive port 1 flit (memWr port flit) s)

/-- A MEM_RD flit: MEM_RSP brings the bytes, or the STATUS alone (R564). -/
def memRd (p : Nat) (f : List Byte) (s : State) : State :=
  let n := min 236 (fld (flitArg f) 55 40)
  let off := fld (flitArg f) 39 0
  let st := s.remoteStatus p 1 off n
  if st ≠ 0 then xcPush p 3 true (flitTag f) st [] s
  else
    let rs := (windowRanges off n).getD []
    let bad := rangesBad s rs false
    if bad = [] then xcPush p 3 true (flitTag f) 0 (rs.flatMap fun r => s.ldBytes r.1 r.2) (s.correctAll rs)
    else xcPush p 3 true (flitTag f) 3 [] (strikeAll (s.xcIdent p) none bad s)

/-- MEM_RD (R564). -/
def execMemRd (port : Fin 4) (flit : List Byte) (s : State) : Host.Outcome State Fault Refusal :=
  .next (xcReceive port 2 flit (memRd port flit) s)

/-- The first address of a job in a remote window (R636). -/
def jobRemote (j : HoistJob) : Nat := copyRemote j j.idx

/-- An answer to a job: a refusal or an error there ends it with its context (R564); otherwise it goes on. -/
def jobAnswer (t : TagUse) (status : Nat) (bytes : List Byte) (s : State) : State :=
  match s.job t.hoist t.job with
  | none => s
  | some j =>
    if status = 3 then
      teardown j.handle 0x6005 ((s.dropJob t.hoist j.id).fault
        { page := hoistPage t.hoist, code := 0x6005, source := hoistSrc t.hoist, handle := j.handle, detail := jobRemote j })
    else if status ≠ 0 then hoistFault t.hoist j 0x6004 (jobRemote j) s
    else
      let s1 := s.modJob t.hoist j.id fun y =>
        { y with waiting := y.waiting - 1, got := if y.reading then NMap.put y.got t.piece bytes else y.got }
      turnJob t.hoist j.id s1

/-- An answer frees its tag, and waiting copies proceed (R564). -/
def memAnswer (p : Nat) (f : List Byte) (s : State) : State :=
  match NMap.find (s.port p).tags (flitTag f) with
  | none => s
  | some t =>
    pumpPort p (jobAnswer t (fld (flitArg f) 7 0) (flitPayload f) (s.modPort p fun x => { x with tags := NMap.del x.tags (flitTag f) }))

/-- MEM_RSP (R564). -/
def execMemRsp (port : Fin 4) (flit : List Byte) (s : State) : Host.Outcome State Fault Refusal :=
  .next (xcReceive port 3 flit (memAnswer port flit) s)

/-- MEM_ACK (R564). -/
def execMemAck (port : Fin 4) (flit : List Byte) (s : State) : Host.Outcome State Fault Refusal :=
  .next (xcReceive port 4 flit (memAnswer port flit) s)

/-! ### Halo strips (R565, R572) -/

/-- A HALO flit: a key that R92 accepts has its bytes written, and with LAST its strip has arrived; otherwise nothing is written,
and HALO_REJECT fires at the flit with LAST (R565). The ACTIVE device of a pair forwards what it accepts (R572). -/
def haloFlit (p : Nat) (f : List Byte) (s : State) : State :=
  let pl := flitPayload f
  let n := leAt pl 0 4
  let rg := leAt pl 4 4
  let bs := pl.drop 16
  let off := fld (flitArg f) 39 0
  let a := match windowRanges off bs.length with
    | some [r] => some r.1
    | _ => none
  match a.bind fun x => (s.stripAt x).map fun q => (x, q) with
  | some (x, q) =>
    if s.haloOk q n (leAt pl 8 4) then
      let s1 := storeBytes (s.xcIdent p) none x bs (haloOpen q n s)
      let s2 := if flitLast f then haloArrived q rg s1 else s1
      if s2.standby then s2 else ((s2.upPorts 2).filter fun u => u != p).foldl (fun t u => xcPush u 5 (flitLast f) 0 (flitArg f) pl t) s2
    else if flitLast f then (haloReject s).tally (xcPage p) 0x0B else s
  | none => if flitLast f then (haloReject s).tally (xcPage p) 0x0B else s

/-- HALO (R565). -/
def execHalo (port : Fin 4) (flit : List Byte) (s : State) : Host.Outcome State Fault Refusal :=
  .next (xcReceive port 5 flit (haloFlit port flit) s)

/-! ### Broadcast launches (R567, R568, R583) -/

/-- A 64-bit unit register written by an identity, where R45 allows it. -/
def unitWrite (id p off v : Nat) (s : State) : State :=
  guardW id p off s fun t => if !pageUnit p || t.unitLocked p then t else t.wr64 p off v

/-- A launch applied on this device: the unit registers of the page, then ARM (R568). -/
def applyLaunch (id page list g step seed : Nat) (strict : Bool) (s : State) : State :=
  let s1 := unitWrite id page 0x080 seed (unitWrite id page 0x070 step (unitWrite id page 0x068 g
    (unitWrite id page 0x060 (list % 2 ^ 40 / 16 * 16) s)))
  { guardW id page 0x058 s1 (actUnitCmd id page (2 + 16 * b2n strict)) with bus := s.bus }

/-- NUMBER `n` is later than `m` modulo 2^16 (R543, R567). -/
def laterNumber (n m : Nat) : Bool := let d := (n + 2 ^ 16 - m % 2 ^ 16) % 2 ^ 16; decide (0 < d) && decide (d < 2 ^ 15)

/-- A LAUNCH broadcast arrives: accepted when it is later than the last from its origin; then forwarded and applied (R567, R568). -/
def bcastLaunch (p : Nat) (payload : List Byte) (s : State) : State :=
  let o := leAt payload 1 1 % 64
  let n := leAt payload 2 2
  if (NMap.find s.bcastLast o).any fun m => !laterNumber n m then s
  else
    let s1 := bcastSend (some p) payload { s with bcastLast := NMap.put s.bcastLast o n }
    applyLaunch (s1.xcIdent p) (leAt payload 4 2) (leAt payload 6 8) (leAt payload 14 8) (leAt payload 22 8) (leAt payload 30 8)
      (leAt payload 38 1 % 2 == 1) s1

/-- BCAST_LAUNCH (R568). -/
def execBcastLaunch (port : Fin 4) (flit : List Byte) (s : State) : Host.Outcome State Fault Refusal :=
  .next (if leAt (flitPayload flit) 0 1 = 1 then xcReceive port 7 flit (bcastLaunch port (flitPayload flit)) s else s)

/-- A write of BC_CMD: SEND takes the next NUMBER, applies the launch here and sends it (R568, R583); a STANDBY device sends
nothing on WALL ports (R571). -/
def actBcCmd (id v : Nat) (s : State) : State :=
  if !bit v 0 then s
  else
    let n := (s.rf (xcPage 0) 0x23C 31 16 + 1) % 2 ^ 16
    let page := s.rf (xcPage 0) 0x210 15 0
    let strict := bit v 1
    let payload := leBytes 1 1 ++ leBytes 1 s.wallByte ++ leBytes 2 n ++ leBytes 2 page ++ leBytes 8 (s.rd64 (xcPage 0) 0x218) ++
      leBytes 8 (s.rd64 (xcPage 0) 0x220) ++ leBytes 8 (s.rd64 (xcPage 0) 0x228) ++ leBytes 8 (s.rd64 (xcPage 0) 0x230) ++ leBytes 1 (b2n strict)
    let s1 := { s.wf (xcPage 0) 0x23C 31 16 n with bcastLast := NMap.put s.bcastLast s.wallByte n }
    let s2 := applyLaunch id page (s.rd64 (xcPage 0) 0x218) (s.rd64 (xcPage 0) 0x220) (s.rd64 (xcPage 0) 0x228) (s.rd64 (xcPage 0) 0x230) strict s1
    if s2.standby then (s2.upPorts 2).foldl (fun t p => xcPush p 7 true 0 0 payload t) s2 else bcastSend none payload s2

/-- BC_SEND (R583). -/
def execBcSend (id : Ident) (strict : Bool) (s : State) : Host.Outcome State Fault Refusal :=
  .next (guardW id (xcPage 0) 0x238 s (actBcCmd id (1 + 2 * b2n strict)))

/-! ### Forwarded poses (R572, R573) -/

/-- A POSE flit: the STANDBY device latches it when its band waits for it, and keeps it otherwise (R573). -/
def poseFlit (payload : List Byte) (s : State) : State :=
  let g := leAt payload 0 1 % 4
  let b := leAt payload 1 1
  let F := leAt payload 4 4
  let pose := sliceL payload 8 64
  let k := bandKey g F b
  if !s.standby then s
  else if (s.band k).poseWait then latchPose g F b pose s
  else if (s.band k).latched then s
  else { s with fwdPoses := NMap.put s.fwdPoses k pose }

/-- POSE (R573). -/
def execPose (port : Fin 4) (flit : List Byte) (s : State) : Host.Outcome State Fault Refusal :=
  .next (xcReceive port 8 flit (poseFlit (flitPayload flit)) s)

/-! ### Takeover (R575-R580) -/

/-- PAIR_CFG.EN. -/
def State.pairEn (s : State) : Bool := s.rb (xcPage 0) 0x200 0

/-- An event of R577 on a STANDBY device whose pair is enabled. -/
def takeEvent (s : State) : State := if s.pairEn && s.standby then { s with takePend := true } else s

/-- A write of PAIR_CFG: discarded while EN is 1, except one that clears EN (R583); setting EN deasserts FAULT_OUT unless an
unrepairable fault has been detected since the reset (R575). -/
def actPairCfg (v : Nat) (s : State) : State :=
  if s.pairEn && bit v 0 then s
  else
    let s1 := s.wr (xcPage 0) 0x200 (v % 4 + v / 16 % 16 * 16)
    if bit v 0 && !s.pairEn && s.faultOut && !s.unrepairable then { s1 with faultOut := false }.send (.pin "FAULT_OUT" false) else s1

/-- PAIR_ENABLE (R575). -/
def execPairEnable (id : Ident) (value : Word) (s : State) : Host.Outcome State Fault Refusal :=
  .next (guardW id (xcPage 0) 0x200 s (actPairCfg (setBit value.toNat 0 true)))

/-- PEER_FAULT is recognised at a level (R576). -/
def peerFault (level : Bool) (s : State) : State :=
  let s1 : State := { s with peerFault := level }
  if level && !s.peerFault then takeEvent (s1.irq (xcPage 0) 11) else s1

/-- PEER_FAULT (R576). -/
def execPeerFault (level : Bool) (s : State) : Host.Outcome State Fault Refusal := .next (peerFault level s)

/-- The heads that PAIR_CFG.HEADS names. -/
def State.pairHeads (s : State) : List Nat := (List.range 4).filter fun h => s.rb (xcPage 0) 0x200 (4 + h)

/-- The takeover at a line start (R577): the heads are unmuted at once, TAKE_OUT is asserted, ROLE is ACTIVE. -/
def takeover (s : State) : State :=
  let s0 : State := { s with takePend := false }
  if !s.takePend then s
  else if !s.pairEn || !s.standby then s0
  else
    let s1 := s0.pairHeads.foldl (fun t h =>
      ((t.modHead h fun x => { x with mute := false }).wb (headPage h) 0x104 1 false).wb (headPage h) 0x108 8 false) s0
    ({ s1.wb (xcPage 0) 0x200 1 false with takeOut := true }.send (.pin "TAKE_OUT" true)).irq (xcPage 0) 10

/-- TAKEOVER (R577). -/
def execTakeover (s : State) : Host.Outcome State Fault Refusal := .next (takeover s)

/-- TAKE_CLR: TAKE_OUT is deasserted, ROLE is STANDBY, and the heads are muted at their next latch; without effect while TAKE_OUT
is deasserted (R579, R583). -/
def takeClr (s : State) : State :=
  if s.takeOut then
    let s1 := s.pairHeads.foldl (fun t h => t.wb (headPage h) 0x104 1 true) s
    { s1.wb (xcPage 0) 0x200 1 true with takeOut := false }.send (.pin "TAKE_OUT" false)
  else s

/-- A write of PAIR_CTRL: TAKE in [0], TAKE_CLR in [1], FAULT_SET in [2] (R575, R577, R579, R582). -/
def actPairCtrl (v : Nat) (s : State) : State :=
  let s1 := if bit v 2 && !s.faultOut then s.assertFaultOut else s
  let s2 := if bit v 1 then takeClr s1 else s1
  if bit v 0 then takeEvent s2 else s2

/-- TAKE (R577). -/
def execTake (id : Ident) (s : State) : Host.Outcome State Fault Refusal := .next (guardW id (xcPage 0) 0x208 s (actPairCtrl 1))
/-- TAKE_CLR (R579). -/
def execTakeClr (id : Ident) (s : State) : Host.Outcome State Fault Refusal := .next (guardW id (xcPage 0) 0x208 s (actPairCtrl 2))
/-- FAULT_SET (R575). -/
def execFaultSet (id : Ident) (s : State) : Host.Outcome State Fault Refusal := .next (guardW id (xcPage 0) 0x208 s (actPairCtrl 4))

/-! ### Heartbeats (R569, R570) -/

/-- The GCOUNT edge, its value a multiple of 4, that has passed at least `n` counts ago. -/
def State.hbEdge (s : State) (n : Nat) : Nat := (s.gcount - n) / 4 * 4

/-- A heartbeat leaves on every port that is UP (R569). -/
def heartbeat (s : State) : State :=
  let b := b2n s.standby + 2 * b2n s.faultOut + 4 * b2n s.takeOut
  ((List.range 4).filter s.xcUp).foldl (fun t p => xcPush p 0xE true 0 0 (leBytes 8 (s.hbEdge 0) ++ leBytes 1 b) t) s

/-- HEARTBEAT (R569). -/
def execHeartbeat (s : State) : Host.Outcome State Fault Refusal := .next (heartbeat s)

/-- A heartbeat arrives; within 2,048 ns of the local edge it sets the count of misses to 0 (R570). -/
def heartbeatIn (p : Nat) (payload : List Byte) (s : State) : State :=
  let g := leAt payload 0 8
  let s1 := s.wr64 (xcPage p) 0x118 g
  if s.time.c2.t ≤ 1024 * g + 2048 then s1.modPort p fun x => { x with hbGot := some g, misses := 0 } else s1

/-- HEARTBEAT_RECEIVE (R570). -/
def execHeartbeatReceive (port : Fin 4) (flit : List Byte) (s : State) : Host.Outcome State Fault Refusal :=
  .next (xcReceive port 0xE flit (heartbeatIn port (flitPayload flit)) s)

/-- The heartbeat of the last edge that is 2,048 ns old has not arrived: it is missed on a port that has been UP since it was
enabled; three in a row on the pair port are a takeover event (R570, R577). -/
def xcHbMiss (p : Nat) (s : State) : State :=
  if !s.en (xcPage p) || (s.port p).peerReset.isNone || (s.port p).hbGot == some (s.hbEdge 2) then s
  else
    let m := min 3 ((s.port p).misses + 1)
    let s1 := (((s.modPort p fun x => { x with misses := m }).incSat (xcPage p) 0x114).tally (xcPage p) 0x8B).irq (xcPage p) 9
    if m = 3 ∧ s.xcRole p = 2 then takeEvent s1 else s1

/-- XC_HB_MISS (R570). -/
def execXcHbMiss (port : Fin 4) (s : State) : Host.Outcome State Fault Refusal := .next (xcHbMiss port s)

/-- PAIR_STAT (R582): PEER_UP, PEER_FAULT, TAKE_OUT, FAULT_OUT, MISSES. -/
def State.pairStat (s : State) : Nat :=
  let p := (List.range 4).find? fun p => s.xcRole p == 2
  b2n ((p.map s.xcUp).getD false) + 2 * b2n s.peerFault + 4 * b2n s.takeOut + 8 * b2n s.faultOut + 16 * (p.map fun q => (s.port q).misses).getD 0

/-- XC_TAGS of a port (R581). -/
def State.xcTags (s : State) (p : Nat) : Nat := (s.port p).tags.length

end Sys2Proof.Machine
end

