-- ==== Sys2Proof/Machine/CtxCommands.lean ====
section
/-! DEFINITION. The commands of the context table and of the window table, and PART_CFG (R323-R325, R329, R348, R349). -/
namespace Sys2Proof.Machine

/-! ### Windows and partitions -/

/-- A range of addresses lies wholly in one assigned area of the address space (R240). -/
def areaAssigned (lo hi : Nat) : Bool :=
  [(0, dramSize), (galBase, galSize), (fsBase, 512 * fsSize), (ctlBase, 0x10000000), (remBase, 0x4000000000)].any fun r =>
    decide (r.1 ≤ lo) && decide (hi < r.1 + r.2)

/-- A range of DRAM or gallery addresses in 64 KiB units reaches the firmware region (R588). -/
def reachesFirmware (base limit : Nat) : Bool := decide (base ≤ limit) && decide (base < dramSize) && decide (fwBase < limit + 0x10000)

/-- The staged window goes into the window table, until BOOT_LOCK and when its range is listed (R324, R349, R588). -/
def winWrite (s : State) : State :=
  let b := s.rd64 devPage 0x188
  let l := s.rd64 devPage 0x190
  if !s.boot.window || decide (l < b) || !areaAssigned b (l + 0xFFFF) || reachesFirmware b l then s
  else { s with windows := NMap.put s.windows (s.rf devPage 0x180 7 0) ⟨b, l, s.rf devPage 0x198 3 0⟩ }

/-- A window goes into staging (R348). -/
def winRead (s : State) : State :=
  let w := s.window (s.rf devPage 0x180 7 0)
  ((s.wr64 devPage 0x188 w.base).wr64 devPage 0x190 w.limit).wr devPage 0x198 w.attr

/-- A write of WIN_CMD (R348). -/
def actWinCmd (v : Nat) (s : State) : State :=
  let s1 := if bit v 0 then winWrite s else s
  if bit v 1 then winRead s1 else s1

/-- WIN_WRITE (R348). -/
def execWinWrite (id : Ident) (s : State) : Host.Outcome State Fault Refusal := .next (guardW id devPage 0x184 s (actWinCmd 1))
/-- WIN_READ (R348). -/
def execWinRead (id : Ident) (s : State) : Host.Outcome State Fault Refusal := .next (guardW id devPage 0x184 s (actWinCmd 2))

/-- The stopes of a partition that a PART_CFG value describes. -/
def cfgStopes (v : Nat) : List Nat := if bit v 12 then (List.range (2 ^ fld v 10 8)).map fun k => fld v 4 0 + k else []

/-- A PART_CFG value keeps the alignment of R323, its size is listed, and it shares no stope with another partition (R349). -/
def State.partCfgOk (s : State) (q v : Nat) : Bool :=
  !bit v 12 || (decide (fld v 10 8 ≤ 5) && fld v 4 0 % 2 ^ fld v 10 8 == 0 &&
    (List.range 32).all fun r => r == q || (cfgStopes v).all fun st => !(s.partStopes r).contains st)

/-- A write of PART_CFG (R324, R349): until BOOT_LOCK, and discarded when it would break R323. -/
def actPartCfg (q v : Nat) (s : State) : State :=
  match regAt devPage (0x100 + 4 * q) with
  | none => s
  | some r =>
    let n := mergeWrite r.row (s.rd devPage (0x100 + 4 * q)) v
    if s.boot.window && s.partCfgOk q n then s.wr devPage (0x100 + 4 * q) n else s

/-- PART_CFG_WRITE (R349). -/
def execPartCfgWrite (id : Ident) (part : Fin 32) (value : Word) (s : State) : Host.Outcome State Fault Refusal :=
  .next (guardW id devPage (0x100 + 4 * part) s (actPartCfg part value.toNat))

/-! ### Context commands (R329) -/

/-- The entry that the staging words spell. -/
def State.stagedCtx (s : State) : Ctx := Ctx.ofWords fun k => s.rd devPage (0x1C0 + 4 * k)

/-- SLICE is listed: 50 to 100,000 for an ASYNC context (R328). -/
def sliceOk (cls slice : Nat) : Bool := cls != 0 || (decide (50 ≤ slice) && decide (slice ≤ 100000))

/-- WMASK names VALID windows of a partition only (R329). -/
def State.wmaskOk (s : State) (p m : Nat) : Bool := (List.range 8).all fun w => !bit m w || bit (s.window (8 * p + w)).attr 0

/-- The entry's values are listed (R329). -/
def State.entryOk (s : State) (c : Ctx) : Bool :=
  decide (c.cls ≤ 1) && sliceOk c.cls c.slice && decide (c.part < 32) && s.partStopes c.part != [] && s.wmaskOk c.part c.wmask &&
    decide (c.save < dramSize)

/-- The context is leaving its faces, or is about to run on them. -/
def State.inSwitch (s : State) (h : Nat) : Bool :=
  let x := s.part (s.ctx h).part
  x.switching && (x.outgoing == some h || x.incoming == some h)

/-- The outcome of a context command: 0, or the ERR with which it fails and changes nothing (R329; an earlier cause of the table
prevails, log entry 27). -/
def State.ctxErr (s : State) (cmd h : Nat) : Nat :=
  let c := s.ctx h
  let n := s.stagedCtx
  match cmd with
  | 2 => if c.state ≠ 0 then 1 else if !s.slotFree n.part then 2 else if !s.entryOk n then 3 else 0
  | 3 => if c.state ≠ 1 ∧ c.state ≠ 5 then 1 else if !sliceOk c.cls n.slice || !s.wmaskOk c.part n.wmask then 3 else 0
  | 4 => if !s.resident h || !([1, 2, 4, 5].contains c.state) || s.inSwitch h then 1 else if c.cls = 1 then 4 else 0
  | 5 => if s.resident h || c.state == 0 then 1 else if !s.slotFree c.part then 2 else 0
  | 6 => if [1, 5, 6].contains c.state then 0 else 1
  | _ => 0

/-- SLOT of CTX_STAT names the slot assigned to a handle. -/
def slotAssigned (h : Nat) (s : State) : State := s.wf devPage 0x1AC 21 16 (s.ctx h).slot

/-- READ: the entry goes to the staging words. -/
def ctxRead (h : Nat) (s : State) : State :=
  ((List.range 16).zip ((s.ctx h).words h (s.resident h))).foldl (fun t e => t.wr devPage (0x1C0 + 4 * e.1) e.2) s

/-- CREATE: the entry becomes resident and IDLE. -/
def ctxCreate (h : Nat) (s : State) : State :=
  let n := s.stagedCtx
  let c : Ctx := { n with state := 1, fault := 0, clip := 0, elem := 0, blockedAt := 0, slot := s.freeSlot.getD 0 }
  slotAssigned h { s with
    ctxs := NMap.put s.ctxs h c, runs := NMap.del s.runs h, members := NMap.del s.members h
    slotLast := s.slotLast.filter fun e => e.2.handle != h }

/-- MODIFY: SLICE, WMASK, GSAVE, GLEN and POOL. -/
def ctxModify (h : Nat) (s : State) : State :=
  let n := s.stagedCtx
  s.modCtx h fun c => { c with slice := n.slice, wmask := n.wmask, gsave := n.gsave, glen := n.glen, pool := n.pool }

/-- SWAP_OUT: a READY context joins the queue of R336. -/
def ctxSwapOut (h : Nat) (s : State) : State :=
  let c := s.ctx h
  let t := swapOut h s
  if c.state = 2 then sched c.part (t.setPart c.part { t.part c.part with ready := (t.part c.part).ready ++ [h] }) else t

/-- SWAP_IN: the partition takes it up when it runs nothing. -/
def ctxSwapIn (h : Nat) (s : State) : State := let t := swapIn h s; slotAssigned h (sched (t.ctx h).part t)

/-- What the table slots remember of a context that is destroyed: the units bound to the slot of one that was torn down read FAULTED
until it is created again (R44). -/
def State.slotsAfter (s : State) (h : Nat) : NMap SlotLast :=
  let m := match NMap.find s.ctxs h with
    | some c => NMap.put s.slotLast c.slot { handle := h }
    | none => s.slotLast
  if (s.ctx h).state = 6 then m.map fun e => if e.2.handle = h then (e.1, { e.2 with torn := true }) else e
  else m.filter fun e => e.2.handle != h

/-- DESTROY: the entry and its slot are free, and reads of the handle find it FREE. -/
def ctxDestroy (h : Nat) (s : State) : State :=
  let c := { s.ctx h with state := 0 }
  let t : State := { s with
    ctxs := NMap.del s.ctxs h, runs := NMap.del s.runs h, members := NMap.del s.members h, slotLast := s.slotsAfter h
    launches := s.launches.filter fun e => e.2.state == 5 || !e.2.bound || e.2.handle != h }
  t.stBytes (t.handleAddr h) (c.bytes h false)

/-- The action of a context command. -/
def ctxAct (cmd h : Nat) (s : State) : State :=
  match cmd with
  | 1 => ctxRead h s
  | 2 => ctxCreate h s
  | 3 => ctxModify h s
  | 4 => ctxSwapOut h s
  | 5 => ctxSwapIn h s
  | 6 => ctxDestroy h s
  | _ => s

/-- A write of CTX_CMD (R329), which a quiesced device page does not take (R35, log entry 29): an entry in the handle table that meets an uncorrectable error is a read of firmware's memory. -/
def actCtxCmd (v : Nat) (s : State) : State :=
  let cmd := fld v 3 0
  let h := s.rf devPage 0x1A4 9 0
  if cmd = 0 ∨ 6 < cmd ∨ s.quiet devPage then s
  else if s.ctxCmd.isSome then s.wf devPage 0x1AC 15 8 5
  else
    let s1 := if s.resident h then s else (s.ueRead (s.handleAddr h) 64 none).getD s
    let e := s1.ctxErr cmd h
    let s2 := if e = 0 then ctxAct cmd h s1 else s1
    { s2 with ctxCmd := some e }.wb devPage 0x1AC 0 true

/-- CTX_READ (R329). -/
def execCtxRead (id : Ident) (s : State) : Host.Outcome State Fault Refusal := .next (guardW id devPage 0x1A8 s (actCtxCmd 1))
/-- CTX_CREATE (R329). -/
def execCtxCreate (id : Ident) (s : State) : Host.Outcome State Fault Refusal := .next (guardW id devPage 0x1A8 s (actCtxCmd 2))
/-- CTX_MODIFY (R329). -/
def execCtxModify (id : Ident) (s : State) : Host.Outcome State Fault Refusal := .next (guardW id devPage 0x1A8 s (actCtxCmd 3))
/-- CTX_SWAP_OUT (R329). -/
def execCtxSwapOut (id : Ident) (s : State) : Host.Outcome State Fault Refusal := .next (guardW id devPage 0x1A8 s (actCtxCmd 4))
/-- CTX_SWAP_IN (R329). -/
def execCtxSwapIn (id : Ident) (s : State) : Host.Outcome State Fault Refusal := .next (guardW id devPage 0x1A8 s (actCtxCmd 5))
/-- CTX_DESTROY (R329). -/
def execCtxDestroy (id : Ident) (s : State) : Host.Outcome State Fault Refusal := .next (guardW id devPage 0x1A8 s (actCtxCmd 6))

/-- A context command ends: BUSY falls and ERR tells the outcome (R329). -/
def ctxCmdDone (s : State) : State :=
  match s.ctxCmd with
  | none => s
  | some e => ({ s with ctxCmd := none }.wb devPage 0x1AC 0 false).wf devPage 0x1AC 15 8 e

/-- CTX_CMD_DONE (R329). -/
def execCtxCmdDone (s : State) : Host.Outcome State Fault Refusal := .next (ctxCmdDone s)

end Sys2Proof.Machine
end

