-- ==== Sys2Proof/Machine/Ingress.lean ====
section
/-! DEFINITION. Stream ingress (R475-R490, R499-R502): flows, the ST 2110 and Urelud packets, writing frames into the stores, and
ports; and the motion-sensor ports (R495-R498, R504). -/
namespace Sys2Proof.Machine

/-! ### Flows (R476, R477, R501) -/

/-- A flow. -/
def State.flow (s : State) (f : Nat) : FlowSt := NMap.get {} s.flows f
/-- The state with a flow changed. -/
def State.modFlow (s : State) (f : Nat) (g : FlowSt → FlowSt) : State := { s with flows := NMap.put s.flows f (g (s.flow f)) }

/-- A field of FLOW_CFG. -/
def State.flowCfg (s : State) (f hi lo : Nat) : Nat := s.rf (flowPage f) 0x100 hi lo
/-- PROTO of a flow. -/
def State.flowProto (s : State) (f : Nat) : Nat := s.flowCfg f 1 0
/-- HG of a flow. -/
def State.flowHg (s : State) (f : Nat) : Nat := s.flowCfg f 6 5
/-- REF of a flow. -/
def State.flowRefs (s : State) (f : Nat) : Bool := s.rb (flowPage f) 0x100 7
/-- The ports that a flow uses (R477). -/
def State.flowPorts (s : State) (f : Nat) : List Nat :=
  let p := s.flowCfg f 3 2
  if s.rb (flowPage f) 0x100 4 then [p, p + 1] else [p]
/-- The enabled flows. -/
def State.flowsOn (s : State) : List Nat := (List.range 16).filter fun f => s.en (flowPage f)
/-- The enabled flows that write a store of a head group. -/
def State.storeFlows (s : State) (g : Nat) (ref : Bool) : List Nat := s.flowsOn.filter fun f => s.flowHg f == g && s.flowRefs f == ref

/-- A flow takes a datagram of a port (R476). -/
def State.flowTakes (s : State) (p : Nat) (d : Dgram) (f : Nat) : Bool :=
  let o := if s.flowCfg f 3 2 = p then 0x104 else 0x110
  let udp := s.rd (flowPage f) (o + 8)
  (s.flowPorts f).contains p && d.dst == s.rd (flowPage f) o && d.dport == udp % 65536 &&
    (s.rd (flowPage f) (o + 4) == 0 || d.src == s.rd (flowPage f) (o + 4)) && (udp / 65536 == 0 || d.sport == udp / 65536)

/-- A packet of a flow is discarded and counted: 0x5A ING_LATE, 0x5B ING_MALFORMED. -/
def flowDrop (f code : Nat) (s : State) : State := s.tally (flowPage f) code

/-- The packets that leave the window when the greatest number becomes `t`: those with one copy are counted (R477). -/
def slideWindow (f t : Nat) (s : State) : State :=
  let x := s.flow f
  let w := s.rd (flowPage f) 0x12C
  let inside (q : Nat) : Bool := decide (((t + 2 ^ 32 - q) % 2 ^ 32) < w)
  let lone := if s.rb (flowPage f) 0x100 4 then (x.seen.filter fun e => !inside e.1 && e.2 != 3).length else 0
  ((s.incSat (flowPage f) 0x144 lone).sumAdd 5 lone).modFlow f fun y => { y with top := some t, seen := y.seen.filter fun e => inside e.1 }

/-- What R477 says of a sequence number: accepted, a duplicate, or late. -/
inductive SeqCase where
  | accepted
  | duplicate
  | late
deriving DecidableEq, Repr

/-- The case of a sequence number of a flow (R477). -/
def State.seqCase (s : State) (f q : Nat) : SeqCase :=
  match (s.flow f).top with
  | none => .accepted
  | some t =>
    if laterFrame q t then .accepted
    else if s.rd (flowPage f) 0x12C ≤ (t + 2 ^ 32 - q) % 2 ^ 32 then .late
    else if (NMap.find (s.flow f).seen q).isSome then .duplicate else .accepted

/-- A packet of a flow on a path (0 or 1) is checked by its sequence number, and goes on when it is accepted (R477, R500). -/
def takeSeq (f path q : Nat) (go : State → State) (s0 : State) : State :=
  let s := s0.modFlow f fun x => if path = 0 then { x with lastA := some s0.reading } else { x with lastB := some s0.reading }
  let note (t : State) : State := t.modFlow f fun x => { x with seen := NMap.put x.seen q (NMap.get 0 x.seen q ||| 2 ^ path) }
  match s.seqCase f q with
  | .late => flowDrop f 0x5A s
  | .duplicate => note s
  | .accepted =>
    let s1 := match (s.flow f).top with
      | none => s.modFlow f fun x => { x with top := some q }
      | some t => if laterFrame q t then slideWindow f q s else s
    go ((note s1).inc64 (flowPage f) 0x138)

/-! ### Rows of a slot (R487, R489) -/

/-- An interval of pixels joined to the intervals of a row, kept sorted and apart. -/
def joinIv (a b : Nat) : List (Nat × Nat) → List (Nat × Nat)
  | [] => [(a, b)]
  | (c, d) :: r => if b < c then (a, b) :: (c, d) :: r else if d < a then (c, d) :: joinIv a b r else joinIv (min a c) (max b d) r

/-- The pixels of [a, w) that no interval covers. -/
def gapsIv (w : Nat) : Nat → List (Nat × Nat) → List (Nat × Nat)
  | a, [] => if a < w then [(a, w)] else []
  | a, (c, d) :: r => (if a < c then [(a, min c w)] else []) ++ gapsIv w (max a d) r

/-- The intervals of a row of a plane that have arrived. -/
def State.rowIvs (s : State) (k plane row : Nat) : List (Nat × Nat) := NMap.get [] (s.slot k).rows (plane * 16384 + row)

/-- Input rows of a row group (R487). -/
def State.groupRows (s : State) (h rg : Nat) : List Nat :=
  let a := rg * s.hRowGroup h
  (List.range (min (s.hRowGroup h) (s.hHeight h - a))).map fun j => a + j

/-- Every byte of a row group has been written in every plane of a slot (R487). -/
def State.groupWhole (s : State) (k h rg : Nat) : Bool :=
  (s.groupRows h rg).all fun r => (List.range (s.hPlanes h)).all fun p => gapsIv (s.hWidth h) 0 (s.rowIvs k p r) == []

/-- The digest of a row group: SHAKE256 over its bytes of every plane in plane order (R363). -/
def State.groupDigest (s : State) (h rg : Nat) : List Byte :=
  shake256 ((List.range (s.hPlanes h)).flatMap fun p => (s.groupRows h rg).flatMap fun r =>
    s.ldBytes (s.hPlane h p + r * s.hStride h p) (s.hWidth h * s.hPixel h p)) 32

/-- The flag of a row group is set, and its ROWGROUP entry written (R363, R365, R487). -/
def flagGroup (g : Nat) (ref : Bool) (i rg : Nat) (loss : Bool) (s : State) : State :=
  let h := s.slotHdr g ref i
  let s1 := s.setG (s.hFlagDrift h) (s.hFlagBase h + rg) true
  let s2 := s1.modSlot (slotKey g ref i) fun x => { x with flagged := NSet.add x.flagged rg }
  recInput 0x01 (g + 4 * b2n ref + 8 * b2n loss + 256 * rg) (s.hFrame h) (s.groupDigest h rg) s2

/-- Pixels written into a row of a plane, unless the row's group is flagged; the group's flag when it is then whole (R487). -/
def putPixels (g : Nat) (ref : Bool) (i plane row col : Nat) (bytes : List Byte) (s : State) : State :=
  let h := s.slotHdr g ref i
  let k := slotKey g ref i
  let rg := row / max 1 (s.hRowGroup h)
  let px := s.hPixel h plane
  if NSet.has (s.slot k).flagged rg || bytes == [] then s
  else
    let s1 := storeBytes 7 none (s.hPlane h plane + row * s.hStride h plane + col * px) bytes s
    let key := plane * 16384 + row
    let s2 := s1.modSlot k fun x => { x with rows := NMap.put x.rows key (joinIv col (col + bytes.length / px) (NMap.get [] x.rows key)) }
    if s2.groupWhole k h rg then flagGroup g ref i rg false s2 else s2

/-- Every byte of a plane lies in DRAM or the galleries (R490). -/
def State.planeOk (s : State) (h plane : Nat) : Bool :=
  let r := nth (0, 0) (s.planeRanges h) plane
  match regionOf r.1, regionOf (r.1 + r.2 - 1) with
  | .dram, .dram => true
  | .gallery _, .gallery _ => true
  | _, _ => false

/-! ### Frames of a slot (R486, R488, R489) -/

/-- The flow that carries a plane into a slot: the enabled one, or one that has been disabled after it ended the frame there (R489). -/
def State.planeFlow (s : State) (g : Nat) (ref : Bool) (k plane : Nat) : Option Nat :=
  let carries (f : Nat) : Bool := s.rb (flowPage f) 0x100 (8 + plane)
  ((s.storeFlows g ref).find? carries).orElse fun _ =>
    (List.range 16).find? fun f => NSet.has (s.slot k).ended f && s.flowHg f == g && s.flowRefs f == ref && carries f

/-- The bytes of a row that have not arrived become zero; the row is lost when there are any (R489). -/
def fillRow (g : Nat) (ref : Bool) (i plane row : Nat) (a : State × Bool) : State × Bool :=
  let s := a.1
  let h := s.slotHdr g ref i
  let px := s.hPixel h plane
  match gapsIv (s.hWidth h) 0 (s.rowIvs (slotKey g ref i) plane row) with
  | [] => a
  | gs =>
    let s1 := if s.planeOk h plane then gs.foldl (fun t e =>
      storeBytes 7 none (s.hPlane h plane + row * s.hStride h plane + e.1 * px) (List.replicate ((e.2 - e.1) * px) 0) t) s else s
    match s.planeFlow g ref (slotKey g ref i) plane with
    | some f => (((s1.incSat (flowPage f) 0x140).tally (flowPage f) 0x5C).irq (flowPage f) 8, true)
    | none => (s1, true)

/-- The frame of a slot ends (R489): the fill, LOSS, the flags not yet set, and COMPLETE. -/
def slotEnd (g : Nat) (ref : Bool) (i : Nat) (s : State) : State :=
  let h := s.slotHdr g ref i
  let k := slotKey g ref i
  let fill := (List.range (s.hPlanes h)).foldl (fun a p => (List.range (s.hHeight h)).foldl (fun b r => fillRow g ref i p r b) a) (s, false)
  let loss := fill.2 || !(s.slot k).pose
  let s1 := fill.1
  let s2 := ((List.range (s1.hGroups h)).filter fun rg => !NSet.has (s1.slot k).flagged rg).foldl (fun t rg => flagGroup g ref i rg true t) s1
  let w := s2.ld (h + 4) 4
  let s3 := storeNum (h + 4) 4 (setBit (setBit (setBit w 0 false) 1 true) 2 (bit w 2 || loss)) s2
  if ref then refComplete g i s3 else s3

/-- A flow has ended the frame of a slot; the slot's frame ends when every enabled flow of the store has (R488). -/
def slotFlowEnd (g : Nat) (ref : Bool) (i f : Nat) (s : State) : State :=
  let k := slotKey g ref i
  let h := s.slotHdr g ref i
  if !s.hBit h 0 then s
  else
    let s1 := s.modSlot k fun x => { x with ended := NSet.add x.ended f }
    if (s1.storeFlows g ref).all fun e => NSet.has (s1.slot k).ended e then slotEnd g ref i s1 else s1

/-- A flow ends its open frame (R488). -/
def flowEnd (f : Nat) (s : State) : State :=
  match (s.flow f).openN with
  | none => s
  | some n =>
    let g := s.flowHg f
    let ref := s.flowRefs f
    let s1 := s.modFlow f fun x => { x with openN := none, ended := 0 }
    match (List.range (s.slotCount g ref)).find? fun i => s.hFrame (s.slotHdr g ref i) == n with
    | some i => slotFlowEnd g ref i f s1
    | none => s1

/-- A flow ends frame `n` when that is the one it has open: it has ended an older one already (R488). -/
def flowEndOf (f n : Nat) (s : State) : State := if (s.flow f).openN = some n then flowEnd f s else s

/-- A slot's frame ends when every enabled flow that writes the slot has ended it, after a flow has left (R488). -/
def slotLeft (g : Nat) (ref : Bool) (s : State) (i : Nat) : State :=
  let x := s.slot (slotKey g ref i)
  if s.hBit (s.slotHdr g ref i) 0 && x.ended != [] && (s.storeFlows g ref).all fun e => NSet.has x.ended e then slotEnd g ref i s else s

/-- A flow is disabled: its open frame ends, and the slots of its store no longer wait for it (R488, R502). -/
def flowLeave (f : Nat) (s : State) : State :=
  (List.range (s.slotCount (s.flowHg f) (s.flowRefs f))).foldl (slotLeft (s.flowHg f) (s.flowRefs f)) (flowEnd f s)

/-- A packet of frame `n` ends, for its flow, every earlier frame that a slot of the store still holds open (R488). -/
def flowPasses (f n : Nat) (s : State) : State :=
  let g := s.flowHg f
  let ref := s.flowRefs f
  (List.range (s.slotCount g ref)).foldl (fun t i =>
    let h := t.slotHdr g ref i
    if t.hBit h 0 && laterFrame n (t.hFrame h) then slotFlowEnd g ref i f t else t)
    (match (s.flow f).openN with
      | some m => if laterFrame n m then s.modFlow f fun x => { x with openN := none, ended := 0 } else s
      | none => s)

/-- A reference frame has been dropped, or is older than one that has (R95). -/
def State.refGone (s : State) (g n : Nat) : Bool := (s.group g).refDrop.any fun d => !laterFrame n d

/-- The slot into which frame `n` of a flow goes (R56, R95): none when both reference slots are HELD, or the frame has been dropped. -/
def State.slotFor (s : State) (g : Nat) (ref : Bool) (n : Nat) : Option Nat :=
  if !ref then some (n % s.inputDepth g)
  else
    let h (i : Nat) : Nat := s.slotHdr g true i
    match (List.range 2).find? fun i => s.hFrame (h i) == n with
    | some i => some i
    | none => if s.refGone g n then none else match s.hBit (h 0) 3, s.hBit (h 1) 3 with
      | true, true => none
      | true, false => some 1
      | false, true => some 0
      | false, false => if laterFrame (s.hFrame (h 0)) (s.hFrame (h 1)) then some 1 else some 0

/-- A reference frame of a head group finds both slots HELD: it is dropped, counted and reported once (R95, R106). -/
def refDropped (g n : Nat) (s : State) : State :=
  if s.refGone g n then s else ((s.tally cagePage 0x1D).irq cagePage 12).modGroup g fun x => { x with refDrop := some n }

/-- A packet of frame `n` of a flow reaches its slot (R486, R488, R500): `good` is what R480, R485 and R490 ask of it there, and
`write` writes it. -/
def toSlot (f n : Nat) (good : Nat → State → Option State) (write : Nat → State → State) (s : State) : State :=
  let g := s.flowHg f
  let ref := s.flowRefs f
  match s.slotFor g ref n with
  | none => refDropped g n s
  | some i =>
    let h := s.slotHdr g ref i
    match good i s with
    | some t => t
    | none =>
      let m := s.hFrame h
      if n = m then
        if !s.hBit h 0 then flowDrop f 0x5A (flowPasses f n s)
        else
          let s1 := flowPasses f n s
          let s2 := if NSet.has (s1.slot (slotKey g ref i)).ended f then s1
            else (s1.wr (flowPage f) 0x134 n).modFlow f fun x => { x with openN := some n }
          write i s2
      else if laterFrame n m then
        let s2 := flowPasses f n s
        let s3 := if s2.hBit h 0 then s2.tally (flowPage f) 0x5D else s2
        let s4 := openSlot g ref i n s3
        write i ((s4.wr (flowPage f) 0x134 n).modFlow f fun x => { x with openN := some n, ended := 0 })
      else flowDrop f 0x5A s


/-! ### ST 2110 (R479-R482) -/

/-- The frame of an RTP timestamp (R481): none when it has no offset from the frame of reference. -/
def rtpFrame (f ts : Nat) (s : State) : Option (Nat × State) :=
  match (s.flow f).tsRef with
  | none => let n := s.rd (flowPage f) 0x124; some (n, s.modFlow f fun x => { x with tsRef := some (n, ts) })
  | some (n0, t0) =>
    if ts = t0 then some (n0, s)
    else
      let step := s.rd (flowPage f) 0x120
      let k := rndQuot (sext 32 ((ts + 2 ^ 32 - t0) % 2 ^ 32) * (step / 65536 : Nat)) (step % 65536 : Nat)
      if k = 0 then none
      else let n := toField 32 ((n0 : Int) + k); some (n, s.modFlow f fun x => { x with tsRef := some (n, ts) })

/-- A packet whose plane does not lie in DRAM or the galleries (R490). -/
def flowAddr (f : Nat) (s : State) : State := s.fault { page := flowPage f, code := 0xE002 }

/-- Bits per sample of a slot's colour format, for ST 2110-20 (R480): 10 for C30, 12 for C36, none otherwise. -/
def State.sampleBits (s : State) (h : Nat) : Option Nat := match s.hColour h with
  | 0 => some 10
  | 1 => some 12
  | _ => none

/-- The sample rows of a packet keep R480 in a slot. -/
def State.rowsOk (s : State) (h : Nat) (rows : List SampleRow) : Bool := match s.sampleBits h with
  | none => false
  | some b => rows.all fun r =>
    let pg := if b = 10 then (15, 4) else (9, 2)
    r.data.length % pg.1 == 0 && decide (r.row < s.hHeight h) && decide (r.off + r.data.length / pg.1 * pg.2 ≤ s.hWidth h)

/-- An ST 2110-20 packet of a flow (R480, R488). -/
def videoPacket (f path : Nat) (b : List Byte) (s : State) : State :=
  match parseRtp b with
  | none => flowDrop f 0x5B s
  | some r => match sampleRows r.body with
    | none => flowDrop f 0x5B s
    | some rows =>
      if r.pt ≠ s.flowCfg f 22 16 ∨ rows.any (·.field) then flowDrop f 0x5B s
      else takeSeq f path r.extSeq (fun s0 => match rtpFrame f r.ts s0 with
        | none => flowDrop f 0x5A s0
        | some (n, s1) =>
          let g := s1.flowHg f
          let ref := s1.flowRefs f
          let good (i : Nat) (t : State) : Option State :=
            let h := t.slotHdr g ref i
            if !t.rowsOk h rows then some (flowDrop f 0x5B t) else if !t.planeOk h 0 then some (flowAddr f t) else none
          let write (i : Nat) (t : State) : State :=
            let h := t.slotHdr g ref i
            let bits := (t.sampleBits h).getD 10
            let ycc := t.hf h 0x0C 4 5 4 == 2
            let t1 := rows.foldl (fun u e => putPixels g ref i 0 e.row e.off (unpackPixels bits ycc e.data) u) t
            if r.marker then flowEndOf f n t1 else t1
          toSlot f n good write s1) s

/-- A pose record is written to RENDER_POSE of a slot (R482, R484). -/
def writePose (g : Nat) (ref : Bool) (i : Nat) (rec : List Byte) (s : State) : State :=
  (storeBytes 7 none (s.slotHdr g ref i + 0x60) rec s).modSlot (slotKey g ref i) fun x => { x with pose := true }

/-- An ST 2110-40 packet of a flow (R482). -/
def ancPacket (f path : Nat) (b : List Byte) (s : State) : State :=
  match parseRtp b with
  | none => flowDrop f 0x5B s
  | some r =>
    let anc := s.rd (flowPage f) 0x11C
    let ps := ancPackets (leAt r.body 4 1) r.body 64
    match ps.find? fun e => e.1 == anc % 256 && e.2.1 == anc / 256 && e.2.2.length == 64 with
    | none => s
    | some e => takeSeq f path r.extSeq (fun s0 => match rtpFrame f r.ts s0 with
      | none => flowDrop f 0x5A s0
      | some (n, s1) =>
        let rec' := poseOfBe (e.2.2.map fun w => BitVec.ofNat 8 w)
        toSlot f n (fun _ _ => none) (fun i t => writePose (t.flowHg f) (t.flowRefs f) i rec' t) s1) s

/-! ### Urelud (R483-R485) -/

/-- The plane of a TYPE: its bit in FLOW_CFG.PLANES (R483, R501). -/
def ureludPlane (t : Nat) : Option Nat :=
  if 1 ≤ t ∧ t ≤ 3 then some (t - 1) else if 0x10 ≤ t ∧ t ≤ 0x13 then some (3 + (t - 0x10)) else if t = 0x20 then some 7 else none

/-- Each container of a payload with its bytes reversed (R484). -/
def swapContainers (px : Nat) (b : List Byte) : List Byte := (List.range (b.length / px)).flatMap fun i => (sliceL b (i * px) px).reverse

/-- The slot-dependent checks of R485 and R490; none when the packet may be written. -/
def ureludCheck (f plane row col count len : Nat) (i : Nat) (t : State) : Option State :=
  let h := t.slotHdr (t.flowHg f) (t.flowRefs f) i
  if plane = 7 then (if row ≠ 0 ∨ col ≠ 0 ∨ count ≠ 64 ∨ len ≠ 64 then some (flowDrop f 0x5B t) else none)
  else if (3 ≤ plane ∧ t.hMasks h ≤ plane - 3) ∨ len ≠ count * t.hPixel h plane ∨ t.hWidth h < col + count ∨ t.hHeight h ≤ row then
    some (flowDrop f 0x5B t)
  else if !t.planeOk h plane then some (flowAddr f t) else none

/-- A flow has sent END for a plane of the frame that it has open; the last one ends the frame (R488). -/
def planeEnd (f n plane : Nat) (s : State) : State :=
  if (s.flow f).openN ≠ some n then s
  else
    let s1 := s.modFlow f fun x => { x with ended := x.ended ||| 2 ^ plane }
    if ((s1.flow f).ended &&& s1.flowCfg f 15 8) == s1.flowCfg f 15 8 then flowEnd f s1 else s1

/-- A Urelud packet of a flow (R483-R485). -/
def ureludPacket (f path : Nat) (b : List Byte) (s : State) : State :=
  let row := beAt b 12 2
  let col := beAt b 14 2
  let data := b.drop 20
  match ureludPlane (leAt b 3 1) with
  | none => flowDrop f 0x5B s
  | some pl =>
    if b.length < 20 ∨ beAt b 0 2 ≠ 0x5552 ∨ leAt b 2 1 ≠ 1 ∨ leAt b 18 1 / 2 ≠ 0 ∨ leAt b 19 1 ≠ 0 ∨ !s.rb (flowPage f) 0x100 (8 + pl) then
      flowDrop f 0x5B s
    else takeSeq f path (beAt b 4 4) (fun s0 =>
      let write (i : Nat) (t : State) : State :=
        let g := t.flowHg f
        let ref := t.flowRefs f
        let t1 := if pl = 7 then writePose g ref i (poseOfBe data) t
          else putPixels g ref i pl row col (swapContainers (t.hPixel (t.slotHdr g ref i) pl) data) t
        if bit (leAt b 18 1) 0 then planeEnd f (beAt b 8 4) pl t1 else t1
      toSlot f (beAt b 8 4) (ureludCheck f pl row col (beAt b 16 2) data.length) write s0) s

/-! ### Ports (R476, R499) -/

/-- A datagram of a flow, by the flow's protocol. -/
def flowPacket (f path : Nat) (b : List Byte) (s : State) : State := match s.flowProto f with
  | 0 => videoPacket f path b s
  | 1 => ancPacket f path b s
  | _ => ureludPacket f path b s

/-- The membership reports of a flow: one for its destination group on each port it uses (R475). -/
def joinGroups (f : Nat) (s : State) : State :=
  (s.flowPorts f).foldl (fun t p =>
    let g := t.rd (flowPage f) (if t.flowCfg f 3 2 = p then 0x104 else 0x110)
    if g / 2 ^ 28 = 14 then t.send (.igmp p g) else t) s

/-- A membership query on a port: firmware reports the groups of the enabled flows that use it, for the group asked for (R475). -/
def answerQuery (p g : Nat) (s : State) : State :=
  let groups := (s.flowsOn.filter fun f => (s.flowPorts f).contains p).map fun f =>
    s.rd (flowPage f) (if s.flowCfg f 3 2 = p then 0x104 else 0x110)
  (groups.filter fun x => x / 2 ^ 28 == 14 && (g == 0 || x == g)).eraseDups.foldl (fun t x => t.send (.igmp p x)) s

/-- A frame arrives at a port (R475, R476, R499): one whose check sequence fails is counted and discarded. -/
def portPacket (p : Nat) (b : List Byte) (s : State) : State :=
  if !s.pageOn (portPage p) then s
  else if !fcsOk b then s.incSat (portPage p) 0x114
  else match ingressFrame (s.rb (portPage p) 0x104 2) b with
    | none => s
    | some ip =>
      let s1 := (s.inc64 (portPage p) 0x118).tally (portPage p) 0x58
      match parseUdp ip with
      | none => match igmpQuery ip with
        | some g => answerQuery p g s1
        | none => s1
      | some d => match s1.flowsOn.find? (s1.flowTakes p d) with
        | none => s1.tally (portPage p) 0x59
        | some f => flowPacket f (if s1.flowCfg f 3 2 = p then 0 else 1) d.payload s1

/-- ST2110_PACKET (R480). -/
def execSt2110Packet (port : Fin 4) (frame : List Byte) (s : State) : Host.Outcome State Fault Refusal := .next (portPacket port frame s)
/-- ANC_PACKET (R482). -/
def execAncPacket (port : Fin 4) (frame : List Byte) (s : State) : Host.Outcome State Fault Refusal := .next (portPacket port frame s)
/-- URELUD_PACKET (R484). -/
def execUreludPacket (port : Fin 4) (frame : List Byte) (s : State) : Host.Outcome State Fault Refusal := .next (portPacket port frame s)

/-- FLOW_TIMEOUT (R488). -/
def execFlowTimeout (flow : Fin 16) (s : State) : Host.Outcome State Fault Refusal :=
  .next (if s.en (flowPage flow) && s.pageOn (flowPage flow) then flowEnd flow s else s)

/-- What refuses the enable of a flow (R502). -/
def flowRefuse (f : Nat) (s : State) : Nat :=
  let ports := s.flowPorts f
  let planes := s.flowCfg f 15 8
  let step := s.rd (flowPage f) 0x120
  let w := s.rd (flowPage f) 0x12C
  let protect := s.rb (flowPage f) 0x100 4
  let others := s.flowsOn.filter fun e => e != f
  if s.flowProto f = 3 ∨ (s.flowProto f = 0 ∧ planes ≠ 1) ∨ (s.flowProto f = 1 ∧ planes ≠ 0x80) ∨
      (protect ∧ (s.flowCfg f 3 2 % 2 = 1 ∨ ports.any fun p => !s.rb (portPage p) 0x104 1)) ∨
      (ports.any fun p => decide (4 ≤ (others.filter fun e => (s.flowPorts e).contains p).length)) ∨
      (others.any fun e => s.flowHg e == s.flowHg f && s.flowRefs e == s.flowRefs f && (s.flowCfg e 15 8 &&& planes) != 0) ∨
      step % 65536 = 0 ∨ step / 65536 = 0 ∨ s.rd (flowPage f) 0x128 = 0 ∨ w < 64 ∨ 4096 < w then 0xE001 else 0

/-- A write of CTRL of a flow (R502). -/
def actFlowCtrl (id f v : Nat) (s : State) : State :=
  ctrlWrite id (flowPage f) v (flowRefuse f) (fun t => joinGroups f (t.modFlow f fun _ => {})) (flowLeave f) s

/-- FLOW_ENABLE (R502). -/
def execFlowEnable (id : Ident) (flow : Fin 16) (s : State) : Host.Outcome State Fault Refusal :=
  .next (guardW id (flowPage flow) 0x008 s fun t => actFlowCtrl id flow (t.ctrlWith (flowPage flow) true) t)
/-- FLOW_DISABLE (R502). -/
def execFlowDisable (id : Ident) (flow : Fin 16) (s : State) : Host.Outcome State Fault Refusal :=
  .next (guardW id (flowPage flow) 0x008 s fun t => actFlowCtrl id flow (t.ctrlWith (flowPage flow) false) t)

/-- INGRESS_LINK_CHANGE (R499). -/
def execIngressLinkChange (port : Fin 4) (up : Bool) (fec : Bool) (s : State) : Host.Outcome State Fault Refusal :=
  .next (if s.pageOn (portPage port) then s.wf (portPage port) 0x100 1 0 (b2n up + 2 * b2n fec) else s)

/-- PORT_STAT.FLOWS: enabled flows that use the port. -/
def State.portFlows (s : State) (p : Nat) : Nat := (s.flowsOn.filter fun f => (s.flowPorts f).contains p).length

/-- FLOW_STAT (R500): OPEN, and whether a packet came on a path in the last ms. -/
def State.flowStat (s : State) (f : Nat) : Nat :=
  let x := s.flow f
  let fresh (t : Option Nat) : Bool := match t with
    | some v => decide ((s.reading + 2 ^ 64 - v) % 2 ^ 64 ≤ 1000000)
    | none => false
  b2n x.openN.isSome + 2 * b2n (fresh x.lastA) + 4 * b2n (fresh x.lastB)

/-! ### Motion-sensor ports (R495-R498, R504) -/

/-- An SPI port. -/
def State.spi (s : State) (p : Nat) : SpiSt := NMap.get {} s.spis p
/-- The state with an SPI port changed. -/
def State.modSpi (s : State) (p : Nat) (f : SpiSt → SpiSt) : State := { s with spis := NMap.put s.spis p (f (s.spi p)) }
/-- An SPI port works. -/
def State.spiOn (s : State) (p : Nat) : Bool := s.en (spiPage p) && s.pageOn (spiPage p)
/-- P in ns (R498). -/
def State.spiP (s : State) (p : Nat) : Nat := 1000 * s.rd (spiPage p) 0x10C
/-- STUCK of an SPI port. -/
def State.spiStuck (s : State) (p : Nat) : Bool := s.rb (spiPage p) 0x114 2

/-- A transaction starts for a sample: it sends TXN bytes of SPI_TX, byte 0 first, and reads RXN (R496). -/
def spiStart (p : Nat) (x : SpiSample) (s : State) : State :=
  let pg := spiPage p
  (s.send (.spi p (s.rf pg 0x100 1 0) (s.rf pg 0x100 15 8) ((leBytes 4 (s.rd pg 0x108)).take (s.rf pg 0x104 2 0)) (s.rf pg 0x104 12 8))).modSpi p
    fun y => { y with job := some x }

/-- A sample is taken: a transaction starts, or the sample waits, replacing one that waits (R498). -/
def spiSample (p : Nat) (x : SpiSample) (s : State) : State :=
  let q := s.spi p
  match q.job, q.waiting with
  | none, _ => if s.quiet (spiPage p) then s else spiStart p x s
  | some _, none => s.modSpi p fun y => { y with waiting := some x }
  | some _, some _ => ((s.incSat (spiPage p) 0x120).tally (spiPage p) 0x63).modSpi p fun y => { y with waiting := some { x with overrun := true } }

/-- An active edge of the data-ready input (R498). -/
def drdyEdge (p : Nat) (s : State) : State :=
  if !s.spiOn p then s
  else
    let early := match (s.spi p).last with
      | some t => decide (4 * ((s.reading + 2 ^ 64 - t) % 2 ^ 64) < s.spiP p)
      | none => false
    if early then (s.incSat (spiPage p) 0x11C).tally (spiPage p) 0x61
    else spiSample p { stamp := s.reading, synth := false } ((s.wb (spiPage p) 0x114 3 false).modSpi p fun y => { y with last := some s.reading })

/-- DRDY_EDGE (R498). -/
def execDrdyEdge (port : Fin 2) (s : State) : Host.Outcome State Fault Refusal := .next (drdyEdge port s)

/-- A time has passed since the last accepted edge or synthetic start, where there has been one (R498, log entry 36). -/
def State.spiPast (s : State) (p n : Nat) : Bool := (s.spi p).last.all fun t => decide (n ≤ (s.reading + 2 ^ 64 - t) % 2 ^ 64)

/-- The input has been held active for 2P (R498). -/
def drdyStuck (p : Nat) (s : State) : State :=
  if !s.spiOn p || s.spiStuck p || !s.spiPast p (2 * s.spiP p) then s else ((s.wb (spiPage p) 0x114 2 true).tally (spiPage p) 0x62).irq (spiPage p) 8

/-- DRDY_STUCK (R498). -/
def execDrdyStuck (port : Fin 2) (s : State) : Host.Outcome State Fault Refusal := .next (drdyStuck port s)

/-- A synthetic start while STUCK, every P (R498). -/
def spiSynth (p : Nat) (s : State) : State :=
  if !s.spiOn p || !s.spiStuck p || !s.spiPast p (s.spiP p) then s
  else spiSample p { stamp := s.reading, synth := true } (s.modSpi p fun y => { y with last := some s.reading })

/-- SPI_SYNTH_START (R498). -/
def execSpiSynthStart (port : Fin 2) (s : State) : Host.Outcome State Fault Refusal := .next (spiSynth port s)

/-- DRDY_INACTIVE (R498). -/
def execDrdyInactive (port : Fin 2) (s : State) : Host.Outcome State Fault Refusal :=
  .next (if s.spiOn port then s.wb (spiPage port) 0x114 2 false else s)

/-- No accepted edge has come for 2P (R498). -/
def drdyLost (p : Nat) (s : State) : State :=
  if !s.spiOn p || s.spiStuck p || s.rb (spiPage p) 0x114 3 || !s.spiPast p (2 * s.spiP p) then s else (s.wb (spiPage p) 0x114 3 true).irq (spiPage p) 9

/-- DRDY_LOST (R498). -/
def execDrdyLost (port : Fin 2) (s : State) : Host.Outcome State Fault Refusal := .next (drdyLost port s)

/-- A transaction ends: its ring entry and its MOTION entry; a waiting sample starts the next (R497, R498). -/
def spiDone (p : Nat) (data : List Byte) (s : State) : State :=
  match (s.spi p).job with
  | none => s
  | some x =>
    let n := s.rf (spiPage p) 0x104 12 8
    let k := s.rd (spiPage p) 0x118
    let d := (data ++ List.replicate n 0).take n
    let a := galBase + s.rd (spiPage p) 0x110 + 64 * (k % 64)
    let e := leBytes 4 k ++ leBytes 4 (n + 256 * b2n x.synth + 512 * b2n x.overrun) ++ leBytes 8 x.stamp ++ d ++
      List.replicate (24 - n) 0 ++ leBytes 20 0 ++ leBytes 4 k
    let s1 := recInput 0x04 (p + 256 * n) 0 (leBytes 8 x.stamp ++ d) ((storeBytes 7 none a e s).incWrap (spiPage p) 0x118)
    let s2 := s1.modSpi p fun y => { y with job := none, waiting := none }
    match (s.spi p).waiting with
    | some y => spiStart p y s2
    | none => s2

/-- SPI_TRANSACTION_DONE (R497). -/
def execSpiTransactionDone (port : Fin 2) (data : List Byte) (s : State) : Host.Outcome State Fault Refusal :=
  .next (if s.pageOn (spiPage port) then spiDone port data s else s)

/-- What refuses the enable of an SPI port (R504). -/
def spiRefuse (p : Nat) (s : State) : Nat :=
  let div := s.rf (spiPage p) 0x100 15 8
  let tx := s.rf (spiPage p) 0x104 2 0
  let rx := s.rf (spiPage p) 0x104 12 8
  let per := s.rd (spiPage p) 0x10C
  if div < 2 ∨ 4 < tx ∨ rx < 1 ∨ 24 < rx ∨ per < 100 ∨ 1000000 < per ∨ 48 * per < 2 * (8 * (tx + rx) + 2) * div ∨
      galSize < s.rd (spiPage p) 0x110 + 4096 then 0xE004 else 0

/-- A write of CTRL of an SPI port (R504): entries count from 0 after an enable. -/
def actSpiCtrl (id p v : Nat) (s : State) : State :=
  ctrlWrite id (spiPage p) v (spiRefuse p) (fun t => ((t.wr (spiPage p) 0x118 0).wr (spiPage p) 0x114 0).modSpi p fun _ => {})
    (fun t => (t.wr (spiPage p) 0x114 0).modSpi p fun _ => {}) s

/-- SPI_ENABLE (R504). -/
def execSpiEnable (id : Ident) (port : Fin 2) (s : State) : Host.Outcome State Fault Refusal :=
  .next (guardW id (spiPage port) 0x008 s fun t => actSpiCtrl id port (t.ctrlWith (spiPage port) true) t)

/-- SPI_STAT (R504). -/
def State.spiStat (s : State) (p : Nat) : Nat :=
  b2n (s.spi p).job.isSome + 2 * b2n (s.spi p).waiting.isSome + s.rd (spiPage p) 0x114 / 4 * 4

end Sys2Proof.Machine
end

