-- ==== Sys2Proof/Machine/Power.lean ====
section
/-! DEFINITION. Power domains, device power states, resets and the thermal throttle (R609-R632), and the thermal sensors (R650).-/
namespace Sys2Proof.Machine

/-! ### Work in progress -/

/-- The cage has work in progress: a launched band that is neither complete nor due, a step of adaptation, a reduction, a slot that
loads (log entry 29). -/
def State.cageBusy (s : State) : Bool :=
  (s.bands.any fun e => e.2.launched && !e.2.due && !e.2.complete) || (s.adapt.any fun e => e.2.phase != 0) || s.red.isSome || s.slotLoading != []

/-- STAT.BUSY of a page: the block has work in progress (R35, log entry 29). -/
def State.pageBusy (s : State) (p : Nat) : Bool :=
  let i := pInst p
  let unit := let v := (s.unitState p).1; v == 1 || v == 2 || v == 3
  match pClass p with
  | 0x0 => if i = 0 then unit || s.ctxCmd.isSome else s.cageBusy
  | 0x1 => pageUnit p && unit
  | 0x2 | 0x3 => unit
  | 0x4 => unit || decide (s.rf p 0x138 9 8 = 3)
  | 0x5 => (NMap.get [] s.hoists i) != []
  | 0x6 => decide (2 ≤ (s.head i).timing)
  | 0x7 =>
    if decide (0x10 ≤ i) && decide (i < 0x20) then (s.flow (i - 0x10)).openN.isSome
    else if decide (0x20 ≤ i) && decide (i < 0x24) then (NMap.get ({} : CamSt) s.cams (i - 0x20)).inFrame
    else if 0x30 ≤ i then (NMap.get ({} : SpiSt) s.spis (i - 0x30)).job.isSome else false
  | 0x8 =>
    if i < 4 then (NMap.get ({} : AssaySt) s.assay i).frame.isSome || (NMap.get ({} : AssaySt) s.assay i).ended.isSome
    else s.mf.matchQ != [] || s.mf.flowQ != [] || s.mf.matchJob.isSome || s.mf.flowJob.isSome
  | 0x9 =>
    if i < 2 then (NMap.get ({} : Tiler) s.tilers i).queue != [] || (NMap.get ({} : Tiler) s.tilers i).job.isSome
    else (NMap.get ({} : Sorter) s.sorters (i - 2)).queue != [] || (NMap.get ({} : Sorter) s.sorters (i - 2)).job.isSome
  | 0xB => (NMap.get ({} : AditSt) s.adits i).queue != []
  | 0xC => s.rb p 0x148 0
  | 0xD => (s.port i).held != [] || (s.port i).queue != []
  | 0xE => s.boot.install.isSome || s.boot.att.isSome
  | 0xF => if i = 0 then s.power.change.isSome || s.power.rising != [] else if i = 1 then s.power.paused
    else if i = 3 then s.power.restarting != [] else false
  | _ => false

/-! ### What a domain holds (R616, R618) -/

/-- What drift `d` holds is lost, its gallery and face stores zeroed. -/
def State.loseDrift (s : State) (d : Nat) : State :=
  { (s.zero (galAddr d 0) (galAddr d 0 + galOne)).zero (fsAddr (64 * d) 0) (fsAddr (64 * d + 64) 0) with
    faces := NMap.delRange s.faces (64 * d) (64 * d + 64)
    gflags := s.gflags.filter fun k => k / 4096 != d
    sflags := s.sflags.filter fun k => k / 1024 != d
    hoists := (NMap.delRange s.hoists (8 * d) (8 * d + 8)).filter fun e => e.1 / 2 != 32 + d }

/-- What the cage and the device page keep. -/
def State.loseIod (s : State) : State :=
  { s with
    ctxs := [], runs := [], slotLast := [], parts := [], launches := [], ctxCmd := none, batchReqs := [], members := []
    bands := [], groups := [], sched := [], slotLoading := [], slotDesc := [], fwdPoses := [], adapt := [], lateSeen := []
    red := none, redWait := [], doneWatch := [], recGap := [], trecSeq := 0, haloGot := [], replayStop := false
    frameSum := List.replicate 8 0 }

/-- What the crosscut ports and the pair keep. -/
def State.loseXcut (s : State) : State :=
  let t : State := { s with xc := [], bcastLast := [], takePend := false, takeOut := false }
  if s.takeOut then t.send (.pin "TAKE_OUT" false) else t

/-- The stores of a domain lose what they hold (R618); a DRAM stack keeps its contents. -/
def State.loseStores (s : State) (d : Nat) : State :=
  let t : State := { s with launches := s.launches.filter fun e => !(decide (e.1 < 0x10000) && pageDomain e.1 == d) }
  if 1 ≤ d ∧ d ≤ 8 then t.loseDrift (d - 1)
  else if d = 9 ∨ d = 10 then { t with tilers := NMap.del t.tilers (d - 9), sorters := NMap.del t.sorters (d - 9) }
  else if d = 14 then t.loseIod
  else if 15 ≤ d ∧ d ≤ 18 then { t with heads := NMap.del t.heads (d - 15) }
  else if d = 19 then { t with flows := [], slots := [] }
  else if d = 20 then t.loseXcut
  else if d = 21 then { t with assay := [], mf := {} }
  else if 22 ≤ d ∧ d ≤ 25 then { t with cams := NMap.del t.cams (d - 22) }
  else if d = 27 then { t with spis := [] }
  else t

/-- The registers of a domain at their reset values, RWL registers excepted (R618). -/
def State.resetDomain (s : State) (d : Nat) : State :=
  let mine (k : Nat) : Bool := pageDomain (k / 1024) == d
  { s with
    regs := s.regs.filter fun e => !mine e.1 || isRwl (e.1 / 1024) (4 * (e.1 % 1024))
    held := s.held.filter fun e => !mine e.1
    latch := s.latch.filter fun e => !mine e.1 }

/-- A field of the settings message changes: the digest is due again (R356). -/
def sdTouch (s : State) : State := s.wb cagePage 0x654 0 false

/-- A domain goes off (R618). -/
def domainOff (d : Nat) (s : State) : State :=
  let s1 := (s.resetDomain d).loseStores d
  (if 1 ≤ d ∧ d ≤ 8 then sdTouch s1 else s1).wb pwrPage 0x10C d false

/-- The power domain of a core: manager, die managers, foremen; none for another identity (R13, R46, R616). -/
def coreDomain (id : Nat) : Option Nat :=
  if id = 1 then some 14 else if id = 2 ∨ id = 3 then some (7 + id) else if 0x20 ≤ id ∧ id < 0x40 then some (1 + (id - 0x20) / 4) else none

/-- A core runs: the manager once firmware has started, the others after BOOT_LOCK; not while it restarts or when it is retired
(R589, R590, R647-R649). -/
def State.coreAlive (s : State) (id : Nat) : Bool :=
  match coreDomain id with
  | none => false
  | some d => s.domOn d && !s.power.restarting.contains id && (if id = 1 then decide (3 ≤ s.rf bootPage 0x100 2 0) else !s.boot.window) &&
      !(decide (0x20 ≤ id) && s.rb canPage 0x10C (id - 0x20))

/-- The wake events of the channels that are FULL for a receiver are raised again (R50). -/
def rewake (id : Nat) (s : State) : State :=
  ((List.range 64).filter fun c => s.rb (winzePage c) 0x148 0 && s.rb (winzePage c) 0x150 16 && s.rf (winzePage c) 0x150 13 8 == id).foldl
    (fun t c => t.send (.wake id c)) s

/-- The control cores, by identity (R13, R46). -/
def allCores : List Nat := [1, 2, 3] ++ (List.range 32).map fun k => 0x20 + k

/-- The cores of a list that run find the channels that are FULL for them (R50). -/
def startCores (ids : List Nat) (s : State) : State := (ids.filter s.coreAlive).foldl (fun t i => rewake i t) s

/-- A domain has powered up: its registers and stores are as after reset, its pages answer (R618), and its cores start (R50). -/
def domainOn (d : Nat) (s : State) : State :=
  let s1 := ((s.resetDomain d).loseStores d).wb pwrPage 0x10C d true
  let s2 := ({ s1 with power := { s1.power with rising := s1.power.rising.filter fun x => x != d } }).tally pwrPage 0x98
  startCores (allCores.filter fun i => coreDomain i == some d) s2

/-! ### Requests (R617, R619, R620) -/

/-- A domain with the domains above it, nearest first. -/
def chain (d : Nat) : List Nat :=
  d :: match domParent d with
    | none => []
    | some p => p :: match domParent p with
      | none => []
      | some q => q :: (domParent q).toList

/-- Domains that a mask names, AON, and the domains above them (R617). -/
def closure (mask : Nat) : List Nat := 0 :: ((List.range 28).filter fun d => d != 0 && (List.range 28).any fun e => bit mask e && (chain e).contains d)

/-- The mask of a list of domains. -/
def domMask (ds : List Nat) : Nat := (List.range 28).foldl (fun m d => if ds.contains d then m + 2 ^ d else m) 0

/-- The order in which domains go off: children first, descending within a level (R623). -/
def offOrder : List Nat := [8, 7, 6, 5, 4, 3, 2, 1, 27, 25, 24, 23, 22, 21, 20, 19, 18, 17, 16, 15, 13, 12, 10, 9, 26, 14, 11]

/-- The order in which domains come up: parents first (R617, R623). -/
def onOrder : List Nat := [11, 14, 26, 9, 10, 12, 13, 15, 16, 17, 18, 19, 20, 21, 22, 23, 24, 25, 27, 1, 2, 3, 4, 5, 6, 7, 8]

/-- Domains start to power up, parents first (R617). -/
def raiseDomains (ds : List Nat) (s : State) : State :=
  let new := onOrder.filter fun d => ds.contains d && !s.domOn d && !s.power.rising.contains d
  { s with power := { s.power with rising := s.power.rising ++ new } }

/-- A request is refused (R619, R632). -/
def pwrRefuse (code d : Nat) (s : State) : State := ((s.wf pwrPage 0x104 15 8 code).wf pwrPage 0x104 20 16 d).irq pwrPage 9

/-- A resident context holds a stope of a drift. -/
def State.driftHeld (s : State) (d : Nat) : Bool := s.ctxs.any fun e => (s.partStopes e.2.part).any fun st => st / 4 == d

/-- A wake has reached a domain in this cycle (R619, R620). -/
def State.wokenNow (s : State) (d : Nat) : Bool := s.power.woken.any fun e => e.1 == d && e.2 == s.reading

/-- Why a domain may not go off while the domains of a list stay on: 0 when it may (R619). -/
def State.offError (s : State) (staying : List Nat) (d : Nat) : Nat :=
  if s.wokenNow d then 4
  else if (domChildren d).any staying.contains then 1
  else if ((domPages d).any fun p => s.en p || s.pageBusy p) || (decide (1 ≤ d) && decide (d ≤ 8) && s.driftHeld (d - 1)) then 2
  else if s.power.change.isSome then 6 else 0

/-- Domains requested off one by one, with those that stay on; a refusal is recorded (R619). -/
def dropDomains : List Nat → List Nat → State → State
  | [], _, s => s
  | d :: ds, staying, s =>
    let e := s.offError (staying.filter fun x => x != d) d
    if e = 0 then dropDomains ds (staying.filter fun x => x != d) ((domainOff d s).wb pwrPage 0x108 d false)
    else dropDomains ds staying (pwrRefuse e d s)

/-- The domains that are on. -/
def State.onList (s : State) : List Nat := (List.range 28).filter s.domOn

/-- A write of DOM_REQ (R617, R619): DRAM domains are left alone; after THERMAL_CRIT it has no effect (R629). -/
def actDomReq (v : Nat) (s : State) : State :=
  if s.power.crit then s
  else
    let old := s.rd pwrPage 0x108
    let s1 := [12, 13].foldl (fun t d => if bit old d && !bit v d then pwrRefuse 3 d t else t) s
    let dram (d : Nat) : Bool := d == 12 || d == 13
    let s2 := dropDomains (offOrder.filter fun d => s1.domOn d && !bit v d && !dram d) s1.onList s1
    let up := closure (domMask ((List.range 28).filter fun d => bit v d && !dram d))
    let lapsed := s2.power.rising.filter fun d => !up.contains d && !dram d && s2.power.change.isNone
    let s3 : State := { s2 with power := { s2.power with rising := s2.power.rising.filter fun d => !lapsed.contains d } }
    let req := (List.range 28).filter fun d => s3.domOn d || up.contains d || (dram d && bit old d)
    raiseDomains up (s3.wr pwrPage 0x108 (domMask req))

/-- DOM_REQ_WRITE (R619). -/
def execDomReqWrite (id : Ident) (value : Word) (s : State) : Host.Outcome State Fault Refusal :=
  .next (guardW id pwrPage 0x108 s (actDomReq value.toNat))

/-- A winze wake reaches a domain, and the domains above it (R50, R620): the state keeps when, for an off request of the same cycle
(R619). -/
def wakeDomain (d : Nat) (s : State) : State :=
  if s.power.crit || !s.rb pwrPage 0x110 d then s
  else
    let ds := chain d
    let s1 : State := { s with power := { s.power with woken := ds.foldl (fun w e => NMap.put w e s.reading) s.power.woken } }
    if s.domOn d || s.power.rising.contains d then s1
    else (raiseDomains ds (s1.wr pwrPage 0x108 (s.rd pwrPage 0x108 ||| domMask ds))).tally pwrPage 0x99

/-- A domain finishes powering up once its parent is on (R617, R618). -/
def domainPowerup (d : Nat) (s : State) : State :=
  if s.power.rising.contains d && ((domParent d).map s.domOn).getD true then domainOn d s else s

/-- DOMAIN_POWERUP (R618). -/
def execDomainPowerup (dom : Fin 28) (s : State) : Host.Outcome State Fault Refusal := .next (domainPowerup dom s)

/-! ### Device power states (R621-R623) -/

/-- The domains on in a device state (R621). -/
def State.stateDomains (s : State) (st : Nat) : List Nat :=
  if st = 2 then [0, 26] else closure (s.rd pwrPage (if st = 0 then 0x180 else 0x184))

/-- A page outside the domains of a list has CTRL.EN set. -/
def State.enOutside (s : State) (ds : List Nat) : Bool := allPages.any fun p => !ds.contains (pageDomain p) && s.en p

/-- The entry conditions of a device state hold (R622). -/
def State.stateOk (s : State) (st : Nat) : Bool :=
  let t := s.stateDomains st
  if st = 1 then
    ((List.range 4).all fun g => !s.hgEn g) && ((List.range 4).all fun h => !s.en (headPage h) || (s.head h).hold == 3) &&
      ((t.contains 12 && t.contains 13) || !s.enOutside ([0, 26, 14, 15, 16, 17, 18] ++ (List.range 28).filter fun d => !t.contains d))
  else if st = 2 then !s.enOutside [0, 26] && s.ctxs == []
  else true

/-- The first domain that refuses to go off on the way to a state, with its code (R619, R622). -/
def offRefusal (s : State) : List Nat → List Nat → Option (Nat × Nat)
  | [], _ => none
  | d :: ds, staying =>
    let rest := staying.filter fun x => x != d
    let e := s.offError rest d
    if e = 0 then offRefusal s ds rest else some (e, d)

/-- A request of a device power state (R622, R623). -/
def pwrRequest (st : Nat) (s : State) : State :=
  if 2 < st then s
  else if s.power.change.isSome then pwrRefuse 6 0 s
  else if s.power.crit || !s.stateOk st then pwrRefuse 5 0 s
  else
    let t := s.stateDomains st
    let off := offOrder.filter fun d => s.domOn d && !t.contains d
    match offRefusal s off s.onList with
    | some e => pwrRefuse e.1 e.2 s
    | none =>
      let s1 := (off.foldl (fun u d => domainOff d u) s).wr pwrPage 0x108 (domMask t)
      let s2 : State := { s1 with power := { s1.power with change := some st, rising := s1.power.rising.filter t.contains } }
      raiseDomains t ((s2.wf pwrPage 0x100 1 0 st).wb pwrPage 0x104 2 true)

/-- PWR_STATE_RUN (R622). -/
def execPwrStateRun (id : Ident) (s : State) : Host.Outcome State Fault Refusal := .next (guardW id pwrPage 0x100 s (pwrRequest 0))
/-- PWR_STATE_IDLE (R622). -/
def execPwrStateIdle (id : Ident) (s : State) : Host.Outcome State Fault Refusal := .next (guardW id pwrPage 0x100 s (pwrRequest 1))
/-- PWR_STATE_STANDBY (R622). -/
def execPwrStateStandby (id : Ident) (s : State) : Host.Outcome State Fault Refusal := .next (guardW id pwrPage 0x100 s (pwrRequest 2))

/-- A change completes once every domain that it turns on is on (R623). -/
def stateDone (s : State) : State :=
  match s.power.change with
  | some st =>
    if s.power.rising = [] then
      (({ s with power := { s.power with change := none } }.wf pwrPage 0x104 1 0 st).wb pwrPage 0x104 2 false).irq pwrPage 8
    else s
  | none => s

/-- STATE_DONE (R623). -/
def execStateDone (s : State) : Host.Outcome State Fault Refusal := .next (stateDone s)

/-! ### Resets (R611-R615, R661, R669) -/

/-- The pins after the assertion of a reset: FAULT_OUT asserted, TAKE_OUT low (R614, R661). -/
def resetPins (s : State) : List Out :=
  s.out ++ (if s.faultOut then [] else [.pin "FAULT_OUT" true]) ++ (if s.takeOut then [.pin "TAKE_OUT" false] else [])

/-- What boot starts from: the non-volatile store, the flash and the fuses are kept (R586, R612); with TEST_N low the device stays
in the boot ROM (R669). -/
def bootStart (b : Boot) (provN bootNetN testLow : Bool) : Boot :=
  { step := if testLow then 0 else 1, provN := provN, bootNetN := bootNetN, testLow := testLow, nvKey := b.nvKey, nvResetCount := b.nvResetCount,
    nvLeafLimit := b.nvLeafLimit, nvIpv4 := b.nvIpv4, svnFloor := b.svnFloor, leafNext := b.nvLeafLimit, flash := b.flash }

/-- A power-on reset with the straps as latched: PROV_N in [0], BOOT_NET_N in [1], TEST_N in [2] (R612, R662). -/
def powerOnReset (straps : Nat) (s : State) : State :=
  { State.reset with pending := s.pending, boot := bootStart s.boot (bit straps 0) (bit straps 1) (!bit straps 2), peerFault := s.peerFault,
                     jobSeq := s.jobSeq, out := resetPins s, free := s.free }

/-- POWER_ON_RESET (R612). -/
def execPowerOnReset (straps : Nat) (s : State) : Host.Outcome State Fault Refusal := .next (powerOnReset straps s)

/-- A power-on reset with the straps as they were. -/
def powerOnAgain (s : State) : State := powerOnReset (b2n s.boot.provN + 2 * b2n s.boot.bootNetN + 4 * b2n (!s.boot.testLow)) s

/-- AON_UNDERVOLTAGE (R611). -/
def execAonUndervoltage (s : State) : Host.Outcome State Fault Refusal := .next (powerOnAgain s)

/-- Registers of the always-on domain, but for those of the Adpor sessions, which a reset ends (R543, R612). -/
def keepAon (m : NMap Word) : NMap Word :=
  m.filter fun e => pageDomain (e.1 / 1024) == 0 && !(e.1 / 1024 == aditPage 0 && decide (0xC0 ≤ e.1 % 1024) && decide (e.1 % 1024 < 0xE0))

/-- What a warm reset keeps (R612, R613): the always-on domain, DRAM, the non-volatile store and flash. -/
def warmKeep (s : State) : State :=
  { State.reset with
    pending := s.pending, regs := keepAon s.regs, held := keepAon s.held, latch := keepAon s.latch
    mem := Memory.zeroRange s.mem dramSize (2 ^ 40)
    eccBad := s.eccBad.filter fun a => decide (a < dramSize), eccOne := s.eccOne.filter fun a => decide (a < dramSize)
    sump := s.sump, time := s.time, adits := s.adits, cb := s.cb, peerFault := s.peerFault
    boot := bootStart s.boot s.boot.provN s.boot.bootNetN s.boot.testLow
    power := { thermal := s.power.thermal, cool := s.power.cool, expiries := s.power.expiries }
    jobSeq := s.jobSeq, out := resetPins s, free := s.free }

/-- Sensors are no longer FAILED, and LOW and HIGH clear at a reset (R650, R651). -/
def clearMonitors (s : State) : State :=
  (List.range 24).foldl (fun t k => t.wf monPage (0x140 + 4 * k) 18 17 0) ((List.range 16).foldl (fun t k => t.wb monPage (0x100 + 4 * k) 31 false) s)

/-- A warm reset with its bit of RST_CAUSE (R612, R613, R615). -/
def warmReset (cause : Nat) (s : State) : State :=
  let s1 := clearMonitors (warmKeep s)
  let s2 := ((s1.wr pwrPage 0x108 0x04004FFF).wr pwrPage 0x10C 0x04004FFF).wf pwrPage 0x104 2 0 0
  let s3 := s2.wr pwrPage 0x118 (cause + 16 * b2n s.power.crit)
  [1, 2].foldl (fun t c => if t.calSource c = 1 ∧ (t.clock c).state = 2 then setClkState c 3 t else t) s3

/-- WARM_RESET (R612). -/
def execWarmReset (s : State) : Host.Outcome State Fault Refusal := .next (warmReset 2 s)

/-- A write of RST_CMD (R612). -/
def actRstCmd (v : Nat) (s : State) : State := if bit v 0 then warmReset 4 s else s

/-- RST_CMD_WARM (R612). -/
def execRstCmdWarm (id : Ident) (s : State) : Host.Outcome State Fault Refusal := .next (guardW id pwrPage 0x114 s (actRstCmd 1))

/-- ALIGNMENT_EDGE (R615). -/
def execAlignmentEdge (s : State) : Host.Outcome State Fault Refusal := .next { s with power := { s.power with aligned := true } }

/-! ### Thermal sensors and throttle (R626-R629, R650) -/

/-- MHz of a throttle step (R626). -/
def stepMhz (k : Nat) : Nat := (if Config.gradeB then 720 else 800) * (match k with
  | 0 => 8
  | 1 => 7
  | 2 => 6
  | _ => 4) / 8

/-- A sensor's sample: [16:0] the trimmed reading, S8.8 °C, [31:17] the raw output (log entry 37). FAILED when the reading lies
outside -40 to 150 °C, or the raw output has not changed for ten samples, 1 ms (R650). -/
def sensorSample (i w : Nat) (s : State) : State :=
  let t := sext 17 (fld w 16 0)
  let raw := fld w 31 17
  let same := match s.power.raw[i]? with
    | some e => if e.1 = raw then e.2 + 1 else 0
    | none => 0
  let raws := (List.range 16).map fun k => if k = i then (raw, same) else (s.power.raw[k]?).getD (2 ^ 15, 0)
  let s1 : State := { s with power := { s.power with raw := raws } }
  let bad := decide (t < -40 * 256) || decide (150 * 256 < t) || decide (10 ≤ same)
  let s2 := s1.wf monPage (0x100 + 4 * i) 16 0 (fld w 16 0)
  if bad && !s.rb monPage (0x100 + 4 * i) 31 then ((s2.wb monPage (0x100 + 4 * i) 31 true).irq monPage 9).tally monPage 0xA2 else s2

/-- The sensors that are not FAILED. -/
def State.goodSensors (s : State) : List Nat := (List.range 16).filter fun i => !s.rb monPage (0x100 + 4 * i) 31

/-- T_max in 1/256 °C over the valid sensors, none without one (R627, R650). -/
def State.tMax (s : State) : Option Int :=
  (s.goodSensors.map fun i => sext 17 (s.rf monPage (0x100 + 4 * i) 16 0)).foldl (fun b t => match b with
    | none => some t
    | some u => some (max t u)) none

/-- THR_DOWN[k] in 1/256 °C. -/
def State.thrDown (s : State) (k : Nat) : Int := 256 * (s.rf pwrPage 0x188 (8 * k + 7) (8 * k) : Nat)

/-- The thermal step after a sample, and the samples in a row below the lower threshold (R627, R650). -/
def State.thermalNext (s : State) (t : Option Int) : Nat × Nat :=
  let k := s.power.thermal
  if s.goodSensors.length < 8 then (3, 0)
  else match t with
    | none => (3, 0)
    | some t =>
      if k < 3 ∧ s.thrDown k ≤ t then (k + 1, 0)
      else if 0 < k ∧ t ≤ s.thrDown (k - 1) - 256 * (s.rf pwrPage 0x18C 7 0 : Nat) then
        if 10 * s.rf pwrPage 0x18C 23 8 ≤ s.power.cool + 1 then (k - 1, 0) else (k, s.power.cool + 1)
      else (k, 0)

/-- A device fault of the thermal monitors, which is unrepairable (R629, R634, R650). -/
def monFault (code : Nat) (s : State) : State := s.fault { page := monPage, code := code, device := true, unrep := true }

/-- THERMAL_CRIT: every domain but AON and SEC goes off (R629). -/
def thermalOff (s : State) : State :=
  let s2 := offOrder.foldl (fun t d => if d != 26 && t.domOn d then domainOff d t else t) s
  { s2.wb pwrPage 0x118 4 true with power := { s2.power with crit := true, rising := [], change := none } }

/-- A thermal sample (R627-R629, R650); of its faults THERMAL_CRIT comes first (R671). -/
def thermalSample (ws : List Nat) (s : State) : State :=
  let n := s.goodSensors.length
  let s1 := ((List.range 16).zip ws).foldl (fun t e => sensorSample e.1 e.2 t) s
  let t := s1.tMax
  let hot := decide (125 * 256 ≤ t.getD 0) && !s.power.crit
  let s2 := if hot then monFault 0x0001 s1 else s1
  let s3 := if s1.goodSensors.length < 8 ∧ 8 ≤ n then monFault 0x0004 s2 else s2
  let s4 := match t with
    | some v => s3.wf clkPage 0x200 23 16 (min 255 (v / 256).toNat)
    | none => s3
  let k := s4.thermalNext t
  let s5 : State := { s4 with power := { s4.power with thermal := k.1, cool := k.2 } }
  let target := max k.1 (s5.rf clkPage 0x204 1 0)
  let s6 : State := if target ≠ s5.thrStep ∧ !s5.power.paused then { s5 with power := { s5.power with paused := true, next := target } } else s5
  if hot then thermalOff s6 else s6

/-- THERMAL_SAMPLE (R627). -/
def execThermalSample (readings : List Word) (s : State) : Host.Outcome State Fault Refusal := .next (thermalSample (readings.map (·.toNat)) s)

/-- The fabric clock resumes at the new step (R628, R366). -/
def throttleResume (s : State) : State :=
  if s.power.paused then
    let k := s.power.next
    let s1 : State := { s with power := { s.power with paused := false } }
    let s2 := recTiming 0x41 (stepMhz s.thrStep + 65536 * stepMhz k) 0 [] (s1.sumAdd 7 1)
    (((((s2.wf clkPage 0x200 1 0 k).wf clkPage 0x200 13 4 (stepMhz k)).incWrap clkPage 0x208).tally clkPage 0x9A).irq clkPage 8)
  else s

/-- THROTTLE_RESUME (R628). -/
def execThrottleResume (s : State) : Host.Outcome State Fault Refusal := .next (throttleResume s)

end Sys2Proof.Machine
end

