-- ==== Sys2Proof/Machine/Faults.lean ====
section
/-! DEFINITION. Face faults and spares (R639-R645), face self-tests (R148), canaries (R646-R649), supply monitors (R651), the sump
registers (R636-R638), gallery flags from the host (R259), refresh and scrubbing (R244, R262, R267). -/
namespace Sys2Proof.Machine

/-! ### The running contexts of a partition (R640, R641) -/

/-- The contexts of a partition that are RUNNING or in a switch (R640). -/
def State.liveIn (s : State) (p : Nat) : List Nat :=
  let x := s.part p
  (x.running.toList ++ x.outgoing.toList ++ x.incoming.toList).eraseDups

/-- Issue stops on a partition and its work settles (R640 step 1). -/
def settlePart (p : Nat) (s : State) : State :=
  match (s.part p).running with
  | some h => (s.run h).faces.foldl (settleFace h) (withdrawJobs h s)
  | none => s

/-- Steps 1 and 2 of R640: the partition stands still, its work settles, its live contexts are torn down with a code; the band
contexts among them are to be launched again (R641). -/
def stopPart (code p : Nat) (s : State) : State :=
  let s1 := s.setPart p { s.part p with held := true }
  let hs := s1.liveIn p
  let bands := hs.filter fun h => (s1.run h).band.isSome && (s1.ctx h).cls == 1
  let s2 := settlePart p s1
  let s3 := hs.foldl (fun t h => teardown h code t) s2
  s3.setPart p { s3.part p with relaunch := (s3.part p).relaunch ++ bands }

/-- Step 4 of R640: the partition goes on, and the cage launches the interrupted bands again first (R641). -/
def resumePart (p : Nat) (s : State) : State :=
  let bands := (s.part p).relaunch
  let s1 := s.setPart p { s.part p with held := false, relaunch := [] }
  sched p (bands.foldl (fun t h => match (t.run h).band with
    | some k => relaunchBand k t
    | none => t) s1)

/-! ### Face faults (R639-R644) -/

/-- What a physical face holds is cleared; `f` is the logical face that it carries (R148, R640). -/
def wipeFace (f : Nat) (s : State) : State := s.zero (fsAddr f 0) (fsAddr f 0 + fsSize)

/-- Step 3 of R640: the spare of the stope carries the logical face, cleared, with the grid table and the binding of the face that
failed (R14, R147, R642); the timing record says so (R366). -/
def substitute (phys f code : Nat) (s : State) : State :=
  let st := phys / 17
  let sp := facePage (17 * st + 16)
  let s1 := [0x054, 0x108, 0x10C, 0x110].foldl (fun t o => t.wr sp o (t.rd (facePage phys) o)) s
  let s2 := wipeFace f (s1.setFace f {})
  let s3 := (s2.wf (stopePage st) 0x100 4 1 (f % 16)).wb (stopePage st) 0x100 0 true
  recTiming 0x42 (st + 256 * f + 2 ^ 22 * (17 * st + 16)) code [] (s3.tally (stopePage st) 0x3D)

/-- A stope is retired (R643). -/
def retireStope (st : Nat) (s : State) : State := s.wb (stopePage st) 0x100 6 true

/-- A fault of a physical face with a code, FACE_HW or FACE_SELFTEST (R639-R644): in a retired face it is entered in the sump
only; an idle spare becomes SPARE_BAD; a face that carries a logical face is replaced by the spare, or its stope is retired when
there is none. -/
def hwFault (phys code : Nat) (s : State) : State :=
  let st := phys / 17
  let pg := facePage phys
  match s.logicalOf phys with
  | none =>
    if phys % 17 = 16 then (s.fault { page := pg, code := 0x0007, device := true }).wb (stopePage st) 0x100 5 true
    else s.sumpWrite ⟨code, 7, true, false, pg, 0x7FF, s.reading, s.gcount, 0⟩
  | some f =>
    let p := s.partOf st
    let h := (p.map fun q => (s.liveIn q).headD 0x7FF).getD 0x7FF
    let s1 := s.fault { page := pg, code := code, handle := h, device := true }
    let s2 := match p with
      | some q => stopPart code q s1
      | none => s1
    let s3 := if s.spareUsed st || s.rb (stopePage st) 0x100 5 || s.stopeRetired st then
        retireStope st (s2.fault { page := stopePage st, code := 0x0006, device := true, unrep := true })
      else substitute phys f code s2
    match p with
    | some q => if (s.part q).held then s3 else resumePart q s3
    | none => s3

/-- FACE_HW (R640). -/
def execFaceHw (phys : Phys) (s : State) : Host.Outcome State Fault Refusal :=
  .next (if s.pageOn (facePage phys) then hwFault phys 0x0005 s else s)

/-- A write of FACE_TEST: RUN starts a self-test while none runs and the face is idle, done, or carries no logical face (R148). -/
def actFaceTest (phys v : Nat) (s : State) : State :=
  let pg := facePage phys
  let st := (s.unitState pg).1
  if bit v 0 && decide (s.rf pg 0x138 9 8 ≠ 3) && ((s.logicalOf phys).isNone || st == 0 || st == 4) then s.wf pg 0x138 9 8 3 else s

/-- FACE_TEST_RUN (R148). -/
def execFaceTestRun (id : Ident) (phys : Phys) (s : State) : Host.Outcome State Fault Refusal :=
  .next (guardW id (facePage phys) 0x138 s (actFaceTest phys 1))

/-- A self-test completes: the face store, the accumulators and the resident configurations are cleared; a failure is a face fault
(R148, R639, R644). -/
def faceTestDone (phys : Nat) (pass : Bool) (s : State) : State :=
  let pg := facePage phys
  if s.rf pg 0x138 9 8 ≠ 3 then s
  else
    let s1 := match s.logicalOf phys with
      | some f => (wipeFace f s).modFace f fun x => { x with acc := [], cfgs := List.replicate 4 {} }
      | none => s
    let s2 := (s1.wf pg 0x138 9 8 (if pass then 1 else 2)).irq pg 10
    if pass then s2 else hwFault phys 0x3006 s2

/-- FACE_TEST_DONE (R148). -/
def execFaceTestDone (phys : Phys) (pass : Bool) (s : State) : Host.Outcome State Fault Refusal := .next (faceTestDone phys pass s)

/-- Firmware tests the idle spare of a stope (R644). -/
def spareTest (st : Nat) (s : State) : State :=
  let phys := 17 * st + 16
  if !s.boot.window && s.pageOn (facePage phys) && !s.spareUsed st then actFaceTest phys 1 s else s

/-- SPARE_TEST_TIMER (R644). -/
def execSpareTestTimer (stope : Fin 32) (s : State) : Host.Outcome State Fault Refusal := .next (spareTest stope s)

/-! ### Canaries (R646-R649) -/

/-- The canary of a core is kicked (R646). -/
def canaryKick (id : Nat) (s : State) : State :=
  if s.coreAlive id then { s with power := { s.power with kicks := NMap.put s.power.kicks id s.reading } } else s

/-- CANARY_KICK (R646). -/
def execCanaryKick (core : Ident) (s : State) : Host.Outcome State Fault Refusal := .next (canaryKick core s)

/-- Microseconds after which a core's canary expires (R646, R649). -/
def State.canaryTo (s : State) (id : Nat) : Nat := if 0x20 ≤ id then s.rf canPage 0x100 7 0 else s.rf canPage 0x100 15 8

/-- The partitions that hold a stope of a list. -/
def State.partsOf (s : State) (sts : List Nat) : List Nat := (sts.filterMap s.partOf).eraseDups

/-- A core goes down to restart (R647). -/
def coreDown (id : Nat) (s : State) : State := { s with power := { s.power with restarting := s.power.restarting ++ [id] } }

/-- A foreman core's canary expires (R647, R648). -/
def foremanExpiry (k : Nat) (s : State) : State :=
  let id := 0x20 + k
  let times := ((NMap.get [] s.power.expiries id).filter fun t => decide (s.reading < t + 10000000000)) ++ [s.reading]
  let ps := s.partsOf [k]
  let s1 := s.fault { page := canPage, code := 0x0008, handle := ((ps.head?).map fun q => (s.liveIn q).headD 0x7FF).getD 0x7FF, device := true }
  let s2 := ps.foldl (fun t p => stopPart 0x0008 p t) { s1 with power := { s1.power with expiries := NMap.put s1.power.expiries id times } }
  if s.rf canPage 0x100 19 16 < times.length then
    let s3 := (s2.fault { page := canPage, code := 0x0009, device := true, unrep := true }).wb canPage 0x10C k true
    ps.foldl (fun t p => resumePart p t) (retireStope k (s3.irq canPage 9))
  else coreDown id s2

/-- A canary expires (R647). -/
def canaryExpiry (id : Nat) (s : State) : State :=
  if !s.coreAlive id || decide (s.reading < NMap.get 0 s.power.kicks id + 1000 * s.canaryTo id) then s
  else if id = 1 then
    let s1 := s.fault { page := canPage, code := 0x000A, device := true, unrep := true }
    if s.rb canPage 0x100 20 then warmReset 8 s1 else coreDown 1 s1
  else if id < 0x20 then
    let ps := s.partsOf ((List.range 16).map fun k => 16 * (id - 2) + k)
    let s1 := s.fault { page := canPage, code := 0x000B, device := true }
    let s2 := ps.foldl (fun t p => stopPart 0x000B p t) s1
    coreDown id (ps.foldl (fun t p => if (s.part p).held then t else resumePart p t) s2)
  else foremanExpiry (id - 0x20) s

/-- CANARY_EXPIRY (R647). -/
def execCanaryExpiry (core : Ident) (s : State) : Host.Outcome State Fault Refusal := .next (canaryExpiry core s)

/-- A core runs again (R50, R647): its partition goes on when no other foreman core of it restarts. -/
def coreRestartDone (id : Nat) (s : State) : State :=
  if !s.power.restarting.contains id then s
  else
    let left := s.power.restarting.filter fun x => x != id
    let s1 : State := { s with power := { s.power with restarting := left, kicks := NMap.put s.power.kicks id s.reading } }
    let s2 := ((s1.incWrap canPage 0x110).wr canPage 0x114 id).irq canPage 8
    let s3 := rewake id (s2.tally canPage 0xA3)
    if id < 0x20 then s3
    else (s3.partsOf [id - 0x20]).foldl (fun t p =>
      if (t.partStopes p).any fun st => t.power.restarting.contains (0x20 + st) then t else resumePart p t) s3

/-- CORE_RESTART_DONE (R647). -/
def execCoreRestartDone (core : Ident) (s : State) : Host.Outcome State Fault Refusal := .next (coreRestartDone core s)

/-- CAN_ALIVE0 and CAN_ALIVE1 (R649). -/
def State.canAlive (s : State) (k : Nat) : Nat :=
  if k = 0 then (List.range 32).foldl (fun m i => m + 2 ^ i * b2n (s.coreAlive (0x20 + i))) 0
  else b2n (s.coreAlive 1) + 2 * b2n (s.coreAlive 2) + 4 * b2n (s.coreAlive 3)

/-! ### Supply monitors (R611, R651) -/

/-- The register of a supply monitor point. -/
def supOff (k : Nat) : Nat := 0x140 + 4 * k

/-- SUPPLY_WARN (R651). -/
def execSupplyWarn (point : Fin 24) (s : State) : Host.Outcome State Fault Refusal :=
  .next (if s.rb monPage (supOff point) 16 then s else ((s.wb monPage (supOff point) 16 true).irq monPage 8).tally monPage 0xA0)

/-- SUPPLY_WARN_CLEAR (R651). -/
def execSupplyWarnClear (point : Fin 24) (s : State) : Host.Outcome State Fault Refusal := .next (s.wb monPage (supOff point) 16 false)

/-- A deviation beyond FAULT at a point: LOW or HIGH, and an unrepairable device fault (R651). -/
def supplyFault (k b code : Nat) (s : State) : State :=
  if s.rb monPage (supOff k) b then s
  else ((s.wb monPage (supOff k) b true).tally monPage 0xA1).fault { page := monPage, code := code, device := true, unrep := true }

/-- SUPPLY_UV (R651); on VDD_AON a power-on reset (R611). -/
def execSupplyUv (point : Fin 24) (s : State) : Host.Outcome State Fault Refusal :=
  .next (if point = 0 then powerOnAgain s else supplyFault point 17 0x0002 s)

/-- SUPPLY_OV (R651). -/
def execSupplyOv (point : Fin 24) (s : State) : Host.Outcome State Fault Refusal := .next (supplyFault point 18 0x0003 s)

/-! ### The sump registers (R636-R638) -/

/-- Word `k` of a sump entry (R636). -/
def SumpEntry.word (e : SumpEntry) (k : Nat) : Nat := match k with
  | 0 => e.code + 65536 * e.source + 2 ^ 30 * b2n e.device + 2 ^ 31 * b2n e.unrep
  | 1 => e.page + 65536 * e.handle
  | 2 => e.time % 2 ^ 32
  | 3 => e.time / 2 ^ 32
  | 4 => e.gcount % 2 ^ 32
  | 5 => e.gcount / 2 ^ 32
  | 6 => e.detail % 2 ^ 32
  | _ => e.detail / 2 ^ 32

/-- A write of SUMP_IDX copies an entry into SUMP_E0-E7 (R637). -/
def actSumpIdx (v : Nat) (s : State) : State :=
  let e := NMap.find s.sump (v % 4096)
  (List.range 8).foldl (fun t k => t.wr sumpPage (0x120 + 4 * k) ((e.map fun x => x.word k).getD 0)) s

/-- SUMP_IDX (R637). -/
def execSumpIdx (id : Ident) (value : Word) (s : State) : Host.Outcome State Fault Refusal :=
  .next (guardW id sumpPage 0x10C s (actSumpIdx value.toNat))

/-! ### Gallery flags from the host (R259, R260) -/

/-- GFLAG_SET (R259). -/
def execGflagSet (id : Ident) (drift : Fin 8) (value : Word) (s : State) : Host.Outcome State Fault Refusal :=
  .next (guardW id (driftPage drift) 0x10C s fun t => t.setG drift (value.toNat % 4096) true)

/-- GFLAG_CLR (R259). -/
def execGflagClr (id : Ident) (drift : Fin 8) (value : Word) (s : State) : Host.Outcome State Fault Refusal :=
  .next (guardW id (driftPage drift) 0x110 s fun t => t.setG drift (value.toNat % 4096) false)

/-! ### Refresh and scrubbing (R243, R244, R262, R267) -/

/-- DRAM_REFRESH (R244): it delays accesses and changes no data. -/
def execDramRefresh (_chan : Fin 32) (s : State) : Host.Outcome State Fault Refusal := .next s

/-- A scrubber may read an address: its store is on, and for DRAM SCRUB_CTRL.EN is 1 (R267). -/
def State.scrubs (s : State) (a : Nat) : Bool := match regionOf a with
  | .face f => s.pageOn (s.facePg f)
  | .gallery d => s.domOn (1 + d)
  | .dram => s.rb memPage 0x104 0 && s.domOn (12 + dramChan a / 16)
  | _ => false

/-- A scrubber reads a word (R262, R264, R267); a word that holds an uncorrectable error shows it. The last word of DRAM ends a
pass. -/
def scrubRead (a : Nat) (e : EccFinding) (s : State) : State :=
  let w := a / 8 * 8
  if !s.scrubs w then s
  else
    let s1 := if e == .double || s.eccBad.contains w then ueStrike w none true { s with eccBad := NSet.add s.eccBad w }
      else if e == .single || s.eccOne.contains w then eccCorrected w { s with eccOne := s.eccOne.filter (· != w) } else s
    if w + 8 = dramSize then s1.incWrap memPage 0x118 else s1

/-- SCRUB_READ (R267). -/
def execScrubRead (addr : Nat) (finding : EccFinding) (s : State) : Host.Outcome State Fault Refusal := .next (scrubRead addr finding s)

end Sys2Proof.Machine
end

