-- ==== Sys2Proof/Machine/RegWrite.lean ====
section
/-! DEFINITION. Writes to registers by their access codes (R5-R7, R9, R11), for the registers that have no effect of their own. -/
namespace Sys2Proof.Machine

/-- A memory grant as a write of one of its registers would leave it does not reach the firmware region (R588). -/
def State.grantListed (s : State) (off v : Nat) : Bool :=
  let k := (off - 0x400) / 0x20
  let o := 0x400 + 0x20 * k
  if off < 0x400 ∨ 0x600 ≤ off then true
  else if (off - o) / 8 = 0 then !reachesFirmware v (s.rd64 bootPage (o + 8))
  else if (off - o) / 8 = 1 then !reachesFirmware (s.rd64 bootPage o) v
  else true

/-- The field of a register whose listing depends on other state keeps its value (R7). -/
def State.listedNow (s : State) (p off v : Nat) : Bool := if p = bootPage then s.grantListed off v else true

/-- A register enters the settings message (R355). -/
def State.inSettings (s : State) (p off : Nat) : Bool :=
  (p == clkPage && decide (0x100 ≤ off) && decide (off < 0x200)) || (p == pwrPage && decide (0x180 ≤ off) && decide (off < 0x200)) ||
    (pClass p == 4 && decide (0x108 ≤ off) && decide (off < 0x114) && (s.logicalOf (pInst p)).isSome)

/-- The digest is due again when a register of the message changes (R356). -/
def State.settled (s t : State) (p off : Nat) : State :=
  if s.inSettings p off && s.rd p off != t.rd p off then t.wb cagePage 0x654 0 false else t

/-- A write of a word of a register that takes the value written (R5, R6, R7, R9): the low word of a 64-bit register is held until
its high word is written. -/
def storeReg (p off v : Nat) (r : RegAt) (s : State) : State :=
  let k := regKey p off
  if r.row.wide then
    if r.high then
      let lo := ((NMap.find s.held (k - 1)).map (·.toNat)).getD (s.rd p (off - 4))
      let n := mergeWrite r.row (s.rd64 p (off - 4)) (lo + 2 ^ 32 * (v % 2 ^ 32))
      let t : State := { s with held := NMap.del s.held (k - 1) }
      if s.listedNow p (off - 4) n then t.wr64 p (off - 4) n else t
    else { s with held := NMap.put s.held k (BitVec.ofNat 32 v) }
  else
    let n := mergeWrite r.row (s.rd p off) (v % 2 ^ 32)
    if s.listedNow p off n then s.settled (s.wr p off n) p off else s

/-- A write of a word by the register's access code (R5, R8, R11). -/
def plainWrite (p off v : Nat) (s : State) : State :=
  match regAt p off with
  | none => s
  | some r => match r.row.acc with
    | .rw => storeReg p off v r s
    | .rwl => if s.boot.window then storeReg p off v r s else s
    | .w1c => s.wr p off (s.rd p off &&& (2 ^ 32 - 1 - v % 2 ^ 32))
    | .w1s => s.wr p off (s.rd p off ||| (v &&& r.row.mask))
    | _ => s

/-- A write to a register of the protection set-up (R5, R348). -/
def rwlWrite (p off v : Nat) (s : State) : State :=
  if p = devPage ∧ 0x100 ≤ off ∧ off < 0x180 then actPartCfg ((off - 0x100) / 4) v s else plainWrite p off v s

end Sys2Proof.Machine
end

