-- ==== Sys2Proof/Machine/Boot.lean ====
section
/-! DEFINITION. Boot, images, session keys, the protection set-up, installs, calibration and attestation (R585-R608), and the digest
of the settings (R355, R356). -/
namespace Sys2Proof.Machine

/-! ### Stores (R587) -/

/-- A byte of the flash. -/
def Boot.flashByte (b : Boot) (a : Nat) : Byte :=
  match b.flash.find? fun e => decide (e.1 ≤ a) && decide (a < e.1 + e.2.1) with
  | some e => nth 0xFF e.2.2 (a - e.1)
  | none => Config.flash a

/-- `n` bytes of the flash. -/
def Boot.flashBytes (b : Boot) (a n : Nat) : List Byte := (List.range n).map fun k => b.flashByte (a + k)

/-- A flash range erased, then programmed from its start. -/
def Boot.program (b : Boot) (lo n : Nat) (bytes : List Byte) : Boot := { b with flash := (lo, n, bytes) :: b.flash.filter fun e => e.1 != lo }

/-- The flash range of an install: image 1, lease 2, overlay 3 (R587). -/
def flashRange (kind : Nat) : Nat × Nat := match kind with
  | 1 => (0, 0x3F00000)
  | 2 => (0x3FC0000, 0x40000)
  | _ => (0x3F80000, 0x40000)

/-! ### Session keys (R541, R593) -/

/-- The 32 bytes of a key. -/
def keyBytes (k : BitVec 256) : List Byte := beBytes 32 k.toNat

/-- K_s of a session from K_P and RESET_COUNT (R593). -/
def deriveKey (k : BitVec 256) (count sess : Nat) : List Byte :=
  kmac256 (keyBytes k) (leBytes 1 sess ++ beBytes 8 count) 32 (ascii "ADPOR-KEY")

/-- K_s of a session, when the keys have been derived. -/
def State.sessKey (s : State) (sess : Nat) : Option (List Byte) := s.boot.keys.map fun k => deriveKey k.1 k.2 sess

/-- The tag of a frame under a key (R541). -/
def adporTag (key msg : List Byte) : List Byte := kmac256 key msg 16 (ascii "ADPOR")

/-- The keys are derived from K_P, or, while PROV_N is low and K_P is unset, from 32 zero bytes (R593). -/
def deriveKeys (s : State) : State :=
  let k := match s.boot.nvKey with
    | some k => some (k, s.boot.nvResetCount)
    | none => if s.boot.provN then none else some (0, s.boot.nvResetCount)
  { s with boot := { s.boot with keys := k } }

/-! ### Images (R591, R592) -/

/-- The bytes of a header that R591 leaves zero. -/
def headerZeros (h : List Byte) : Bool :=
  (List.range 0x1000).all fun k => (nth 0 h k == 0) || k < 7 || (decide (8 ≤ k) && decide (k < 0x14)) || (decide (0x20 ≤ k) && decide (k < 0x68)) ||
    (decide (0x80 ≤ k) && decide (k < 0x280))

/-- A section of the table lies within the signed region: offset and length in the last eight bytes of its entry (log entry 38). -/
def sectionOk (h : List Byte) (sig k : Nat) : Bool := decide (leAt h (0x80 + 16 * k + 8) 4 + leAt h (0x80 + 16 * k + 12) 4 ≤ sig)

/-- The type identifier of XMSS^MT-SHAKE256_40/4_256 in SP 800-208 (PRESUMED, log entry 38). -/
def xmssmtOid : Nat := 0x2C

/-- The first check of R591 that an image fails, 0 when it passes every one. -/
def imageError (floor : Nat) (img : List Byte) : Nat :=
  let len := leAt img 8 4
  let sig := leAt img 0xC 4
  let ns := leAt img 0x64 4
  let pub := sliceL img 0x20 68
  if leAt img 0 4 ≠ 0x464A4B31 ∨ leAt img 4 2 ≠ 1 then 1
  else if len < 4096 + 9893 ∨ 0x4000000 < len ∨ img.length < len ∨ sig + 9893 ≠ len ∨ ns = 0 ∨ 32 < ns ∨
      !((List.range ns).all (sectionOk img sig)) ∨ !headerZeros img then 2
  else if leAt img 6 1 % 2 = 0 then 3
  else if leAt img 0x10 4 < floor then 4
  else if beNat (pub.take 4) ≠ xmssmtOid ∨ shake256 pub 32 ≠ keyBytes Config.rootDigest then 5
  else if Config.xmssVerify pub (img.take sig) (sliceL img sig 9893) then 0 else 6

/-- The image that the firmware region holds: at most `n` bytes (R588). -/
def State.regionImage (s : State) (n : Nat) : List Byte := s.ldBytes fwBase (min n (max 0x1000 (s.ld (fwBase + 8) 4)))

/-- PHASE of BOOT_STAT. -/
def setPhase (v : Nat) (s : State) : State := s.wf bootPage 0x100 2 0 v

/-- Firmware starts in step 9, requests PLAN_RUN (R589, R615), and finds what waits for the manager core (R50). -/
def startFirmware (s : State) : State := startCores [1] (pwrRequest 0 (setPhase 3 { s with boot := { s.boot with step := 9, net := {} } }))

/-- A step of R589 begins: 4 and 8 send BOOT_REQ. -/
def enterStep (n : Nat) (s : State) : State :=
  if n = 9 then startFirmware s
  else
    let s1 : State := { s with boot := { s.boot with step := n, net := if n = 4 ∨ n = 8 then { phase := 1, attempt := s.boot.net.attempt } else {} } }
    if n = 7 then setPhase 1 s1 else if n = 8 then setPhase 2 s1 else s1

/-- The step after one that has been completed (R589): an image that has passed skips steps 7 and 8; while BOOT_NET_N is low step 8
takes the place of step 7 (log entry 38). -/
def State.stepAfter (s : State) : Nat :=
  let d := s.boot.done
  if !d.contains 5 then 5
  else if !s.boot.imageOk && !s.boot.bootNetN then 8
  else if !d.contains 6 then 6
  else if s.boot.imageOk then 9 else 7

/-- A step is complete, and the next begins. -/
def finishStep (n : Nat) (s : State) : State :=
  let t : State := { s with boot := { s.boot with done := s.boot.done ++ [n] } }
  enterStep t.stepAfter t

/-- An image in the firmware region passes: FW_DIGEST measures it (R592), and boot goes on. -/
def imagePass (img : List Byte) (net : Bool) (s : State) : State :=
  let d := shake256 (img.take (leAt img 0xC 4)) 64
  let s1 := (List.range 16).foldl (fun t k => t.wr bootPage (0x120 + 4 * k) (leAt d (4 * k) 4)) s
  let s2 := ((s1.wr bootPage 0x118 (leAt img 0x10 4)).wb bootPage 0x100 3 net).wf bootPage 0x100 15 8 0
  sdTouch { s2 with boot := { s2.boot with imageOk := true } }

/-- A check of R591 fails. -/
def imageBad (err : Nat) (s : State) : State := (s.wf bootPage 0x100 15 8 err).fault { page := bootPage, code := 0xF003 }

/-- Step 7 ends (R589, R591): the image slot is in the firmware region, measured and verified; `bad` says that a flash read has
failed. -/
def finishFlash (bad : Bool) (s : State) : State :=
  if bad then enterStep 8 (imageBad 7 s)
  else
    let n := leNat (s.boot.flashBytes 8 4)
    let img := s.boot.flashBytes 0 (if n < 0x1000 ∨ 0x3F00000 < n then 0x1000 else n)
    let s1 := s.stBytes fwBase img
    let e := imageError s1.boot.svnFloor img
    if e = 0 then finishStep 7 (imagePass img false s1) else enterStep 8 (imageBad e s1)

/-- Step 8 ends (R554, R589): the image that the network brought is verified; a failure starts over. -/
def finishNet (s : State) : State :=
  if s.boot.net.phase ≠ 3 then s
  else
    let img := s.regionImage s.boot.net.len
    let e := imageError s.boot.svnFloor img
    if e = 0 then finishStep 8 (imagePass img true s) else enterStep 8 (imageBad e s)

/-! ### Tagged blocks (R600, R605) -/

/-- The entries of an overlay or factory table from an offset to the end: (ID, data), none when they do not end there. -/
def calEntries (b : List Byte) (stop : Nat) : Nat → Nat → Option (List (Nat × List Byte))
  | 0, off => if off = stop then some [] else none
  | n + 1, off =>
    let len := leAt b (off + 2) 2
    if stop < off + 4 + len then none else (calEntries b stop n (off + 4 + len)).map fun r => (leAt b off 2, sliceL b (off + 4) len) :: r

/-- Bytes of an overlay item (R605). -/
def overlayItem (id : Nat) : Option Nat := match id with
  | 0x10 => some 64
  | 0x11 => some 96
  | 0x12 => some 64
  | _ => none

/-- The items of an overlay, none when an entry fails its check. -/
def overlayItems (b : List Byte) : Option (List (Nat × List Byte)) :=
  (calEntries b (leAt b 8 4 - 16) (leAt b 0xC 4) 0x18).filter fun es => es.all fun e => overlayItem e.1 == some e.2.length

/-- The entries of a lease: address in control space and value. -/
def leaseEntries (b : List Byte) : List (Nat × Nat) := (List.range (leAt b 0xC 4)).map fun k => (leAt b (0x18 + 8 * k) 4 % 2 ^ 28, leAt b (0x1C + 8 * k) 4)

/-- Every entry of a lease addresses an RWL register (R600). -/
def leaseOk (b : List Byte) : Bool :=
  leAt b 8 4 == 0x28 + 8 * leAt b 0xC 4 && (leaseEntries b).all fun e => e.1 % 4 == 0 && isRwl (e.1 / 4096) (e.1 % 4096)

/-- What a tagged block fails: 0 nothing, 3 FORMAT, 4 TAG (R600, R604). -/
def State.blockError (s : State) (kind : Nat) (b : List Byte) : Nat :=
  let len := leAt b 8 4
  let n := leAt b 0xC 4
  if leAt b 0 4 ≠ 0x4C454153 ∨ leAt b 4 2 ≠ 1 ∨ leAt b 6 2 ≠ (if kind = 2 then 1 else 2) ∨ len < 0x28 ∨ b.length < len ∨ n = 0 ∨ 8192 < n ∨
      leAt b 0x10 8 ≠ Config.serial.toNat ∨ (if kind = 2 then !leaseOk b else (overlayItems b).isNone) then 3
  else match s.boot.nvKey with
    | some k => if kmac256 (keyBytes k) (b.take (len - 16)) 16 (ascii (if kind = 2 then "LEASE" else "CALIB")) = sliceL b (len - 16) 16 then 0 else 4
    | none => 4

/-! ### Boot steps (R589) -/

/-- Step 5: the factory table and the overlay are checked, and the calibration is applied (R605, R606). -/
def finishCalibration (s : State) : State :=
  let f := s.boot.flashBytes 0x3F00000 0x80000
  let ok := shake256 (f.take (leAt f 8 4)) 32 == keyBytes Config.factDigest
  let s1 := s.wb bootPage 0x100 17 ok
  let s2 := if ok then s1 else s1.fault { page := bootPage, code := 0xF002 }
  let o := s.boot.flashBytes 0x3F80000 0x40000
  let here := leAt o 0 4 == 0x4C454153
  let good := here && s.blockError 3 o == 0
  let s3 := s2.wb bootPage 0x100 18 good
  let s4 := if here && !good then s3.fault { page := bootPage, code := 0xF005 } else s3
  finishStep 5 { s4 with boot := { s4.boot with overlay := if good then o.take (leAt o 8 4) else [] } }

/-- Step 6: both DRAM stacks are up. -/
def finishDram (s : State) : State :=
  let up := [12, 13].foldl (fun t d => if t.domOn d then t else (domainOn d t).wb pwrPage 0x108 d true) s
  finishStep 6 up

/-- Step 9: firmware checks the lease and applies it (R600). -/
def finishLease (s : State) : State :=
  let b := s.boot.flashBytes 0x3FC0000 0x40000
  let s1 := if s.blockError 2 b = 0 then
      (leaseEntries b).foldl (fun t e => rwlWrite (e.1 / 4096) (e.1 % 4096) e.2 t) (s.wb bootPage 0x100 16 true)
    else s.fault { page := bootPage, code := 0xF004 }
  { s1 with boot := { s1.boot with step := 10 } }

/-- A step that takes time completes (R589); `outcome` other than 0 in step 7 is a flash read that has failed. -/
def bootStepComplete (outcome : Nat) (s : State) : State :=
  if !s.power.aligned then s
  else match s.boot.step with
    | 1 =>
      if Config.fusesGood then { s with boot := { s.boot with step := 2 } }
      else { s with boot := { s.boot with step := 0 } }.fault { page := bootPage, code := 0xF001 }
    | 2 => { s with boot := { s.boot with step := 3, nvResetCount := (s.boot.nvResetCount + 1) % 2 ^ 64 } }
    | 3 => enterStep (if s.boot.provN then 5 else 4) (deriveKeys s)
    | 5 => finishCalibration s
    | 6 => finishDram s
    | 7 => finishFlash (decide (outcome ≠ 0)) s
    | 8 => finishNet s
    | 9 => finishLease s
    | _ => s

/-- BOOT_STEP_COMPLETE (R589). -/
def execBootStepComplete (outcome : Nat) (s : State) : Host.Outcome State Fault Refusal := .next (bootStepComplete outcome s)

/-! ### BOOT_LOCK (R596, R597) -/

/-- The offsets of the RWL words of a page, ascending. -/
def rwlOffsets (p : Nat) : List Nat := ((List.range 1024).map fun k => 4 * k).filter (isRwl p)

/-- BIND_DIGEST (R597). -/
def State.bindDigest (s : State) : List Byte := shake256 (allPages.flatMap fun p => (rwlOffsets p).flatMap fun o => leBytes 4 (s.rd p o)) 32

/-- A write of BOOT_LOCK: from the boot agent it closes the boot window; from any other identity it ends in DENIED (R596). -/
def actBootLock (id v : Nat) (s : State) : State :=
  if id ≠ 0 then s.busErr id bootPage 3
  else if !bit v 0 || !s.boot.window then s
  else
    let d := s.bindDigest
    let s1 := (List.range 8).foldl (fun t k => t.wr bootPage (0x160 + 4 * k) (leAt d (4 * k) 4)) (setPhase 4 (s.wr bootPage 0x104 1))
    startCores (allCores.filter fun i => i != 1)
      { s1 with boot := { s1.boot with window := false, step := 11, announced := [] }
                power := { s1.power with kicks := allCores.foldl (fun m c => NMap.put m c s.reading) s1.power.kicks } }

/-- BOOT_LOCK (R596). -/
def execBootLock (id : Ident) (s : State) : Host.Outcome State Fault Refusal := .next (guardW id bootPage 0x104 s (actBootLock id 1))

/-- A write of SVN_CMD: COMMIT raises SVN_FLOOR to the SVN of the running image (R598). -/
def actSvnCmd (v : Nat) (s : State) : State :=
  if bit v 0 && s.boot.imageOk then { s with boot := { s.boot with svnFloor := max s.boot.svnFloor (min 32 (s.rd bootPage 0x118)) } } else s

/-- SVN_COMMIT (R598). -/
def execSvnCommit (id : Ident) (s : State) : Host.Outcome State Fault Refusal := .next (guardW id bootPage 0x224 s (actSvnCmd 1))

/-- NV_IPV4_WRITE (R607). -/
def execNvIpv4Write (id : Ident) (value : Word) (s : State) : Host.Outcome State Fault Refusal :=
  .next (guardW id bootPage 0x184 s fun t => { t with boot := { t.boot with nvIpv4 := value.toNat } })

/-! ### Access to memory by an identity (R242, R590, R599) -/

/-- A range lies in DRAM or in the galleries. -/
def dramOrGallery (a n : Nat) : Bool := decide (a + n ≤ dramSize) || (decide (galBase ≤ a) && decide (a + n ≤ galBase + galSize))

/-- An identity may access a range of DRAM or of the galleries with a right, 1 R, 2 W: a session or a crosscut port by a grant, a
foreman core by the windows of its partition, the boot agent and the manager cores always (R242, R590, R599, log entry 38). -/
def State.memOk (s : State) (id right a n : Nat) : Bool :=
  dramOrGallery a n && (if s.boot.window then id == 0
    else if 8 ≤ id ∧ id ≤ 0x14 then s.grantOk id right a n
    else if 0x20 ≤ id then (match s.partOf (id - 0x20) with
      | some p => s.partAllow p right a n
      | none => false)
    else true)

/-! ### Installs (R604) -/

/-- The RESULT with which an install of a block will end, and the block (R604). -/
def State.installCheck (s : State) (id kind : Nat) : Nat × List Byte :=
  let a := s.rd64 bootPage 0x190
  let n := s.rd bootPage 0x198
  if (flashRange kind).2 < n ∨ !s.memOk id 1 a n ∨ (s.ueIn a n).isSome then (2, [])
  else
    let b := s.ldBytes a n
    let e := if kind = 1 then (let x := imageError s.boot.svnFloor b; if x = 0 then 0 else 0x10 + x) else s.blockError kind b
    (e, b)

/-- A write of INST_CMD: GO with KIND (R604); the flash range holds no valid block while it is programmed. -/
def actInstCmd (id v : Nat) (s : State) : State :=
  let kind := fld v 1 0
  if !bit v 8 || kind == 0 || s.quiet bootPage then s
  else if s.boot.install.isSome || s.boot.calPending.isSome then s.wf bootPage 0x18C 15 8 1
  else
    let r := s.installCheck id kind
    let a := s.rd64 bootPage 0x190
    let n := s.rd bootPage 0x198
    let s1 := if !s.memOk id 1 a n then s
      else match s.ueIn a n with
        | some w => ueStrike w none false s id
        | none => s.correct a n
    let b := if r.1 = 0 then s1.boot.program (flashRange kind).1 (flashRange kind).2 [] else s1.boot
    { s1 with boot := { b with install := some (kind, r.1, if r.1 = 0 then r.2 else []) } }

/-- INSTALL (R604). -/
def execInstall (id : Ident) (kind : Nat) (s : State) : Host.Outcome State Fault Refusal :=
  .next (guardW id bootPage 0x188 s (actInstCmd id (kind % 4 + 256)))

/-- An install ends with its RESULT (R604); an overlay is then a pending calibration change (R606). -/
def instDone (s : State) : State :=
  match s.boot.install with
  | none => s
  | some (kind, r, bytes) =>
    let b := if r = 0 then s.boot.program (flashRange kind).1 (flashRange kind).2 bytes else s.boot
    let s1 : State := { s with boot := { b with install := none, calPending := if r = 0 ∧ kind = 3 then some true else b.calPending } }
    let s2 := (s1.wf bootPage 0x18C 15 8 r).irq bootPage 8
    if r = 0 then s2 else (s2.fault { page := bootPage, code := 0xF006 }).tally bootPage 0x91

/-- INST_DONE (R604). -/
def execInstDone (s : State) : Host.Outcome State Fault Refusal := .next (instDone s)

/-! ### Calibration (R606) -/

/-- RESTORE_FACTORY: the overlay range is erased, the change is pending, and an overlay install ends with ABORTED (R604, R606). -/
def restoreFactory (s : State) : State :=
  let b := s.boot.program (flashRange 3).1 (flashRange 3).2 []
  let inst := match b.install with
    | some (3, r, _) => some (3, if r = 0 then 6 else r, [])
    | x => x
  { s with boot := { b with install := inst, calPending := some false } }

/-- A write of CAL_CMD (R606). -/
def actCalCmd (v : Nat) (s : State) : State := if bit v 0 then restoreFactory s else s

/-- RESTORE_FACTORY (R606). -/
def execRestoreFactory (id : Ident) (s : State) : Host.Outcome State Fault Refusal := .next (guardW id bootPage 0x19C s (actCalCmd 1))

/-- A band boundary: an enabled head group stands in the first line s_b of a band, or none is enabled (R606). -/
def State.calBoundary (s : State) : Bool :=
  let on := (List.range 4).filter s.hgEn
  on == [] || on.any fun g => (s.leadHead g).isSome && decide ((s.hgPos g).2 < s.hgA g) && (s.hgPos g).2 % s.hgH g == 0

/-- The pending calibration takes effect at the band boundary (R606). -/
def calApplied (s : State) : State :=
  match s.boot.calPending with
  | none => s
  | some ov =>
    if !s.calBoundary then s else
    let o := s.boot.flashBytes 0x3F80000 0x40000
    { s with boot := { s.boot with calPending := none, overlay := if ov then o.take (leAt o 8 4) else [] } }.irq bootPage 10

/-- CAL_APPLIED (R606). -/
def execCalApplied (s : State) : Host.Outcome State Fault Refusal := .next (calApplied s)

/-- CAL_STAT (R607): PENDING, OVERLAY_ACTIVE, items overridden. -/
def State.calStat (s : State) : Nat :=
  b2n s.boot.calPending.isSome + 2 * b2n (s.boot.overlay != []) + 256 * (if s.boot.overlay = [] then 0 else leAt s.boot.overlay 0xC 4 % 256)

/-! ### The digest of the settings (R355, R356) -/

/-- The 6,600-byte message (R355). -/
def State.settings (s : State) : List Byte :=
  leBytes 4 1 ++ leBytes 1 0xB0 ++ leBytes 1 (if Config.gradeB then 0xB else 0xA) ++ leBytes 2 0 ++
    (List.range 16).flatMap (fun k => leBytes 4 (s.rd bootPage (0x120 + 4 * k))) ++
    (List.range 64).flatMap (fun k => leBytes 4 (s.rd clkPage (0x100 + 4 * k))) ++
    (List.range 32).flatMap (fun k => leBytes 4 (s.rd pwrPage (0x180 + 4 * k))) ++
    (List.range 512).flatMap (fun f => (List.range 3).flatMap fun k => leBytes 4 (s.rd (s.facePg f) (0x108 + 4 * k)))

/-- A recomputation completes (R356). -/
def sdRecompute (s : State) : State :=
  if s.rb cagePage 0x654 0 then s
  else
    let d := shake256 s.settings 32
    let s1 := (List.range 8).foldl (fun t k => t.wr cagePage (0x660 + 4 * k) (leAt d (4 * k) 4)) s
    (s1.incWrap cagePage 0x658).wb cagePage 0x654 0 true

/-- SD_RECOMPUTE_DONE (R356). -/
def execSdRecomputeDone (s : State) : Host.Outcome State Fault Refusal := .next (sdRecompute s)

/-! ### Attestation (R601-R603) -/

/-- A write of ATT_CMD: GO is discarded while BUSY and before BOOT_LOCK (R602, R603). -/
def actAttCmd (id v : Nat) (s : State) : State :=
  if bit v 0 && s.boot.att.isNone && !s.boot.window && !s.quiet bootPage then { s.wf bootPage 0x1A8 15 8 1 with boot := { s.boot with att := some id } } else s

/-- ATT_GO (R602). -/
def execAttGo (id : Ident) (s : State) : Host.Outcome State Fault Refusal := .next (guardW id bootPage 0x1A4 s (actAttCmd id 1))

/-- The signed part of the report (R602). -/
def State.attHead (s : State) (leaf : Nat) : List Byte :=
  let words (p o n : Nat) : List Byte := (List.range n).flatMap fun k => leBytes 4 (s.rd p (o + 4 * k))
  leBytes 4 0x41545354 ++ leBytes 2 1 ++ leBytes 1 0xB0 ++ leBytes 1 (if Config.gradeB then 0xB else 0xA) ++ leBytes 8 Config.serial.toNat ++
    leBytes 8 s.boot.nvResetCount ++ leBytes 4 leaf ++ leBytes 4 (s.rd bootPage 0x118) ++ words bootPage 0x1C0 8 ++ words bootPage 0x120 16 ++
    words cagePage 0x660 8 ++ leBytes 4 (s.rd cagePage 0x658) ++ leBytes 4 s.boot.svnFloor ++ leBytes 8 s.gcount ++ words bootPage 0x160 8 ++
    (if s.boot.overlay = [] then List.replicate 32 0 else shake256 s.boot.overlay 32) ++ List.replicate 16 0

/-- The request of an attestation ends with a RESULT (R603, R608). -/
def attEnd (r : Nat) (s : State) : State := ({ s.wf bootPage 0x1A8 15 8 r with boot := { s.boot with att := none } }).irq bootPage 9

/-- The report is written once SD_STAT.VALID reads 1 (R601, R602). -/
def attDone (s : State) : State :=
  match s.boot.att with
  | none => s
  | some id =>
    let a := s.rd64 bootPage 0x1B0
    if !s.rb cagePage 0x654 0 then s
    else if 1048576 ≤ s.boot.leafNext then attEnd 3 (s.fault { page := bootPage, code := 0xF007 })
    else if !s.memOk id 2 a 4096 then attEnd 2 s
    else
      let leaf := s.boot.leafNext
      let b := { s.boot with nvLeafLimit := if leaf = s.boot.nvLeafLimit then s.boot.nvLeafLimit + 64 else s.boot.nvLeafLimit, leafNext := leaf + 1 }
      let h := s.attHead leaf
      let report := h ++ (List.range 2820).map (fun i => Config.xmssSign leaf h i) ++ List.replicate 1020 0
      attEnd 0 ((storeBytes id none a report { s with boot := b }).tally bootPage 0x92)

/-- ATT_DONE (R602). -/
def execAttDone (s : State) : Host.Outcome State Fault Refusal := .next (attDone s)

end Sys2Proof.Machine
end

