-- ==== Sys2Proof/Machine/Winze.lean ====
section
/-! DEFINITION. Winze mailbox channels (R47-R53): their bindings, messages, wake events and acknowledgements. -/
namespace Sys2Proof.Machine

/-- BIND of a channel: SENDER, RECEIVER, VALID (R47). -/
def State.bind (s : State) (c : Nat) : Nat × Nat × Bool :=
  (s.rf (winzePage c) 0x150 5 0, s.rf (winzePage c) 0x150 13 8, s.rb (winzePage c) 0x150 16)

/-- An access to DATA, GO or ACK of a channel that the binding refuses (R48): `what` is 0 a DATA write, 1 a DATA read, 2 a GO write,
3 an ACK read, 4 an access of the other kinds. -/
def State.winzeDenied (s : State) (id c what : Nat) : Bool :=
  let (tx, rx, valid) := s.bind c
  !valid ||
    (match what with
      | 0 => decide (c < 56) && id != tx
      | 1 => decide (c < 56) && id != tx && id != rx
      | 2 => decide (c < 56) && id != tx
      | 3 => id != rx
      | _ => false)

/-- A channel is FULL (R47). -/
def State.chanFull (s : State) (c : Nat) : Bool := s.rb (winzePage c) 0x148 0

/-- An access that a FULL channel turns away (R49). -/
def winzeReject (id c : Nat) (s : State) : State := (s.busErr id (winzePage c) 4).tally (winzePage c) 0x80

/-- The wake event of a channel at its receiver (R49, R50). -/
def winzeWake (c : Nat) (s : State) : State :=
  let rx := (s.bind c).2.1
  let t := s.send (.wake rx c)
  match coreDomain rx with
  | some d => wakeDomain d t
  | none => t

/-- A write of a DATA word (R48, R49). -/
def actWinzeData (id c idx v : Nat) (s : State) : State :=
  if s.winzeDenied id c 0 then s.busErr id (winzePage c) 3
  else if s.chanFull c then winzeReject id c s
  else s.wr (winzePage c) (0x100 + 4 * idx) v

/-- A write of GO (R48, R49); a quiesced channel takes no further message (R35, log entry 29). -/
def actWinzeGo (id c v : Nat) (s : State) : State :=
  let len := fld v 4 0
  if s.winzeDenied id c 2 then s.busErr id (winzePage c) 3
  else if s.chanFull c then winzeReject id c s
  else if len = 0 ∨ 16 < len ∨ s.quiet (winzePage c) then s
  else
    let seq := (s.rf (winzePage c) 0x148 15 8 + 1) % 256
    winzeWake c ((s.wr (winzePage c) 0x148 (1 + 256 * seq + 65536 * len)).wr (winzePage c) 0x14C id)

/-- A manager core acts on a message that it has acknowledged: RESTORE_FACTORY of one word (R606), for the manager core, or a batch
request of four words (R345, log entry 46). -/
def managerMessage (id c : Nat) (s : State) : State :=
  let w (k : Nat) : Nat := s.rd (winzePage c) (0x100 + 4 * k)
  let len := s.rf (winzePage c) 0x148 20 16
  if id = 1 ∧ len = 1 ∧ w 0 = 0xF01 then restoreFactory s
  else if len = 4 ∧ w 0 < 2 ^ 17 ∧ s.batchReqs.length < 32 then batchQueue (batchOf (w 0) (w 1) (w 2) (w 3)) s
  else s

/-- A read of ACK (R48, R51). -/
def actWinzeAck (id c : Nat) (s : State) : State :=
  if s.winzeDenied id c 3 then s.busErr id (winzePage c) 3
  else if !s.chanFull c then s.reply 0
  else
    let v := s.rd (winzePage c) 0x148
    let t := ((s.wb (winzePage c) 0x148 0 false).irq (winzePage c) 8).reply v
    if 1 ≤ id ∧ id ≤ 3 then managerMessage id c t else t

/-- A read of a DATA word (R48). -/
def actWinzeRead (id c idx : Nat) (s : State) : State :=
  if s.winzeDenied id c 1 then s.busErr id (winzePage c) 3 else s.reply (s.rd (winzePage c) (0x100 + 4 * idx))

/-- WINZE_DATA_WRITE (R49). -/
def execWinzeDataWrite (id : Ident) (chan : Chan) (idx : Fin 16) (value : Word) (s : State) : Host.Outcome State Fault Refusal :=
  .next (guardW id (winzePage chan) (0x100 + 4 * idx) s (actWinzeData id chan idx value.toNat))

/-- WINZE_GO (R49). -/
def execWinzeGo (id : Ident) (chan : Chan) (value : Word) (s : State) : Host.Outcome State Fault Refusal :=
  .next (guardW id (winzePage chan) 0x140 s (actWinzeGo id chan value.toNat))

/-- ACK_READ (R51). -/
def execAckRead (id : Ident) (chan : Chan) (s : State) : Host.Outcome State Fault Refusal :=
  .next (guardR id (winzePage chan) 0x144 s (actWinzeAck id chan))

end Sys2Proof.Machine
end

