-- ==== Sys2Proof/Machine/Adit.lean ====
section
/-! DEFINITION. The Adit ports (R534-R539, R555, R556): received frames and frame elimination, egress queues and scheduled traffic. -/
namespace Sys2Proof.Machine

/-- The egress of a port. -/
def State.adit (s : State) (p : Nat) : AditSt := NMap.get {} s.adits p

/-- The state with the egress of a port changed. -/
def State.modAdit (s : State) (p : Nat) (f : AditSt → AditSt) : State := { s with adits := NMap.put s.adits p (f (s.adit p)) }

/-! ### Scheduled traffic (R535-R537) -/

/-- The intervals of a list cut at the cycle end, the last one holding until it (R536): each with its gates and its end. -/
def gateSpans (cycle : Nat) : Nat → List (Nat × Nat) → List (Nat × Nat)
  | _, [] => []
  | at', [(g, _)] => if at' < cycle then [(g, cycle)] else []
  | at', (g, n) :: r => if at' < cycle then (g, min cycle (at' + n)) :: gateSpans cycle (at' + n) r else []

/-- How long from a position of the cycle the gate of a class stays open, in ns, at most one cycle: 0 when it is closed. -/
def gateOpen (c pos cycle : Nat) (spans : List (Nat × Nat)) : Nat :=
  let two := spans ++ spans.map fun e => (e.1, e.2 + cycle)
  match two.find? fun e => decide (pos < e.2) && !bit e.1 c with
  | none => cycle
  | some e => let start := ((two.filter fun x => decide (x.2 < e.2)).map (·.2)).foldl max 0
              if start ≤ pos then 0 else min cycle (start - pos)

/-- The gate of class `c` of a port lets a frame of `ns` start now: with no operating list, and with QBV_EN 0, every gate is open
(R536, log entry 40). -/
def State.gateLets (s : State) (p c ns : Nat) : Bool :=
  match (if s.rb (aditPage p) 0x100 19 then (s.adit p).oper else none) with
  | none => true
  | some l =>
    let pos := (((s.time.c2.t : Int) - l.base) % (l.cycle : Nat)).toNat
    let spans := gateSpans l.cycle 0 l.rows
    (spans.all fun e => bit e.1 c) || decide (ns ≤ gateOpen c pos l.cycle spans)

/-- Time of a UDP datagram on the wire in ns: preamble, Ethernet, IPv4 and UDP headers, a tag, and the check sequence, at 2.5 Gbit/s
(log entry 40). -/
def wireNs (tag : Bool) : Out → Nat
  | .frame _ _ _ b => ceilDiv (16 * (8 + max 64 (14 + 20 + 8 + b.length + 4 + 4 * b2n tag))) 5
  | _ => 0

/-- The frames that wait, in order of their classes, leave while their gates let them; the rest waits (R535, R536). -/
def releaseClass (p c : Nat) : List (Nat × Out) → State → List (Nat × Out) × State
  | [], s => ([], s)
  | (k, o) :: r, s =>
    if k ≠ c then let x := releaseClass p c r s; ((k, o) :: x.1, x.2)
    else if s.gateLets p c (wireNs (s.rb (aditPage p) 0x100 0) o) then releaseClass p c r (s.send o)
    else ((k, o) :: r, s)

/-- Every class of a port in turn, the highest first (R535). -/
def aditRelease (p : Nat) (s : State) : State :=
  ((List.range 8).reverse).foldl (fun t c => let x := releaseClass p c (t.adit p).queue t; x.2.modAdit p fun a => { a with queue := x.1 }) s

/-- A datagram sent on a port in class `c`: it waits when its gate does not let it start (R536). -/
def aditSend (p c ip udp : Nat) (payload : List Byte) (s : State) : State :=
  let o := Out.frame p ip udp payload
  if ((s.adit p).queue.any fun e => e.1 == c) || !s.gateLets p c (wireNs (s.rb (aditPage p) 0x100 0) o) then
    (s.modAdit p fun a => { a with queue := a.queue ++ [(c, o)] }).tally (aditPage p) 0x7D
  else s.send o

/-- The first instant base + k × cycle that is at least 1 µs after a commit (R537). -/
def takeOver (base cycle now : Nat) : Nat := if now + 1000 ≤ base then base else base + ceilDiv (now + 1000 - base) cycle * cycle

/-- A write of QBV_CMD: COMMIT copies the staging list into the pending list, or is discarded (R537). -/
def actQbvCmd (p v : Nat) (s : State) : State :=
  let n := s.rf (aditPage p) 0x134 6 0
  let cycle := s.rf (aditPage p) 0x130 29 0
  let base := s.rd64 (aditPage p) 0x128
  let rows := (List.range n).map fun k => (s.rf (aditPage p) (0x200 + 4 * k) 7 0, s.rf (aditPage p) (0x200 + 4 * k) 31 8)
  if !bit v 0 || n == 0 || decide (64 < n) || decide (cycle < 1000) || decide (1000000000 < cycle) || rows.any (fun e => e.2 == 0) then s
  else s.modAdit p fun a => { a with pending := some (⟨base, cycle, rows⟩, takeOver base cycle s.time.c2.t) }

/-- QBV_COMMIT (R537). -/
def execQbvCommit (id : Ident) (port : Fin 2) (s : State) : Host.Outcome State Fault Refusal :=
  .next (guardW id (aditPage port) 0x138 s (actQbvCmd port 1))

/-- The pending list becomes the operating list (R537). -/
def qbvChange (p : Nat) (s : State) : State :=
  match (s.adit p).pending with
  | none => s
  | some (l, _) => aditRelease p ((s.modAdit p fun a => { a with oper := some l, pending := none }).irq (aditPage p) 10)

/-- QBV_CHANGE (R537). -/
def execQbvChange (port : Fin 2) (s : State) : Host.Outcome State Fault Refusal := .next (qbvChange port s)

/-- QBV_GATE_ENTRY (R536): frames that waited for their gate leave. -/
def execQbvGateEntry (port : Fin 2) (s : State) : Host.Outcome State Fault Refusal := .next (aditRelease port s)

/-- ADIT_LINK_CHANGE (R556). -/
def execAditLinkChange (port : Fin 2) (up : Bool) (s : State) : Host.Outcome State Fault Refusal :=
  .next (if s.rb (aditPage port) 0x104 0 == up then s else (s.wb (aditPage port) 0x104 0 up).irq (aditPage port) 11)

/-- ADIT_STAT (R555): LINK_UP, RXQ, QBV_OPER, QBV_PENDING. -/
def State.aditStat (s : State) (p : Nat) : Nat :=
  s.rd (aditPage p) 0x104 % 2 + 256 * s.rxq.length + 65536 * b2n ((s.adit p).oper.isSome && s.rb (aditPage p) 0x100 19) + 131072 * b2n (s.adit p).pending.isSome

/-! ### Received frames (R534, R539; the layout is log entry 39) -/

/-- A frame of a length that a port receives: at most 1,518 bytes, or 1,522 with a tag, check sequence included (R534). -/
def ethLenOk (b : List Byte) : Bool := decide (14 ≤ b.length) && decide (b.length + 4 ≤ (if beAt b 12 2 = 0x8100 then 1522 else 1518))

/-- What the recovery function does with a frame of a stream. -/
inductive CbVerdict where
  | pass
  | duplicate
  | outside
deriving DecidableEq, Repr

/-- Frames whose places leave a history of `n` bits when it moves by `d`, and of which one copy alone has come. -/
def CbStream.single (n d : Nat) (x : CbStream) : Nat :=
  ((List.range n).filter fun k => decide (n ≤ k + d) && bit x.hist k && !bit x.both k).length

/-- The vector recovery algorithm of IEEE 802.1CB with history length `n` on a further frame of a stream: what becomes of the frame,
the stream, and how many frames it has recovered. -/
def CbStream.take (n seq : Nat) (x : CbStream) : CbVerdict × CbStream × Nat :=
  let d := sext 16 (seq + 2 ^ 16 - x.recov % 2 ^ 16)
  let back := (-d).toNat
  if (n : Int) ≤ d ∨ d ≤ -(n : Int) then (.outside, x, 0)
  else if d ≤ 0 then
    (if bit x.hist back then (.duplicate, { x with both := setBit x.both back true }, 0) else (.pass, { x with hist := setBit x.hist back true }, 0))
  else (.pass, { x with recov := seq, hist := (x.hist * 2 ^ d.toNat + 1) % 2 ^ n, both := x.both * 2 ^ d.toNat % 2 ^ n }, x.single n d.toNat)

/-- The recovery function on a frame of a port that carries an R-TAG (R539): whether the frame passes. -/
def cbReceive (p : Nat) (f : EthFrame) (seq : Nat) (s : State) : Bool × State :=
  let n := s.rf (aditPage 0) 0x380 13 8
  match s.cb.find? fun e => e.2.mac == f.src && e.2.vid == f.vid with
  | some (k, x) =>
    let r := x.take n seq
    let t := { s with cb := NMap.put s.cb k r.2.1 }.sumAdd 5 r.2.2
    (r.1 == .pass, if r.1 = .duplicate then (t.incSat (aditPage 0) 0x388).tally (aditPage p) 0x7E else t)
  | none => match (List.range 8).find? fun k => (NMap.find s.cb k).isNone with
    | some k => (true, { s with cb := NMap.put s.cb k { mac := f.src, vid := f.vid, recov := seq, hist := 1 } })
    | none => (true, (s.incSat (aditPage 0) 0x38C).tally (aditPage p) 0x7F)

/-- A frame that arrives on a port: dropped when the receive queue holds 32 frames, otherwise counted and queued (R534, R552, R555). -/
def rxArrive (p : Nat) (b : List Byte) (s : State) : State :=
  let f := parseEth b
  let mac := s.rd64 (aditPage p) 0x108
  if s.boot.testLow || !ethLenOk b || f.etype == 0x8808 || (mac != 0 && f.dst != mac && f.dst != 2 ^ 48 - 1) then s
  else if 32 ≤ s.rxq.length then ((s.incSat (aditPage p) 0x120).tally (aditPage p) 0x79).irq (aditPage p) 9
  else
    let s1 := (s.inc64 (aditPage p) 0x118).tally (aditPage p) 0x78
    { s1 with rxq := s1.rxq ++ [⟨p, b, s.rd (aditPage p) 0x110, s.rf (aditPage p) 0x114 15 0⟩] }

/-- A frame taken from the receive queue: passed by the recovery function, and given to `act` when it carries a UDP datagram to one of the
addresses of the port (R534, R539). -/
def rxTake (x : RxFrame) (addrs : List Nat) (act : Dgram → State → State) (s : State) : State :=
  let f := parseEth x.frame
  let r := match (if s.rb (aditPage 0) 0x380 0 then f.rtag else none) with
    | some q => cbReceive x.port f q s
    | none => (true, s)
  if !r.1 || f.etype ≠ 0x0800 then r.2
  else match parseUdp f.body with
    | none => r.2
    | some d => if d.dst = x.ip ∨ d.dst = 2 ^ 32 - 1 ∨ addrs.contains d.dst then act d r.2 else r.2

/-- CB_STREAM_RESET (R539). -/
def execCbStreamReset (idx : Fin 8) (s : State) : Host.Outcome State Fault Refusal := .next { s with cb := NMap.del s.cb idx }

end Sys2Proof.Machine
end

