-- ==== Sys2Proof/Machine/Reads.lean ====
section
/-! DEFINITION. What the registers read that show the state of a block (R35, R42, R99, R145, R258, R259, R261, R281, R317, R348, R376,
R415, R418, R442, R471, R499-R504, R530, R531, R555, R581, R582, R607, R638, R649), and how a read is answered (R5, R9, R10, R513). -/
namespace Sys2Proof.Machine

/-- The word at `off` of a 64-bit value that stands at `lo`. -/
def word64 (lo off v : Nat) : Nat := if off = lo then v % 2 ^ 32 else v / 2 ^ 32 % 2 ^ 32

/-- STAT of a page (R35): POWERED shows the page's domain, from reset on (log entry 29). -/
def State.statReg (s : State) (p : Nat) : Nat :=
  let busy := s.pageBusy p
  if !s.pageOn p then 0
  else b2n (s.en p) + 2 * b2n (s.quiet p && !busy) + 4 * b2n busy + 8 * b2n (s.rf p 0x01C 15 0 != 0) + 16

/-- UNIT_PART of a page (R42). -/
def State.unitPart (s : State) (p : Nat) : Nat :=
  match unitStopes p with
  | [] => 0x3F
  | st :: r => match s.partOf st with
    | some q => if r.all fun x => s.partOf x == some q then q else 0x3F
    | none => 0x3F

/-- UNIT_STEP of a page (R16, R42): the step counter of its first active face. -/
def State.unitStep (s : State) (p : Nat) : Nat := ((s.activeFaces p).head?.map fun f => (s.face f).step).getD 0

/-- UNIT_STATE of a page (R42): STATE, LOAD_ERR, MEMBERS_BUSY. -/
def State.unitStateReg (s : State) (p : Nat) : Nat :=
  let u := s.unitState p
  let busy := ((s.unitFaces p).filter s.faceBusy).length
  u.1 + 256 * u.2 + 65536 * busy

/-- PART_STAT of a partition (R348). -/
def State.partStat (s : State) (q : Nat) : Nat :=
  let x := s.part q
  (x.running.map fun h => (s.ctx h).slot % 64 + 64 + (if (s.ctx h).cls = 1 then 4096 else 0)).getD 0 +
    128 * b2n x.switching + 256 * (s.residents q).length + 65536 * min 63 x.ready.length

/-- HG_POS of a head group (R99): LINE, and BAND or 0xFF in blanking. -/
def State.hgPosReg (s : State) (g : Nat) : Nat :=
  let l := (s.hgPos g).2
  if (s.hgHeads g).any fun j => decide (2 ≤ (s.head j).timing) then l + 65536 * (if l < s.hgA g then l / s.hgH g % 256 else 0xFF) else 0

/-- AD_STAT of a head group (R318). -/
def State.adStat (s : State) (g : Nat) : Nat :=
  s.rd cagePage (adOff g + 0x28) % 2 + 2 * b2n ((s.ad g).phase == 1 && !(s.ad g).failed) + 4 * b2n ((s.ad g).phase == 2) +
    8 * b2n ((List.range 2).any fun i => s.rd64 cagePage (hgOff g + 0x18) != 0 && s.hBit (s.slotHdr g true i) 3) +
    256 * s.rf cagePage (adOff g + 0x28) 11 8

/-- RED_STAT (R317): the pass is the one that the request waits for; in a wall of one device only the local pass runs (R305). -/
def State.redStat (s : State) : Nat := match s.red with
  | none => 0
  | some j =>
    let w := s.rd cagePage 0x500
    let pass := if !s.mirror && fld w 11 6 == 0 then 1
      else if s.mirror || j.total != [] then 4
      else if fld w 2 0 ≠ 0 ∧ j.fromW = [] then 2 else if fld w 2 0 < fld w 8 6 then 4 else 3
    1 + 2 * pass + 256 * j.seq

/-- REC_STAT (R376). -/
def State.recStat (s : State) : Nat :=
  s.rd cagePage 0x604 / 65536 * 65536 + b2n (s.rb cagePage 0x600 0) + 2 * b2n (NMap.find s.recGap 0).isSome + 4 * b2n s.replay +
    8 * b2n (s.rb cagePage 0x604 3) + 16 * b2n (NMap.find s.recGap 1).isSome

/-- A register of the cage page that shows state; ARM of a switch reads 1 while the switch is PENDING (R5, log entry 45). -/
def State.cageReg (s : State) (off : Nat) : Option Nat :=
  if 0x100 ≤ off ∧ off < 0x300 then
    let g := (off - 0x100) / 0x80
    match (off - 0x100) % 0x80 with
    | 0x4C => some (257 * b2n (s.rb cagePage (hgOff g + 0x4C) 8) + 512 * b2n (s.oldBusy g))
    | 0x5C => some (setBit (s.rd cagePage (hgOff g + 0x5C)) 8 (s.rb cagePage (hgOff g + 0x5C) 9))
    | 0x50 => some (s.hgPos g).1
    | 0x54 => some (s.hgPosReg g)
    | _ => none
  else if 0x300 ≤ off ∧ off < 0x340 then
    let k := (off - 0x300) / 16
    if off % 16 = 0xC then some (s.rd cagePage off / 256 * 256 + b2n (s.slotValid k) + 2 * b2n (s.slotInUse k)) else none
  else if 0x400 ≤ off ∧ off < 0x500 then (if off % 0x40 = 0x28 then some (s.adStat ((off - 0x400) / 0x40)) else none)
  else match off with
    | 0x508 => some s.redStat
    | 0x604 => some s.recStat
    | _ => none

/-- FACE_MAP of a physical face (R145). -/
def State.faceMap (s : State) (p : Nat) : Nat :=
  (match s.logicalOf p with
    | some f => f + 4096
    | none => 0x1FF) + 8192 * b2n (p % 17 == 16) +
    16384 * b2n (p % 17 != 16 && s.spareUsed (p / 17) && s.spareK (p / 17) == p % 17)

/-- FACE_STAT of a physical face (R145). -/
def State.faceStat (s : State) (p : Nat) : Nat := match s.logicalOf p with
  | none => 0
  | some f =>
    let x := s.face f
    let banks := (x.issued.filter fun o => !o.done && (o.begun || (wOp o.word == 0x42 || (wOp o.word == 0x62 && !bankPending x.issued)))).map
      fun o => if wOp o.word = 0x42 then cfgAccWr (x.cfg (leAt o.data 0 1)) else usedBanks x o.word o.data
    matrixQueue x + 16 * copiesOut x + 512 * b2n (latticeBusy x) + 1024 * x.cfgSel +
      4096 * ((List.range 4).map fun k => 2 ^ k * b2n (nth {} x.cfgs k).valid).foldl (· + ·) 0 + 65536 * (banks.foldl (· ||| ·) 0 % 4)

/-- A register of a face page that shows state. -/
def State.faceReg (s : State) (p off : Nat) : Option Nat :=
  match off with
  | 0x100 => some (s.faceMap p)
  | 0x104 => some (s.faceStat p)
  | 0x11C => some (((s.logicalOf p).map fun f => (s.face f).lflags).getD 0)
  | 0x128 | 0x12C | 0x130 | 0x134 => some (((s.logicalOf p).map fun f =>
      let c := nth {} (s.face f).cfgs ((off - 0x128) / 4)
      if c.valid then c.src + 2 ^ 31 else 0).getD 0)
  | _ => none

/-- HOIST_STAT (R258). -/
def State.hoistStat (s : State) (h : Nat) : Nat :=
  let q := NMap.get [] s.hoists h
  min 32 (q.filter fun j => !j.taken).length + 256 * b2n (q != []) + 512 * (if 64 ≤ h then 2 else h % 2)

/-- A register of a head page that shows state. -/
def State.headReg (s : State) (h off : Nat) : Option Nat :=
  match off with
  | 0x108 => some (setBit (s.rd (headPage h) 0x108) 17 ((s.head h).timing == 2))
  | 0x10C => some (if 2 ≤ (s.head h).timing then (s.head h).frame else 0)
  | 0x118 => some (if 2 ≤ (s.head h).timing then (s.head h).line else 0)
  | 0x124 => some (s.headGroupReg h)
  | _ => none

/-- A register of the ingress class that shows state. -/
def State.ingressReg (s : State) (i off : Nat) : Option Nat :=
  if i < 0x10 then (if off = 0x100 then some (s.rd (portPage i) 0x100 % 4 + 4 * s.portFlows i) else none)
  else if i < 0x20 then (if off = 0x130 then some (s.flowStat (i - 0x10)) else none)
  else if i < 0x24 then (if off = 0x104 then some (setBit (s.rd (camPage (i - 0x20)) 0x104) 1 (s.cam (i - 0x20)).inFrame) else none)
  else if off = 0x114 then some (s.spiStat (i - 0x30)) else none

/-- RAS_STAT of a tiler (R442). -/
def State.rasStat (s : State) (c : Nat) : Nat :=
  let t := s.tiler c
  let r := s.rf (tilerPage c) 0x108 15 8 * 256
  match t.job with
  | some j => t.queue.length + 8 + 16 * (if j.binned then 3 else 2) + r + 65536 * j.pass
  | none => t.queue.length + (if t.queue = [] then 0 else 16) + r

/-- SORT_STAT of a sorter: QUEUED, BUSY, WAITING for START, LAST_STATUS (R290). -/
def State.sortStat (s : State) (c : Nat) : Nat :=
  let t := s.sorter c
  t.queue.length + 16 * b2n t.job.isSome + 32 * b2n (t.job.isNone && !t.queue.isEmpty) + s.rf (sorterPage c) 0x108 15 8 * 256

/-- GL_STAT (R530). -/
def State.glStat (s : State) : Nat :=
  s.rd timePage 0x210 / 4 * 4 + (if s.calSource 1 = 2 then s.time.c1.state % 4 else 0)

/-- A register of the time page that shows state. -/
def State.timeReg (s : State) (off : Nat) : Option Nat :=
  let c := (off - 0x140) / 0x40
  match off with
  | 0x100 | 0x104 => some (word64 0x100 off s.time.count)
  | 0x108 | 0x10C => some (word64 0x108 off s.reading)
  | 0x118 | 0x11C => some (word64 0x118 off s.gcount)
  | 0x210 => some s.glStat
  | _ =>
    if off < 0x140 ∨ 0x200 ≤ off then none
    else match (off - 0x140) % 0x40 with
      | 0x1C => some (b2n (s.clock c).arm)
      | 0x28 => some (if c = 0 then 0 else (s.clock c).sec % 2 ^ 32)
      | 0x2C => some (if c = 0 then 0 else (s.clock c).sec / 2 ^ 32)
      | 0x30 => some (b2n ((s.clock c).slew != 0) + 2 * b2n (s.clock c).arm + 4 * (s.clock c).state)
      | 0x34 => some (toField 32 (s.clock c).slew)
      | _ => none

/-- A register of a timestamp channel (R525, R531). -/
def State.tsReg (s : State) (k off : Nat) : Option Nat :=
  let q := s.tsQueue k
  let e := q.head?.getD ⟨0, 0, 0, 0⟩
  match off with
  | 0x104 => some q.length
  | 0x108 | 0x10C => some (word64 0x108 off e.reading)
  | 0x110 => some e.calNs
  | 0x118 | 0x11C => some (word64 0x118 off e.calSec)
  | 0x120 => some e.info
  | _ => none

/-- A register of a session (R555). -/
def State.sessReg (s : State) (off : Nat) : Option Nat :=
  if off % 16 = 8 then some (setBit (s.rd (aditPage 0) off) 17 ((NMap.get {} s.sess ((off - 0x300) / 16)).mask != 0)) else none

/-- A register of the boot page that shows state (R607). -/
def State.bootReg (s : State) (off : Nat) : Option Nat :=
  match off with
  | 0x100 => some (setBit (s.rd bootPage 0x100) 19 s.boot.nvKey.isSome)
  | 0x108 | 0x10C => some (word64 0x108 off Config.serial.toNat)
  | 0x110 | 0x114 => some (word64 0x110 off s.boot.nvResetCount)
  | 0x11C => some s.boot.svnFloor
  | 0x184 => some s.boot.nvIpv4
  | 0x18C => some (s.rd bootPage 0x18C / 2 * 2 + b2n s.boot.install.isSome)
  | 0x1A0 => some s.calStat
  | 0x1A8 => some (s.rd bootPage 0x1A8 / 2 * 2 + b2n s.boot.att.isSome)
  | 0x1B8 => some s.boot.leafNext
  | 0x1BC => some s.boot.nvLeafLimit
  | _ => if 0x1E0 ≤ off ∧ off < 0x224 then some (Config.idPub ((off - 0x1E0) / 4)).toNat else none

/-- A register of a page that shows state, and not the register file. -/
def State.shown (s : State) (p off : Nat) : Option Nat :=
  let i := pInst p
  if off = 0x00C then some (s.statReg p)
  else if off < 0x050 then none
  else if off < 0x100 then
    if !pageUnit p then none
    else match off with
      | 0x050 => some (s.unitPart p)
      | 0x078 | 0x07C => some (word64 0x078 off (s.unitStep p))
      | 0x088 => some (s.unitStateReg p)
      | _ => none
  else match pClass p with
    | 0x0 => if i = 0 then (if 0x280 ≤ off ∧ off < 0x300 then some (s.partStat ((off - 0x280) / 4)) else none) else s.cageReg off
    | 0x1 => if p = memPage ∧ off = 0x100 then
        some (b2n (s.domOn 12) + 2 * b2n (s.domOn 13) + 4 * b2n (s.rb memPage 0x104 0 && (s.domOn 12 || s.domOn 13))) else none
    | 0x2 => if 0x200 ≤ off ∧ off < 0x400 then
        some (((List.range 32).map fun k => 2 ^ k * b2n (s.gflag i ((off - 0x200) * 8 + k))).foldl (· + ·) 0) else none
    | 0x4 => s.faceReg i off
    | 0x5 => if off = 0x100 then some (s.hoistStat i) else none
    | 0x6 => s.headReg i off
    | 0x7 => s.ingressReg i off
    | 0x8 => if i < 4 then (if off = 0x12C then some (s.asStat i) else none) else if off = 0x100 then some s.mfStat else none
    | 0x9 => if off ≠ 0x108 then none else if i < 2 then some (s.rasStat i) else some (s.sortStat (i - 2))
    | 0xA => if i = 0 then s.timeReg off else s.tsReg (i - 1) off
    | 0xB => if off = 0x104 then some (s.aditStat i)
        else if i = 0 ∧ 0x300 ≤ off ∧ off < 0x380 then s.sessReg off else if i = 0 ∧ off = 0x384 then some s.cb.length else none
    | 0xD => if off = 0x130 then some (s.xcTags i)
        else if i = 0 ∧ off = 0x204 then some s.pairStat
        else if i = 0 ∧ off = 0x208 then some (b2n (s.takePend || s.takeOut) + 4 * b2n s.faultOut) else none
    | 0xE => s.bootReg off
    | 0xF => if p = canPage ∧ off = 0x104 then some (s.canAlive 0) else if p = canPage ∧ off = 0x108 then some (s.canAlive 1) else none
    | _ => none

/-- The value that a register word holds (R5, R6, R8). -/
def State.value (s : State) (p off : Nat) : Nat := (s.shown p off).getD (s.rd p off)

/-- Values that the manual leaves open: HEAD_PHASE of a head whose timing runs, within 2 ns when it is locked (R471), and
GALLERY_STAT.SCRUB_BUSY. -/
def State.openValue (s : State) (p off : Nat) : Option (Nat × State) :=
  if pClass p = 6 ∧ off = 0x11C ∧ 2 ≤ (s.head (pInst p)).timing then
    let d := s.draw 32
    some (if (s.head (pInst p)).timing = 2 then toField 32 ((d.1 % 5 : Nat) - 2) else d.1, d.2)
  else if pClass p = 2 ∧ off = 0x100 then some (s.draw 1)
  else none

/-- A read that a register answers by its access code (R5, R8, R9, R10): a latched word is answered once; a read of a low word latches
the high word; a read of an RC register clears it. -/
def plainRead (p off : Nat) (s : State) : State :=
  match NMap.find s.latch (regKey p off) with
  | some v => { s.reply v.toNat with latch := NMap.del s.latch (regKey p off) }
  | none => match s.openValue p off with
    | some (v, t) => t.reply v
    | none => match regAt p off with
      | none => s.reply 0
      | some r =>
        let v := s.value p off
        match r.row.acc with
        | .wo => s.reply 0
        | .rc => (s.wr p off 0).reply v
        | _ =>
          if r.row.wide && !r.high then
            { s.reply v with latch := NMap.put s.latch (regKey p (off + 4)) (BitVec.ofNat 32 (s.value p (off + 4))) }
          else s.reply v

/-- A read that has reached a page (R5, R48, R51, R513, R525, R531). -/
def regRead (id p off : Nat) (s : State) : State :=
  if pClass p = 0xC ∧ 0x100 ≤ off ∧ off < 0x148 then
    let c := pInst p
    if off < 0x140 then actWinzeRead id c ((off - 0x100) / 4) s
    else if off = 0x144 then actWinzeAck id c s
    else if s.winzeDenied id c 4 then s.busErr id p 3 else s.reply 0
  else if p = timePage ∧ 0x140 ≤ off ∧ off < 0x200 ∧ (off - 0x140) % 0x40 = 0x20 then actClkNs ((off - 0x140) / 0x40) s
  else if pClass p = 0xA ∧ p ≠ timePage ∧ off = 0x110 then
    let t := plainRead p off s
    let lo := NMap.put t.latch (regKey p 0x118) (BitVec.ofNat 32 (s.value p 0x118))
    { t with latch := NMap.put lo (regKey p 0x11C) (BitVec.ofNat 32 (s.value p 0x11C)) }
  else plainRead p off s

end Sys2Proof.Machine
end

