-- ==== Sys2Proof/Machine/Bus.lean ====
section
/-! DEFINITION. Register and memory accesses of a master (R5-R11, R26-R33): the writes that have an effect of their own, the writes that a
state of the block discards, and the header's FAULT_CLR, TALLY_SEL and TALLY_CTRL (R38, R40, R41). -/
namespace Sys2Proof.Machine

/-! ### The header (R38, R40, R41) -/

/-- A write of FAULT_CLR (R38). -/
def actFaultClr (p v : Nat) (s : State) : State := if v % 65536 = s.rf p 0x01C 15 0 then s.wr p 0x01C 0 else s

/-- A write of TALLY_SEL: a SEL field that takes a new value clears its counter (R40). -/
def actTallySel (p v : Nat) (s : State) : State :=
  match regAt p 0x020 with
  | none => s
  | some r =>
    let n := mergeWrite r.row (s.rd p 0x020) (v % 2 ^ 32)
    (List.range 4).foldl (fun t k => if fld n (8 * k + 7) (8 * k) = s.rf p 0x020 (8 * k + 7) (8 * k) then t else t.wr64 p (tallyOff k) 0)
      (s.wr p 0x020 n)

/-- A write of TALLY_CTRL: CLR clears counters, and an event that falls with it is counted afterwards (R41); bit `k` of `events` is an
event of counter `k`'s source in the same cycle. -/
def actTallyCtrl (p v events : Nat) (s : State) : State :=
  match regAt p 0x024 with
  | none => s
  | some r =>
    let counts (k : Nat) : Bool := bit events k && s.rb p 0x024 k && !s.rb p 0x024 8
    let t := s.wr p 0x024 (mergeWrite r.row (s.rd p 0x024) (v % 2 ^ 32))
    (List.range 4).foldl (fun u k =>
      if bit v (4 + k) || counts k then
        u.wr64 p (tallyOff k) (min (2 ^ 64 - 1) ((if bit v (4 + k) then 0 else u.rd64 p (tallyOff k)) + b2n (counts k))) else u) t

/-! ### Writes that a state of the block discards -/

/-- R101, R319: a register of a head group's block while the group or its adaptation is enabled. -/
def State.hgLocked (s : State) (off : Nat) : Bool :=
  let g := (off - 0x100) / 0x80
  let o := (off - 0x100) % 0x80
  let switch := decide (0x40 ≤ o ∧ o < 0x50)
  (switch && s.adEn g) || (s.hgEn g && !(switch || o == 0x5C || o == 0x60))

/-- R369: the value that a write of RPTR of a ring lists: a multiple of 32, not beyond WPTR in ring order. -/
def State.rptrOk (s : State) (ring v : Nat) : Bool :=
  let n := s.recSize ring
  let old := s.rd cagePage (recRptr ring) % n
  v % 32 == 0 && decide (v < n) && decide ((v + n - old) % n ≤ (s.rd cagePage (recWptr ring) + n - old) % n)

/-- A write to a register of the cage page is discarded (R101, R319, R369, R378). -/
def State.cageLocked (s : State) (off v : Nat) : Bool :=
  if 0x100 ≤ off ∧ off < 0x300 then s.hgLocked off
  else if 0x400 ≤ off ∧ off < 0x500 then s.adEn ((off - 0x400) / 0x40)
  else if off = 0x500 ∨ off = 0x504 then s.adGroups != []
  else if 0x608 ≤ off ∧ off < 0x614 then s.rb cagePage 0x600 0
  else if 0x620 ≤ off ∧ off < 0x62C then s.rb cagePage 0x600 1
  else if off = 0x61C then !s.rptrOk 0 v
  else if off = 0x630 then !s.rptrOk 1 v
  else false

/-- A write of a word that the state of its block discards (R45, R146, R417, R472, R502-R504, R555, R603). -/
def State.writeLocked (s : State) (p off v : Nat) : Bool :=
  let i := pInst p
  if off < 0x050 then false
  else if off < 0x100 then s.unitLocked p
  else match pClass p with
    | 0x0 => i == 1 && s.cageLocked off v
    | 0x4 => decide (0x108 ≤ off ∧ off < 0x114) && (match s.logicalOf i with
      | some _ => (let u := (s.unitState p).1; u == 1 || u == 2 || u == 3)
      | none => false)
    | 0x6 => s.en p && (off == 0x100 || off == 0x110 || off == 0x114)
    | 0x7 =>
      if i < 0x10 then off == 0x104 && decide (0 < s.portFlows i)
      else if i < 0x20 then s.en p
      else if i < 0x24 then s.en p && off == 0x100
      else s.en p && (off == 0x100 || off == 0x104 || off == 0x10C || off == 0x110)
    | 0x8 => s.en p && !(off == 0x114 || off == 0x118 || off == 0x11C || off == 0x120)
    | 0xB => i == 0 && off == 0x380 && s.rb p 0x380 0 && bit v 0
    | 0xE => s.boot.att.isSome && (decide (0x1C0 ≤ off ∧ off < 0x1E0) || off == 0x1B0 || off == 0x1B4)
    | _ => false

/-! ### Writes that have an effect of their own -/

/-- A write of a word of a 64-bit register at `lo` that acts on its high word (R9). -/
def pairWrite (p lo off v : Nat) (act : Nat → State → State) (s : State) : State :=
  if off = lo then { s with held := NMap.put s.held (regKey p lo) (BitVec.ofNat 32 v) }
  else
    let low := match NMap.find s.held (regKey p lo) with
      | some w => w.toNat
      | none => s.rd p lo
    act (low + 2 ^ 32 * (v % 2 ^ 32)) { s with held := NMap.del s.held (regKey p lo) }

/-- A write of CTRL of a page (R35 and the chapters of the blocks). -/
def ctrlAct (id p v : Nat) (s : State) : State :=
  let i := pInst p
  match pClass p with
  | 0x6 => actHeadEn id i v s
  | 0x7 =>
    if i < 0x10 then plainWrite p 0x008 v s
    else if i < 0x20 then actFlowCtrl id (i - 0x10) v s
    else if i < 0x24 then actCamCtrl id (i - 0x20) v s else actSpiCtrl id (i - 0x30) v s
  | 0x8 => if i < 4 then actAssayCtrl id i v s else plainWrite p 0x008 v s
  | 0xD => actXcEn id i v s
  | _ => plainWrite p 0x008 v s

/-- A write to the block-specific registers of the device page that act (R326, R329, R345, R348). -/
def devAct (id off v : Nat) (s : State) : Option State :=
  if 0x100 ≤ off ∧ off < 0x180 then some (actPartCfg ((off - 0x100) / 4) v s)
  else match off with
    | 0x184 => some (actWinCmd v s)
    | 0x1A0 => some (actPartCmd id v s)
    | 0x1A8 => some (actCtxCmd v s)
    | 0x1B8 => some (actBatchCmd id v s)
    | _ => none

/-- A write to the registers of the cage page that act (R97, R99, R319, R376). -/
def cageAct (id off v : Nat) (s : State) : Option State :=
  if 0x100 ≤ off ∧ off < 0x300 then
    let g := (off - 0x100) / 0x80
    match (off - 0x100) % 0x80 with
    | 0x00 => some (actHgCfg0 id g v s)
    | 0x4C => some (actWctrl g v s)
    | 0x5C => some (actSlotNext g v s)
    | _ => none
  else if 0x300 ≤ off ∧ off < 0x340 ∧ off % 16 = 8 then some (actSlotCmd id ((off - 0x300) / 16) v s)
  else if 0x400 ≤ off ∧ off < 0x500 then
    let g := (off - 0x400) / 0x40
    match (off - 0x400) % 0x40 with
    | 0x00 => some (actAdCfg id g v s)
    | 0x38 => some (actAdCmd g v s)
    | _ => none
  else match off with
    | 0x344 => some (actSchedCmd id v s)
    | 0x600 => some (actRecCtrl v s)
    | 0x614 => some (actRecMark v s)
    | _ => none

/-- A privileged write to the time page (R514-R518, R532). -/
def timeAct (id off v : Nat) (s : State) : State :=
  let c := (off - 0x140) / 0x40
  let b := clkOff c
  if 0x140 ≤ off ∧ off < 0x200 then
    match (off - 0x140) % 0x40 with
    | 0x00 | 0x04 => pairWrite timePage b off v (actRate id c) s
    | 0x08 | 0x0C => pairWrite timePage (b + 8) off v (actAdj c) s
    | 0x10 | 0x14 => if c = 0 then s else pairWrite timePage (b + 0x10) off v (fun n t => t.wr64 timePage (b + 0x10) (n % 2 ^ 48)) s
    | 0x18 => actSet c (s.rd64 timePage (b + 0x10)) v s
    | 0x1C => actClkCtrl c v s
    | _ => s
  else if off = 0x120 then actTuSource v s else plainWrite timePage off v s

/-- R514 covers a register of the time page: the whole block of a clock, its unassigned offsets among them (log entry 9), TU_SOURCE,
PTP_CFG and the GENLOCK registers. -/
def timePrivileged (off : Nat) : Bool := off == 0x120 || off == 0x124 || decide (0x140 ≤ off ∧ off < 0x228)

/-- A write of SUMP_RPTR: one that would raise COUNT is not listed (R638). -/
def actSumpRptr (v : Nat) (s : State) : State :=
  let r := v % 4096
  let n := s.rf sumpPage 0x100 12 0
  let m := if r = s.rf sumpPage 0x108 11 0 then n else (s.rf sumpPage 0x104 11 0 + 4096 - r) % 4096
  if n < m then s else (s.wr sumpPage 0x108 r).wf sumpPage 0x100 12 0 m

/-- A write of PWR_STATE: REQ 3 is not listed (R630). -/
def actPwrState (v : Nat) (s : State) : State := if v % 4 = 3 then s else pwrRequest (v % 4) s

/-- A write to the boot page that acts (R596-R606). -/
def bootAct (id off v : Nat) (s : State) : Option State :=
  match off with
  | 0x104 => some (actBootLock id v s)
  | 0x184 => some { s with boot := { s.boot with nvIpv4 := v % 2 ^ 32 } }
  | 0x188 => some (actInstCmd id v s)
  | 0x19C => some (actCalCmd v s)
  | 0x1A4 => some (actAttCmd id v s)
  | 0x224 => some (actSvnCmd v s)
  | _ => none

/-- A write that acts, to the pages of classes 0x9 and 0xB to 0xF. -/
def lateAct (id p off v : Nat) (s : State) : Option State :=
  let i := pInst p
  match pClass p with
  | 0x9 =>
    if off = 0x100 ∨ off = 0x104 then
      some (pairWrite p 0x100 off v (fun a t => if i < 2 then actRasJob id i a t else actSortJob id (i - 2) a t) s)
    else if off = 0x110 then some (if i < 2 then actRasFlush i v s else actSortFlush (i - 2) v s) else none
  | 0xB =>
    if off = 0x138 then some (actQbvCmd i v s) else if off = 0x100 then some (aditRelease i (plainWrite p off v s)) else none
  | 0xC =>
    if 0x100 ≤ off ∧ off < 0x140 then some (actWinzeData id i ((off - 0x100) / 4) v s)
    else if off = 0x140 then some (actWinzeGo id i v s)
    else if off = 0x144 ∧ s.winzeDenied id i 4 then some (s.busErr id p 3) else none
  | 0xD =>
    if off = 0x108 then some (actXcCtrl i v s)
    else if i ≠ 0 then none
    else match off with
      | 0x200 => some (actPairCfg v s)
      | 0x208 => some (actPairCtrl v s)
      | 0x238 => some (actBcCmd id v s)
      | _ => none
  | 0xE => bootAct id off v s
  | 0xF =>
    if p = pwrPage then match off with
      | 0x100 => some (actPwrState v s)
      | 0x108 => some (actDomReq v s)
      | 0x114 => some (actRstCmd v s)
      | _ => none
    else if p = sumpPage then (if off = 0x108 then some (actSumpRptr v s) else if off = 0x10C then some (actSumpIdx v s) else none)
    else none
  | _ => none

/-- A write to a page that acts, and not by its access code alone. -/
def State.acts (s : State) (id p off v : Nat) : Option State :=
  let i := pInst p
  match off with
  | 0x008 => some (ctrlAct id p v s)
  | 0x020 => some (actTallySel p v s)
  | 0x024 => some (actTallyCtrl p v 0 s)
  | 0x028 => some (actFaultClr p v s)
  | 0x054 => some (actUnitBind p v s)
  | 0x058 => some (if pageUnit p then actUnitCmd id p v s else s)
  | _ =>
    if off < 0x100 then none
    else match pClass p with
      | 0x0 => if i = 0 then devAct id off v s else cageAct id off v s
      | 0x2 => if off = 0x10C then some (s.setG i (v % 4096) true) else if off = 0x110 then some (s.setG i (v % 4096) false) else none
      | 0x4 => if off = 0x138 then some (actFaceTest i v s) else none
      | 0x6 => if off = 0x104 then some (actHeadCtrl id i v s) else none
      | 0xA =>
        if i ≠ 0 then (if off = 0x124 then some (actTsPop (i - 1) v s) else none)
        else if !timePrivileged off then none
        else some (if s.tuPriv id then timeAct id off v s else s.busErr id timePage 3)
      | _ => lateAct id p off v s

/-- A write that has reached a page. -/
def regWrite (id p off v : Nat) (s : State) : State :=
  match s.acts id p off v with
  | some t => t
  | none => if s.writeLocked p off v then s else plainWrite p off v s

/-! ### Accesses (R28, R29, R32, R240, R548, R590) -/

/-- The cause in which an access of an identity to memory ends; 0 when it is performed. -/
def State.memErr (s : State) (id right a n : Nat) : Nat :=
  match regionOf a with
  | .unassigned => 1
  | .dram | .gallery _ => if s.memOk id right a n then 0 else 3
  | _ => 3

/-- A write of `n` bytes at an address. -/
def busWrite (id a n v : Nat) (s : State) : State :=
  match regionOf a with
  | .control =>
    let p := (a - ctlBase) / 4096
    if n ≠ 4 then s.busErr id p 2 else guardW id p (a % 4096) s (regWrite id p (a % 4096) v)
  | _ => let c := s.memErr id 2 a n; if c = 0 then storeBytes id none a (leBytes n v) (s.reply 0) else s.busErr id devPage c

/-- The bytes that a read of memory brings: a word with an uncorrectable error is reported, and what the read returns is open (R264). -/
def memRead (id a n : Nat) (s : State) : Nat × State :=
  match s.ueIn a n with
  | none => (s.ld a n, s.correct a n)
  | some w => (ueStrike w none false s id).draw (8 * n)

/-- A read of `n` bytes at an address. -/
def busRead (id a n : Nat) (s : State) : State :=
  match regionOf a with
  | .control =>
    let p := (a - ctlBase) / 4096
    if n ≠ 4 then s.busErr id p 2 else guardR id p (a % 4096) s (regRead id p (a % 4096))
  | _ => let c := s.memErr id 1 a n; if c = 0 then (let r := memRead id a n s; r.2.reply r.1) else s.busErr id devPage c

/-- REGISTER_WRITE (R5). -/
def execRegisterWrite (id : Ident) (addr size value : Nat) (s : State) : Host.Outcome State Fault Refusal := .next (busWrite id addr size value s)

/-- LOW_WORD_READ (R9). -/
def execLowWordRead (id : Ident) (addr size : Nat) (s : State) : Host.Outcome State Fault Refusal := .next (busRead id addr size s)

/-- RC_READ (R5). -/
def execRcRead (id : Ident) (addr size : Nat) (s : State) : Host.Outcome State Fault Refusal := .next (busRead id addr size s)

/-- FAULT_CLR (R38). -/
def execFaultClr (id : Ident) (page : Page) (value : Word) (s : State) : Host.Outcome State Fault Refusal :=
  .next (guardW id page 0x028 s (actFaultClr page value.toNat))

/-- TALLY_SEL_WRITE (R40). -/
def execTallySelWrite (id : Ident) (page : Page) (value : Word) (s : State) : Host.Outcome State Fault Refusal :=
  .next (guardW id page 0x020 s (actTallySel page value.toNat))

/-- TALLY_CLR (R41). -/
def execTallyClr (id : Ident) (page : Page) (value : Word) (events : Fin 16) (s : State) : Host.Outcome State Fault Refusal :=
  .next (guardW id page 0x024 s (actTallyCtrl page value.toNat events))

end Sys2Proof.Machine
end

