-- ==== Sys2Proof/Machine/Adpor.lean ====
section
/-! DEFINITION. The Adpor protocol (R540-R551): datagrams and their checks, request records and their replies, the input record of what
sessions write (R364), and events. -/
namespace Sys2Proof.Machine

/-! ### Accesses of a session (R33, R364, R548) -/

/-- What an access of a session brings: 0 OK, 1 BUS_ERROR or 6 MEM_ERROR, with DETAIL, and the word. -/
structure AccAns where
  status : Nat := 0
  detail : Nat := 0
  data : Nat := 0

/-- A read of a word by a session (R548). -/
def sessRead (id a : Nat) (s : State) : AccAns × State :=
  match (if regionOf a != .control && s.memErr id 1 a 4 == 0 then s.ueIn a 4 else none) with
  | some w => (⟨6, 0, 0⟩, ueStrike w none false s id)
  | none => let t := busRead id a 4 s; (⟨b2n (t.bus.cause != 0), t.bus.cause, t.bus.data.toNat⟩, t)

/-- A write of a word by a session (R548). -/
def sessWrite (id a v : Nat) (s : State) : AccAns × State :=
  let t := busWrite id a 4 v s
  (⟨b2n (t.bus.cause != 0), t.bus.cause, 0⟩, t)

/-- An accepted write of a session enters the input record (R364). -/
def recordedWrite (a v : Nat) : Bool :=
  match regionOf a with
  | .dram | .gallery _ => true
  | .control =>
    let c := pClass ((a - ctlBase) / 4096)
    let o := a % 4096
    decide (c ≤ 5) || (decide (7 ≤ c) && decide (c ≤ 9)) ||
      (c == 0xC && (decide (0x100 ≤ o ∧ o < 0x140) || (o == 0x140 && decide (1 ≤ v % 32) && decide (v % 32 ≤ 16))))
  | _ => false

/-- The written words that enter the input record, as runs of adjacent words. -/
def writeRuns : List (Nat × Nat) → List (Nat × List Nat)
  | [] => []
  | (a, v) :: r =>
    if !recordedWrite a v then writeRuns r
    else match writeRuns r with
      | (b, vs) :: rs => if b = a + 4 then (a, v :: vs) :: rs else (a, [v]) :: (b, vs) :: rs
      | [] => [(a, [v])]

/-- ADPOR_WRITE entries for the words that a record of a session has written (R363, R364). -/
def recordWrites (sess : Nat) (ws : List (Nat × Nat)) (s : State) : State :=
  (writeRuns ws).foldl (fun t e =>
    recInput 0x06 (sess + 256 * (e.2.length - 1) + 65536 * (e.1 / 2 ^ 32 % 256)) (e.1 % 2 ^ 32) (e.2.flatMap (leBytes 4)) t) s

/-! ### Records (R545-R549) -/

/-- The answer to a record: STATUS, DETAIL, body. -/
structure RecAns where
  status : Nat := 0
  detail : Nat := 0
  body : List Byte := []
deriving DecidableEq, Repr

/-- BAD_RECORD. -/
def badRecord : RecAns := ⟨2, 0, []⟩

/-- Words read one after the other, until one fails; the words read, most significant byte first (R30, R546). -/
def readWords (id : Nat) : List Nat → State → RecAns × State
  | [], s => ({}, s)
  | a :: as, s =>
    let r := sessRead id a s
    if r.1.status ≠ 0 then (⟨r.1.status, r.1.detail, []⟩, r.2)
    else let q := readWords id as r.2; ({ q.1 with body := beBytes 4 r.1.data ++ q.1.body }, q.2)

/-- Words written one after the other, until one fails: the answer and the words that have taken effect (R30, R546). -/
def writeWords (id : Nat) : List (Nat × Nat) → State → RecAns × List (Nat × Nat) × State
  | [], s => ({}, [], s)
  | (a, v) :: r, s =>
    let x := sessWrite id a v s
    if x.1.status ≠ 0 then (⟨x.1.status, x.1.detail, []⟩, [], x.2)
    else let q := writeWords id r x.2; (q.1, (a, v) :: q.2.1, q.2.2)

/-- What a write at an address enters in the record itself may have a TYPE below ADPOR_WRITE: the ingress, assay and raster classes set
row-group flags and end frames (R364). -/
def entersBefore (a : Nat) : Bool := regionOf a == .control && decide (7 ≤ pClass ((a - ctlBase) / 4096))

/-- A write record: its words, and their entries in the input record, in ascending TYPE with those that the writes enter themselves, such as
an ADAPT entry or a MARK (R365). -/
def recWrite (sess : Nat) (ws : List (Nat × Nat)) (s : State) : RecAns × State :=
  let r := writeWords (8 + sess) ws s
  if ws.all fun e => entersBefore e.1 then (r.1, recordWrites sess r.2.1 r.2.2)
  else
    let q := writeWords (8 + sess) ws (recordWrites sess r.2.1 s)
    (q.1, q.2.2)

/-- A burst that crosses a page of control space (R30). -/
def burstCrosses (a n : Nat) : Bool := regionOf a == .control && decide (4096 < a % 4096 + n)

/-- BURST_RANGE (R30, R32). -/
def burstRange (a : Nat) (s : State) : RecAns × State := (⟨1, 6, []⟩, s.busFail ((a - ctlBase) / 4096) 6)

/-- The addresses of the words of a burst. -/
def burstAddrs (a n : Nat) : List Nat := (List.range (n / 4)).map fun k => a + 4 * k

/-- A byte count that a burst lists (R545). -/
def burstLen (n : Nat) : Bool := decide (4 ≤ n) && decide (n ≤ 1024) && n % 4 == 0

/-- REG_READ (R545). -/
def recRegRead (sess a : Nat) (s : State) : RecAns × State := readWords (8 + sess) [a] s

/-- BURST_READ (R545, R546). -/
def recBurstRead (sess a n : Nat) (s : State) : RecAns × State :=
  if !burstLen n then (badRecord, s) else if burstCrosses a n then burstRange a s else readWords (8 + sess) (burstAddrs a n) s

/-- BURST_WRITE (R545, R546): 32-bit words, most significant byte first. -/
def recBurstWrite (sess a : Nat) (data : List Byte) (s : State) : RecAns × State :=
  if !burstLen data.length then (badRecord, s)
  else if burstCrosses a data.length then burstRange a s
  else recWrite sess ((List.range (data.length / 4)).map fun k => (a + 4 * k, beAt data (4 * k) 4)) s

/-- The address of an offset of a winze page. -/
def winzeAddr (c off : Nat) : Nat := ctlBase + winzePage c * 4096 + off

/-- WINZE_SEND (R549). -/
def recWinzeSend (sess c : Nat) (ws : List Nat) (s : State) : RecAns × State :=
  if 63 < c ∨ ws.length = 0 ∨ 16 < ws.length then (badRecord, s)
  else recWrite sess (((List.range ws.length).map fun k => (winzeAddr c (0x100 + 4 * k), nth 0 ws k)) ++ [(winzeAddr c 0x140, ws.length)]) s

/-- WINZE_ACK (R549). -/
def recWinzeAck (sess c : Nat) (s : State) : RecAns × State :=
  if 63 < c then (badRecord, s)
  else
    let st := sessRead (8 + sess) (winzeAddr c 0x148) s
    if st.1.status ≠ 0 then (⟨st.1.status, st.1.detail, []⟩, st.2)
    else
      let d := readWords (8 + sess) ((List.range (min 16 (fld st.1.data 20 16))).map fun k => winzeAddr c (0x100 + 4 * k)) st.2
      let body := beBytes 4 st.1.data ++ d.1.body
      if d.1.status ≠ 0 then ({ d.1 with body := body }, d.2)
      else
        let a := sessRead (8 + sess) (winzeAddr c 0x144) d.2
        if a.1.status ≠ 0 then (⟨a.1.status, a.1.detail, body⟩, a.2)
        else if a.1.data % 2 = 0 then (⟨5, 0, []⟩, a.2) else (⟨0, 0, body⟩, a.2)

/-- STREAM_CTRL of the body, for a source port: MASK, REPEAT, DPORT; none when a value is out of range (R545). -/
def streamCtrl (port : Nat) (b : List Byte) : Option (Nat × Nat × Nat) :=
  let rep := beAt b 4 2
  if b.length ≠ 8 ∨ 8 ≤ beAt b 0 4 ∨ rep = 0 ∨ 1000 < rep then none
  else some (beAt b 0 4, rep, if beAt b 6 2 = 0 then port else beAt b 6 2)

/-- A session with what STREAM_CTRL selects (R550). -/
def setStream (sess : Nat) (x : Nat × Nat × Nat) (s : State) : State :=
  let y : Session := NMap.get {} s.sess sess
  { s with sess := NMap.put s.sess sess { y with mask := x.1, rep := x.2.1, dport := x.2.2 } }

/-- STREAM_CTRL as a record: before BOOT_LOCK it is DENIED (R590); the selection is returned, since it takes effect with the reply. -/
def recStreamCtrl (port : Nat) (b : List Byte) (s : State) : RecAns × Option (Nat × Nat × Nat) :=
  match streamCtrl port b with
  | none => (badRecord, none)
  | some x => if s.boot.window then (⟨1, 3, []⟩, none) else ({}, some x)

/-- Bytes of a body that the manual gives as zero are zero. -/
def zeroAt (b : List Byte) (i n : Nat) : Bool := beAt b i n == 0

/-- A request record as it stands in a datagram: OP, and its body unless the record is cut short or its byte 1 is not zero. -/
abbrev ReqRec := Nat × Option (List Byte)

/-- The records of a datagram (R545). -/
def parseRecs : Nat → List Byte → List ReqRec
  | 0, _ => []
  | n + 1, b =>
    if b = [] then []
    else
      let len := beAt b 2 2
      let whole := decide (4 ≤ b.length) && leAt b 1 1 == 0 && decide (4 + len ≤ b.length)
      (leAt b 0 1, if whole then some (sliceL b 4 len) else none) :: (if 4 ≤ b.length then parseRecs n (b.drop (4 + len)) else [])

/-- The largest body that the reply to a record can have (R547). -/
def replyBody : ReqRec → Nat
  | (1, some b) => if b.length = 8 then 4 else 0
  | (3, some b) => if b.length = 12 ∧ burstLen (beAt b 8 4) then beAt b 8 4 else 0
  | (6, some b) => if b.length = 4 then 68 else 0
  | _ => 0

/-- ADDR of a record: a device address in [39:0] (R545). -/
def recAddr (b : List Byte) : Option Nat := if beAt b 0 8 < 2 ^ 40 then some (beAt b 0 8) else none

/-- A record runs (R545-R549), but for STREAM_CTRL. -/
def runRecord (sess : Nat) (r : ReqRec) (s : State) : RecAns × State :=
  match r.2 with
  | none => (badRecord, s)
  | some b =>
    match r.1, recAddr b with
    | 0x01, some a => if b.length = 8 then recRegRead sess a s else (badRecord, s)
    | 0x02, some a => if b.length = 12 then recWrite sess [(a, beAt b 8 4)] s else (badRecord, s)
    | 0x03, some a => if b.length = 12 then recBurstRead sess a (beAt b 8 4) s else (badRecord, s)
    | 0x04, some a => if 12 ≤ b.length ∧ beAt b 8 4 = b.length - 12 then recBurstWrite sess a (b.drop 12) s else (badRecord, s)
    | 0x05, _ =>
      let n := leAt b 1 1
      if b.length = 4 + 4 * n ∧ zeroAt b 2 2 then recWinzeSend sess (leAt b 0 1) ((List.range n).map fun k => beAt b (4 + 4 * k) 4) s
      else (badRecord, s)
    | 0x06, _ => if b.length = 4 ∧ zeroAt b 1 3 then recWinzeAck sess (leAt b 0 1) s else (badRecord, s)
    | _, _ => (badRecord, s)

/-- A reply record (R545). -/
def replyRecord (op : Nat) (a : RecAns) : List Byte :=
  leBytes 1 op ++ leBytes 1 a.status ++ leBytes 1 a.detail ++ leBytes 1 0 ++ beBytes 2 a.body.length ++ leBytes 2 0 ++ a.body

/-- What has been done of a request: its reply so far with the largest size it can reach, a record that was not OK, the selection of the last STREAM_CTRL. -/
structure ReqRun where
  reply : List Byte := []
  size : Nat := 24
  failed : Bool := false
  stream : Option (Nat × Nat × Nat) := none

/-- The next record of a request (R546, R547). -/
def nextRecord (sess port : Nat) (r : ReqRec) (x : ReqRun) (s : State) : ReqRun × State :=
  let size := x.size + 8 + replyBody r
  let a : RecAns × Option (Nat × Nat × Nat) × State :=
    if x.failed then (⟨3, 0, []⟩, x.stream, s)
    else if 1472 < size then (⟨4, 0, []⟩, x.stream, s)
    else match r with
      | (0x07, some b) => let q := recStreamCtrl port b s; (q.1, q.2.orElse fun _ => x.stream, s)
      | _ => let q := runRecord sess r s; (q.1, x.stream, q.2)
  ({ reply := x.reply ++ replyRecord r.1 a.1, size := size, failed := x.failed || a.1.status != 0, stream := a.2.1 }, a.2.2)

/-- The records of a request in turn (R546). -/
def runRecords (sess port : Nat) : List ReqRec → ReqRun → State → ReqRun × State
  | [], x, s => (x, s)
  | r :: rs, x, s => let y := nextRecord sess port r x s; runRecords sess port rs y.1 y.2

/-! ### Frames of the device (R540, R541, R544) -/

/-- Offset of the registers of a session. -/
def sessOff (sess : Nat) : Nat := 0x300 + 0x10 * sess

/-- A frame with its tag. -/
def taggedFrame (key : List Byte) (type sess seq : Nat) (records : List Byte) : List Byte :=
  let m := leBytes 1 1 ++ leBytes 1 type ++ leBytes 1 sess ++ leBytes 1 1 ++ beBytes 4 seq ++ records
  m ++ adporTag key m

/-- A frame of a session to the source of its last executed request, at a UDP port (R544). -/
def sessSend (sess udp : Nat) (frame : List Byte) (s : State) : State :=
  let p := s.rf (aditPage 0) (sessOff sess + 8) 16 16
  aditSend p (s.rf (aditPage p) 0x100 18 16) (s.rd (aditPage 0) (sessOff sess + 4)) udp frame s

/-- The reply that a session keeps is sent (R543, R544). -/
def sendKept (sess : Nat) (s : State) : State :=
  match (NMap.get {} s.sess sess).kept with
  | some f => sessSend sess (s.rf (aditPage 0) (sessOff sess + 8) 15 0) f s
  | none => s

/-! ### Requests (R542-R544) -/

/-- A request is executed: LAST takes its number, its reply is kept and sent, and a STREAM_CTRL takes effect. A request that has reset
the device has no reply. -/
def execRequest (port : Nat) (d : Dgram) (key : List Byte) (sess seq : Nat) (s : State) : State :=
  let recs := sliceL d.payload 8 (d.payload.length - 24)
  let r := runRecords sess d.sport (parseRecs recs.length recs) {} s
  let t := r.2
  if t.boot.window && !s.boot.window then t
  else
    let t1 := ((t.wr (aditPage 0) (sessOff sess) seq).wr (aditPage 0) (sessOff sess + 4) d.src).wr (aditPage 0) (sessOff sess + 8) (d.sport + 65536 * port)
    let y : Session := NMap.get {} t1.sess sess
    let t2 : State := { t1 with sess := NMap.put t1.sess sess { y with kept := some (taggedFrame key 2 sess seq r.1.reply) }
                                boot := { t1.boot with announced := NSet.add t1.boot.announced sess } }
    let t3 := sendKept sess t2
    match r.1.stream with
    | some x => setStream sess x t3
    | none => t3

/-- A session request by its number (R543). -/
def sessRequest (port : Nat) (d : Dgram) (key : List Byte) (sess seq : Nat) (s : State) : State :=
  let diff := (seq + 2 ^ 32 - s.rd (aditPage 0) (sessOff sess)) % 2 ^ 32
  if 1 ≤ diff ∧ diff < 2 ^ 31 then execRequest port d key sess seq s
  else if diff = 0 ∧ (NMap.get ({} : Session) s.sess sess).kept.isSome then sendKept sess s
  else s.tally (aditPage port) 0x7C

/-- A session is open (R593): its bit of SESS_EN is 1 and K_P is set; BOOT frames of session 0 pass under the zero key. -/
def State.sessOpen (s : State) (sess type : Nat) : Bool :=
  s.rb bootPage 0x180 sess && s.boot.keys.isSome && (s.boot.nvKey.isSome || (sess == 0 && type == 4))

/-- A discarded datagram (R542). -/
def malformed (port : Nat) (s : State) : State := s.tally (aditPage port) 0x7B

/-- A datagram that fails its tag (R542). -/
def authFail (port : Nat) (s : State) : State :=
  ((s.incSat (aditPage port) 0x124).tally (aditPage port) 0x7A).irq (aditPage port) 8

/-- The checks of a datagram received for Adpor port `udp`, in their order (R542); `boot` takes a BOOT frame. -/
def adporCheck (port udp : Nat) (boot : Dgram → List Byte → Nat → State → State) (d : Dgram) (s : State) : State :=
  let b := d.payload
  let type := leAt b 1 1
  let sess := leAt b 2 1
  let n := b.length
  if d.dport ≠ udp ∨ n < 24 ∨ 1472 < n ∨ leAt b 0 1 ≠ 1 ∨ 7 < sess ∨ leAt b 3 1 ≠ 0 then malformed port s
  else if !s.sessOpen sess type && !s.sessOpen sess 4 then malformed port s
  else match s.sessKey sess with
    | none => malformed port s
    | some k =>
      if adporTag k (b.take (n - 16)) ≠ b.drop (n - 16) then authFail port s
      else if type = 1 ∧ s.sessOpen sess 1 then sessRequest port d k sess (beAt b 4 4) s
      else if type = 4 ∧ s.boot.window ∧ sess = 0 then boot d k (beAt b 4 4) s
      else malformed port s

/-! ### Record commands -/

/-- The reply record of a record that runs on its own. -/
def answered (sess op : Nat) (r : RecAns × State) : State := r.2.send (.answer sess op r.1.status r.1.detail r.1.body)

/-- REG_READ (R545). -/
def execRegRead (sess : Fin 8) (addr : Nat) (s : State) : Host.Outcome State Fault Refusal := .next (answered sess 1 (recRegRead sess addr s))

/-- REG_WRITE (R545). -/
def execRegWrite (sess : Fin 8) (addr : Nat) (value : Word) (s : State) : Host.Outcome State Fault Refusal :=
  .next (answered sess 2 (recWrite sess [(addr, value.toNat)] s))

/-- BURST_READ (R546). -/
def execBurstRead (sess : Fin 8) (addr len : Nat) (s : State) : Host.Outcome State Fault Refusal :=
  .next (answered sess 3 (recBurstRead sess addr len s))

/-- BURST_WRITE (R546). -/
def execBurstWrite (sess : Fin 8) (addr : Nat) (data : List Byte) (s : State) : Host.Outcome State Fault Refusal :=
  .next (answered sess 4 (recBurstWrite sess addr data s))

/-- WINZE_SEND (R549). -/
def execWinzeSend (sess : Fin 8) (chan : Chan) (words : List Word) (s : State) : Host.Outcome State Fault Refusal :=
  .next (answered sess 5 (recWinzeSend sess chan (words.map (·.toNat)) s))

/-- WINZE_ACK (R549). -/
def execWinzeAck (sess : Fin 8) (chan : Chan) (s : State) : Host.Outcome State Fault Refusal := .next (answered sess 6 (recWinzeAck sess chan s))

/-- STREAM_CTRL (R550): the source port is that of the session's last executed request. -/
def streamCommand (sess : Nat) (body : List Byte) (s : State) : State :=
  let r := recStreamCtrl (s.rf (aditPage 0) (sessOff sess + 8) 15 0) body s
  let t := answered sess 7 (r.1, s)
  match r.2 with
  | some x => setStream sess x t
  | none => t

/-- STREAM_CTRL (R550). -/
def execStreamCtrl (sess : Fin 8) (body : List Byte) (s : State) : Host.Outcome State Fault Refusal := .next (streamCommand sess body s)

/-! ### Events (R36, R52, R550, R551) -/

/-- IRQ_STAT AND IRQ_EN of a page as IRQ_ROUTE routes it: of a winze page only FAULT (R52). -/
def State.routed (s : State) (p : Nat) : Nat :=
  let v := s.rd p 0x010 &&& s.rd p 0x014
  if pClass p = 0xC then v % 2 else v

/-- The sender of a channel: BIND.SENDER, on channels 56 to 63 the stamped one (R48). -/
def State.chanSender (s : State) (c : Nat) : Nat := if c < 56 then (s.bind c).1 else s.rf (winzePage c) 0x14C 5 0

/-- The event records of a standing condition of a session: 0 page interrupts, 1 winze wake, 2 winze empty (R550, R551). -/
def State.eventRecords (s : State) (sess cond : Nat) : List (List Byte) :=
  let id := 8 + sess
  let seq (c : Nat) : Nat := s.rf (winzePage c) 0x148 15 8
  match cond with
  | 0 => (allPages.filter fun p => s.rf p 0x018 5 0 == id && s.routed p != 0).map fun p =>
      replyRecord 0x81 { body := beBytes 2 p ++ beBytes 2 0 ++ beBytes 4 (s.routed p) }
  | 1 => ((List.range 64).filter fun c => (s.bind c).2.2 && (s.bind c).2.1 == id && s.chanFull c).map fun c =>
      replyRecord 0x82 { body := leBytes 1 c ++ leBytes 1 (seq c) ++ leBytes 1 (s.rf (winzePage c) 0x148 20 16) ++ leBytes 1 0 }
  | 2 => ((List.range 64).filter fun c => s.chanSender c == id && s.rb (winzePage c) 0x010 8 && s.rb (winzePage c) 0x014 8).map fun c =>
      replyRecord 0x83 { body := leBytes 1 c ++ leBytes 1 (seq c) ++ leBytes 2 0 }
  | _ => []

/-- Event frames of at most 90 records each, numbered on from SESS_EVT (R551). -/
def sendEvents (sess : Nat) (key : List Byte) : Nat → List (List Byte) → State → State
  | 0, _, s => s
  | n + 1, rs, s =>
    if rs = [] then s
    else
      let k := (s.rd (aditPage 0) (sessOff sess + 0xC) + 1) % 2 ^ 32
      let t := sessSend sess (NMap.get {} s.sess sess).dport (taggedFrame key 3 sess k (rs.take 90).flatten) (s.wr (aditPage 0) (sessOff sess + 0xC) k)
      sendEvents sess key n (rs.drop 90) t

/-- A condition that STREAM_CTRL selects stands, and is told (R550). -/
def adporEvent (sess cond : Nat) (s : State) : State :=
  match s.sessKey sess with
  | none => s
  | some k => if !bit (NMap.get {} s.sess sess).mask cond || decide (2 < cond) || !s.sessOpen sess 1 then s
    else let rs := s.eventRecords sess cond; sendEvents sess k rs.length rs s

/-- ADPOR_EVENT_SEND (R550). -/
def execAdporEventSend (sess : Fin 8) (cond : Nat) (s : State) : Host.Outcome State Fault Refusal := .next (adporEvent sess cond s)

/-- ADPOR_EVENT_REPEAT (R550). -/
def execAdporEventRepeat (sess : Fin 8) (cond : Nat) (s : State) : Host.Outcome State Fault Refusal := .next (adporEvent sess cond s)

end Sys2Proof.Machine
end

