-- ==== Sys2Proof/Machine/NetBoot.lean ====
section
/-! DEFINITION. Net boot, provisioning and announcements (R553, R554, R594, R595), and the datagrams of the Adit ports. -/
namespace Sys2Proof.Machine

/-! ### What the boot ROM sends (R553, R554) -/

/-- The address of the boot ROM (R553). -/
def State.bootIp (s : State) : Nat :=
  if s.boot.nvIpv4 ≠ 0 then s.boot.nvIpv4
  else
    let n := Config.serial.toNat
    169 * 2 ^ 24 + 254 * 2 ^ 16 + (1 + n % 254) * 256 + (1 + n / 254 % 254)

/-- A record of a BOOT frame: OP, a zero byte, LEN, body. -/
def bootRecord (op : Nat) (body : List Byte) : List Byte := leBytes 1 op ++ leBytes 1 0 ++ beBytes 2 body.length ++ body

/-- A BOOT frame under K_0 (R553). -/
def bootSend (port ip udp seq : Nat) (record : List Byte) (s : State) : State :=
  match s.sessKey 0 with
  | none => s
  | some k => aditSend port (s.rf (aditPage port) 0x100 18 16) ip udp (taggedFrame k 4 0 seq record) s

/-- The state with net boot changed. -/
def State.modNet (s : State) (f : NetBoot → NetBoot) : State := { s with boot := { s.boot with net := f s.boot.net } }

/-- BOOT_REQ is sent while the boot ROM requests (R554): SEQUENCE starts at 1, the ports alternate. -/
def bootReq (s : State) : State :=
  if s.boot.net.phase ≠ 1 ∨ s.boot.testLow ∨ (s.sessKey 0).isNone then s
  else
    let n := s.boot.net.attempt + 1
    let t := (s.modNet fun x => { x with attempt := n, seq := 1 }).tally bootPage 0x90
    bootSend ((n + 1) % 2) (2 ^ 32 - 1) 47120 1
      (bootRecord 0x10 (leBytes 1 0xB0 ++ leBytes 3 0 ++ beBytes 8 Config.serial.toNat ++ beBytes 4 (n % 2 ^ 32))) t

/-- BOOT_REQ (R554). -/
def execBootReq (s : State) : Host.Outcome State Fault Refusal := .next (bootReq s)

/-- Bytes that the outstanding BOOT_READ asks for. -/
def NetBoot.want (x : NetBoot) : Nat := min 1024 (x.len - x.off)

/-- The next frame of the exchange asks for the outstanding bytes (R554). -/
def bootRead (s : State) : State :=
  let x := { s.boot.net with seq := s.boot.net.seq + 1 }
  bootSend x.port x.ip x.udp x.seq (bootRecord 0x12 (beBytes 4 x.off ++ beBytes 4 x.want)) (s.modNet fun _ => x)

/-- A BOOT_OFFER is taken (R554); within the listen it starts the net boot at once (R595). -/
def bootOffer (port : Nat) (d : Dgram) (len : Nat) (s : State) : State :=
  if s.boot.net.phase ≠ 1 ∨ len = 0 ∨ 0x4000000 < len then s
  else
    let t := if s.boot.step = 4 then setPhase 2 { s with boot := { s.boot with step := 8 } } else s
    bootRead (t.modNet fun x => { x with phase := 2, port := port, ip := d.src, udp := d.sport, len := len, off := 0, again := 0 })

/-- A BOOT_DATA that matches the outstanding read is taken, and the next read is sent (R554). -/
def bootData (body : List Byte) (s : State) : State :=
  let x := s.boot.net
  if x.phase ≠ 2 ∨ beAt body 0 4 ≠ x.off ∨ body.length ≠ 4 + x.want then s
  else
    let t := (storeBytes 0 none (fwBase + x.off) (body.drop 4) s).modNet fun y => { y with off := x.off + x.want, again := 0 }
    if x.off + x.want < x.len then bootRead t else t.modNet fun y => { y with phase := 3 }

/-- A BOOT_PROVISION writes K_P, derives the keys again, and ends the listen (R595). -/
def bootProvision (body : List Byte) (s : State) : State :=
  if s.boot.step ≠ 4 ∨ body.length ≠ 32 then s
  else enterStep 5 (deriveKeys { s with boot := { s.boot with nvKey := some (BitVec.ofNat 256 (beNat body)) } })

/-- A BOOT frame of the host: it answers the last frame of the device (R554, R595). -/
def bootFrame (port : Nat) (d : Dgram) (seq : Nat) (s : State) : State :=
  let b := sliceL d.payload 8 (d.payload.length - 24)
  let body := b.drop 4
  if seq ≠ s.boot.net.seq ∨ leAt b 1 1 ≠ 0 ∨ body.length ≠ beAt b 2 2 then s
  else match leAt b 0 1 with
    | 0x11 => if body.length = 4 then bootOffer port d (beNat body) s else s
    | 0x13 => bootData body s
    | 0x15 => bootProvision body s
    | _ => s

/-! ### Datagrams (R534, R542) -/

/-- The oldest frame of the receive queue is taken and served (R552). -/
def serveFrame (s : State) : State :=
  match s.rxq with
  | [] => s
  | x :: q =>
    rxTake x (if s.boot.window then [s.bootIp] else []) (adporCheck x.port x.udp fun d _ seq t => bootFrame x.port d seq t) { s with rxq := q }

/-- Up to `n` frames of the receive queue are served in their order. -/
def serveFrames : Nat → State → State
  | 0, s => s
  | n + 1, s => serveFrames n (serveFrame s)

/-- A frame arrives on an Adit port; unless the device is still busy with earlier ones, it and those before it are served at once
(R552, log entry 39). -/
def adporReceive (port : Nat) (b : List Byte) (busy : Bool) (s : State) : State :=
  let t := rxArrive port b s
  if busy then t else serveFrames t.rxq.length t

/-- ADPOR_DATAGRAM (R542). -/
def execAdporDatagram (port : Fin 2) (arrival : Arrival) (s : State) : Host.Outcome State Fault Refusal :=
  .next (adporReceive port arrival.frame arrival.busy s)

/-- BOOT_OFFER (R554). -/
def execBootOffer (port : Fin 2) (frame : List Byte) (s : State) : Host.Outcome State Fault Refusal := .next (adporReceive port frame false s)

/-- BOOT_DATA (R554). -/
def execBootData (port : Fin 2) (frame : List Byte) (s : State) : Host.Outcome State Fault Refusal := .next (adporReceive port frame false s)

/-- BOOT_PROVISION (R595). -/
def execBootProvision (port : Fin 2) (frame : List Byte) (s : State) : Host.Outcome State Fault Refusal := .next (adporReceive port frame false s)

/-! ### Time-outs and announcements (R554, R594, R595) -/

/-- A BOOT_READ that is not answered is sent again, at most 8 times; then the boot ROM requests again (R554). -/
def bootReadTimeout (s : State) : State :=
  if s.boot.net.phase ≠ 2 then s
  else if s.boot.net.again < 8 then bootRead (s.modNet fun x => { x with again := x.again + 1 })
  else s.modNet fun x => { phase := 1, attempt := x.attempt }

/-- BOOT_READ_TIMEOUT (R554). -/
def execBootReadTimeout (s : State) : Host.Outcome State Fault Refusal := .next (bootReadTimeout s)

/-- PROVISION_TIMEOUT (R595): boot goes on with the keys it has. -/
def execProvisionTimeout (s : State) : Host.Outcome State Fault Refusal := .next (if s.boot.step = 4 then enterStep 5 s else s)

/-- BOOT_ANNOUNCE on both ports, until every session of SESS_EN has executed a request (R594). -/
def bootAnnounce (s : State) : State :=
  let owed := (List.range 8).any fun k => s.rb bootPage 0x180 k && !s.boot.announced.contains k
  if s.boot.window || s.boot.testLow || !owed then s
  else
    let r := bootRecord 0x14 (beBytes 8 Config.serial.toNat ++ beBytes 8 s.boot.nvResetCount)
    bootSend 1 (2 ^ 32 - 1) 47120 1 r (bootSend 0 (2 ^ 32 - 1) 47120 1 r s)

/-- BOOT_ANNOUNCE (R594). -/
def execBootAnnounce (s : State) : Host.Outcome State Fault Refusal := .next (bootAnnounce s)

end Sys2Proof.Machine
end

