-- ==== Sys2Proof/Machine/Dispatch.lean ====
section
/-! DEFINITION. The meaning of every command, one arm per constructor. -/
namespace Sys2Proof.Machine

/-- The effect of a command on everything but the queue. -/
def exec (i : Instr) (s : State) : Host.Outcome State Fault Refusal :=
  match i with
  | .registerWrite id addr size value => Sys2Proof.Machine.execRegisterWrite id addr size value s
  | .lowWordRead id addr size => Sys2Proof.Machine.execLowWordRead id addr size s
  | .rcRead id addr size => Sys2Proof.Machine.execRcRead id addr size s
  | .faultClr id page value => Sys2Proof.Machine.execFaultClr id page value s
  | .tallySelWrite id page value => Sys2Proof.Machine.execTallySelWrite id page value s
  | .tallyClr id page value events => Sys2Proof.Machine.execTallyClr id page value events s
  | .unitLaunch id page strict => Sys2Proof.Machine.execUnitLaunch id page strict s
  | .unitArm id page strict => Sys2Proof.Machine.execUnitArm id page strict s
  | .unitDisarm id page => Sys2Proof.Machine.execUnitDisarm id page s
  | .unitStop id page => Sys2Proof.Machine.execUnitStop id page s
  | .unitBindWrite id page value => Sys2Proof.Machine.execUnitBindWrite id page value s
  | .armedStart site => Sys2Proof.Machine.execArmedStart site s
  | .loadComplete site => Sys2Proof.Machine.execLoadComplete site s
  | .faceFinished face => Sys2Proof.Machine.execFaceFinished face s
  | .winzeDataWrite id chan idx value => Sys2Proof.Machine.execWinzeDataWrite id chan idx value s
  | .winzeGo id chan value => Sys2Proof.Machine.execWinzeGo id chan value s
  | .ackRead id chan => Sys2Proof.Machine.execAckRead id chan s
  | .hgEnable id hg value => Sys2Proof.Machine.execHgEnable id hg value s
  | .hgDisable id hg value => Sys2Proof.Machine.execHgDisable id hg value s
  | .bandLaunch hg frame band => Sys2Proof.Machine.execBandLaunch hg frame band s
  | .poseLatch hg frame band => Sys2Proof.Machine.execPoseLatch hg frame band s
  | .bandDeadline hg frame band => Sys2Proof.Machine.execBandDeadline hg frame band s
  | .bandFetch hg frame band => Sys2Proof.Machine.execBandFetch hg frame band s
  | .bandRecordWrite hg frame band head => Sys2Proof.Machine.execBandRecordWrite hg frame band head s
  | .slotLoad id slot => Sys2Proof.Machine.execSlotLoad id slot s
  | .slotLoadDone slot => Sys2Proof.Machine.execSlotLoadDone slot s
  | .slotUnload id slot => Sys2Proof.Machine.execSlotUnload id slot s
  | .schedWrite id => Sys2Proof.Machine.execSchedWrite id s
  | .schedRead id => Sys2Proof.Machine.execSchedRead id s
  | .schedLaunch entry frame => Sys2Proof.Machine.execSchedLaunch entry frame s
  | .schedSignal entry frame => Sys2Proof.Machine.execSchedSignal entry frame s
  | .weightArm id hg => Sys2Proof.Machine.execWeightArm id hg s
  | .weightCancel id hg => Sys2Proof.Machine.execWeightCancel id hg s
  | .slotSwitchArm id hg value => Sys2Proof.Machine.execSlotSwitchArm id hg value s
  | .slotSwitchCancel id hg => Sys2Proof.Machine.execSlotSwitchCancel id hg s
  | .nop face => Sys2Proof.Machine.execNop face s
  | .listhdr face => Sys2Proof.Machine.execListhdr face s
  | .live face => Sys2Proof.Machine.execLive face s
  | .externDir face => Sys2Proof.Machine.execExternDir face s
  | .stop face => Sys2Proof.Machine.execStop face s
  | .loop face => Sys2Proof.Machine.execLoop face s
  | .endloop face => Sys2Proof.Machine.execEndloop face s
  | .branch face => Sys2Proof.Machine.execBranch face s
  | .step face => Sys2Proof.Machine.execStep face s
  | .xset face => Sys2Proof.Machine.execXset face s
  | .xadd face => Sys2Proof.Machine.execXadd face s
  | .xld face => Sys2Proof.Machine.execXld face s
  | .xldComplete face => Sys2Proof.Machine.execXldComplete face s
  | .sig face => Sys2Proof.Machine.execSig face s
  | .sigAct face => Sys2Proof.Machine.execSigAct face s
  | .wait face => Sys2Proof.Machine.execWait face s
  | .waitSatisfied face => Sys2Proof.Machine.execWaitSatisfied face s
  | .condRelease face => Sys2Proof.Machine.execCondRelease face s
  | .bar face => Sys2Proof.Machine.execBar face s
  | .barrierRelease handle bid => Sys2Proof.Machine.execBarrierRelease handle bid s
  | .mmaI8 face => Sys2Proof.Machine.execMmaI8 face s
  | .mmaG4 face => Sys2Proof.Machine.execMmaG4 face s
  | .mmaG4p face => Sys2Proof.Machine.execMmaG4p face s
  | .matrixOpReady face => Sys2Proof.Machine.execMatrixOpReady face s
  | .accClr face => Sys2Proof.Machine.execAccClr face s
  | .accDrain face => Sys2Proof.Machine.execAccDrain face s
  | .drainComplete face => Sys2Proof.Machine.execDrainComplete face s
  | .cfgLoad face => Sys2Proof.Machine.execCfgLoad face s
  | .cfgLoadComplete face => Sys2Proof.Machine.execCfgLoadComplete face s
  | .cfgSel face => Sys2Proof.Machine.execCfgSel face s
  | .latRun face => Sys2Proof.Machine.execLatRun face s
  | .latRunComplete face => Sys2Proof.Machine.execLatRunComplete face s
  | .qmMeasure face => Sys2Proof.Machine.execQmMeasure face s
  | .qmConvert face => Sys2Proof.Machine.execQmConvert face s
  | .qmReblock face => Sys2Proof.Machine.execQmReblock face s
  | .qmComplete face => Sys2Proof.Machine.execQmComplete face s
  | .qmEsc face => Sys2Proof.Machine.execQmEsc face s
  | .qmEscComplete face => Sys2Proof.Machine.execQmEscComplete face s
  | .hoist2d face => Sys2Proof.Machine.execHoist2d face s
  | .hoist3d face => Sys2Proof.Machine.execHoist3d face s
  | .hoistGather face => Sys2Proof.Machine.execHoistGather face s
  | .hoistHalo face => Sys2Proof.Machine.execHoistHalo face s
  | .hoistTake hoist => Sys2Proof.Machine.execHoistTake hoist s
  | .hoistCopyComplete hoist => Sys2Proof.Machine.execHoistCopyComplete hoist s
  | .tapSet face => Sys2Proof.Machine.execTapSet face s
  | .tapPos face => Sys2Proof.Machine.execTapPos face s
  | .tapMmaI8 face => Sys2Proof.Machine.execTapMmaI8 face s
  | .tapMmaG4p face => Sys2Proof.Machine.execTapMmaG4p face s
  | .rasClaim face => Sys2Proof.Machine.execRasClaim face s
  | .rasClaimAnswer face => Sys2Proof.Machine.execRasClaimAnswer face s
  | .rasPrim face => Sys2Proof.Machine.execRasPrim face s
  | .rasPrimAnswer face => Sys2Proof.Machine.execRasPrimAnswer face s
  | .rasRelease face => Sys2Proof.Machine.execRasRelease face s
  | .rasReleaseAnswer face => Sys2Proof.Machine.execRasReleaseAnswer face s
  | .rng face => Sys2Proof.Machine.execRng face s
  | .rngComplete face => Sys2Proof.Machine.execRngComplete face s
  | .timeRead face => Sys2Proof.Machine.execTimeRead face s
  | .galleryAddu face => Sys2Proof.Machine.execGalleryAddu face s
  | .galleryAdduComplete face => Sys2Proof.Machine.execGalleryAdduComplete face s
  | .illegalOpcode face => Sys2Proof.Machine.execIllegalOpcode face s
  | .faceTestRun id phys => Sys2Proof.Machine.execFaceTestRun id phys s
  | .faceTestDone phys pass => Sys2Proof.Machine.execFaceTestDone phys pass s
  | .gflagSet id drift value => Sys2Proof.Machine.execGflagSet id drift value s
  | .gflagClr id drift value => Sys2Proof.Machine.execGflagClr id drift value s
  | .dramRefresh chan => Sys2Proof.Machine.execDramRefresh chan s
  | .scrubRead addr finding => Sys2Proof.Machine.execScrubRead addr finding s
  | .sortJob id die addr => Sys2Proof.Machine.execSortJob id die addr s
  | .sortFlush id die => Sys2Proof.Machine.execSortFlush id die s
  | .sortJobStart die => Sys2Proof.Machine.execSortJobStart die s
  | .sortJobEnd die => Sys2Proof.Machine.execSortJobEnd die s
  | .adaptStepLaunch hg => Sys2Proof.Machine.execAdaptStepLaunch hg s
  | .reduceTake => Sys2Proof.Machine.execReduceTake s
  | .reduceDone => Sys2Proof.Machine.execReduceDone s
  | .adaptDecision hg => Sys2Proof.Machine.execAdaptDecision hg s
  | .adEnable id hg value => Sys2Proof.Machine.execAdEnable id hg value s
  | .adDisable id hg value => Sys2Proof.Machine.execAdDisable id hg value s
  | .useSet0 id hg => Sys2Proof.Machine.execUseSet0 id hg s
  | .useSet1 id hg => Sys2Proof.Machine.execUseSet1 id hg s
  | .partCfgWrite id part value => Sys2Proof.Machine.execPartCfgWrite id part value s
  | .partLaunch id part strict => Sys2Proof.Machine.execPartLaunch id part strict s
  | .partArm id part strict => Sys2Proof.Machine.execPartArm id part strict s
  | .partDisarm id part => Sys2Proof.Machine.execPartDisarm id part s
  | .partStop id part => Sys2Proof.Machine.execPartStop id part s
  | .winWrite id => Sys2Proof.Machine.execWinWrite id s
  | .winRead id => Sys2Proof.Machine.execWinRead id s
  | .ctxRead id => Sys2Proof.Machine.execCtxRead id s
  | .ctxCreate id => Sys2Proof.Machine.execCtxCreate id s
  | .ctxModify id => Sys2Proof.Machine.execCtxModify id s
  | .ctxSwapOut id => Sys2Proof.Machine.execCtxSwapOut id s
  | .ctxSwapIn id => Sys2Proof.Machine.execCtxSwapIn id s
  | .ctxDestroy id => Sys2Proof.Machine.execCtxDestroy id s
  | .ctxCmdDone => Sys2Proof.Machine.execCtxCmdDone s
  | .sliceEnd part => Sys2Proof.Machine.execSliceEnd part s
  | .ctxBlocked part => Sys2Proof.Machine.execCtxBlocked part s
  | .ctxUnblock handle => Sys2Proof.Machine.execCtxUnblock handle s
  | .contextSwitchComplete part => Sys2Proof.Machine.execContextSwitchComplete part s
  | .batchSubmit id => Sys2Proof.Machine.execBatchSubmit id s
  | .sdRecomputeDone => Sys2Proof.Machine.execSdRecomputeDone s
  | .recGapWrite ring => Sys2Proof.Machine.execRecGapWrite ring s
  | .recMark id value => Sys2Proof.Machine.execRecMark id value s
  | .recEnable id value => Sys2Proof.Machine.execRecEnable id value s
  | .trecEnable id value => Sys2Proof.Machine.execTrecEnable id value s
  | .frameSumWrite hg => Sys2Proof.Machine.execFrameSumWrite hg s
  | .replayBandLaunch hg frame band => Sys2Proof.Machine.execReplayBandLaunch hg frame band s
  | .replayPoseLatch hg frame band => Sys2Proof.Machine.execReplayPoseLatch hg frame band s
  | .csiFrameStart cam number => Sys2Proof.Machine.execCsiFrameStart cam number s
  | .csiLine cam finding payload => Sys2Proof.Machine.execCsiLine cam finding payload s
  | .csiDtDropped cam dt => Sys2Proof.Machine.execCsiDtDropped cam dt s
  | .csiFrameEnd cam number => Sys2Proof.Machine.execCsiFrameEnd cam number s
  | .featuresComplete stream => Sys2Proof.Machine.execFeaturesComplete stream s
  | .matchJobStart => Sys2Proof.Machine.execMatchJobStart s
  | .matchJobDone => Sys2Proof.Machine.execMatchJobDone s
  | .flowJobStart => Sys2Proof.Machine.execFlowJobStart s
  | .flowJobDone => Sys2Proof.Machine.execFlowJobDone s
  | .assayEnable id stream => Sys2Proof.Machine.execAssayEnable id stream s
  | .assayDisable id stream => Sys2Proof.Machine.execAssayDisable id stream s
  | .rasJob id die addr => Sys2Proof.Machine.execRasJob id die addr s
  | .rasFlush id die => Sys2Proof.Machine.execRasFlush id die s
  | .rasJobStart die => Sys2Proof.Machine.execRasJobStart die s
  | .rasJobEnd die => Sys2Proof.Machine.execRasJobEnd die s
  | .hpdRise head caps => Sys2Proof.Machine.execHpdRise head caps s
  | .linkTrainingDone head outcome => Sys2Proof.Machine.execLinkTrainingDone head outcome s
  | .linkLoss head => Sys2Proof.Machine.execLinkLoss head s
  | .headRetrain id head => Sys2Proof.Machine.execHeadRetrain id head s
  | .headEnable id head => Sys2Proof.Machine.execHeadEnable id head s
  | .layerLatch head => Sys2Proof.Machine.execLayerLatch head s
  | .headRephase head => Sys2Proof.Machine.execHeadRephase head s
  | .layerUnderrun head under => Sys2Proof.Machine.execLayerUnderrun head under s
  | .holdRequest id head => Sys2Proof.Machine.execHoldRequest id head s
  | .holdEnter head => Sys2Proof.Machine.execHoldEnter head s
  | .holdExitRequest id head => Sys2Proof.Machine.execHoldExitRequest id head s
  | .holdExit head => Sys2Proof.Machine.execHoldExit head s
  | .st2110Packet port frame => Sys2Proof.Machine.execSt2110Packet port frame s
  | .ancPacket port frame => Sys2Proof.Machine.execAncPacket port frame s
  | .ureludPacket port frame => Sys2Proof.Machine.execUreludPacket port frame s
  | .flowTimeout flow => Sys2Proof.Machine.execFlowTimeout flow s
  | .flowEnable id flow => Sys2Proof.Machine.execFlowEnable id flow s
  | .flowDisable id flow => Sys2Proof.Machine.execFlowDisable id flow s
  | .camEnable id cam => Sys2Proof.Machine.execCamEnable id cam s
  | .spiEnable id port => Sys2Proof.Machine.execSpiEnable id port s
  | .drdyEdge port => Sys2Proof.Machine.execDrdyEdge port s
  | .spiTransactionDone port data => Sys2Proof.Machine.execSpiTransactionDone port data s
  | .drdyStuck port => Sys2Proof.Machine.execDrdyStuck port s
  | .spiSynthStart port => Sys2Proof.Machine.execSpiSynthStart port s
  | .drdyLost port => Sys2Proof.Machine.execDrdyLost port s
  | .tsCapture chan info => Sys2Proof.Machine.execTsCapture chan info s
  | .tsPop id chan => Sys2Proof.Machine.execTsPop id chan s
  | .clkRateWrite id clk rate => Sys2Proof.Machine.execClkRateWrite id clk rate s
  | .clkAdj id clk delta => Sys2Proof.Machine.execClkAdj id clk delta s
  | .clkSet id clk sec ns => Sys2Proof.Machine.execClkSet id clk sec ns s
  | .jumpArm id clk => Sys2Proof.Machine.execJumpArm id clk s
  | .disarm id clk => Sys2Proof.Machine.execDisarm id clk s
  | .slewPoint clk => Sys2Proof.Machine.execSlewPoint clk s
  | .clkNsRead id clk => Sys2Proof.Machine.execClkNsRead id clk s
  | .tuSourceWrite id value => Sys2Proof.Machine.execTuSourceWrite id value s
  | .ptpMeasurement clk offset => Sys2Proof.Machine.execPtpMeasurement clk offset s
  | .announceTimeout clk => Sys2Proof.Machine.execAnnounceTimeout clk s
  | .genlockEdge => Sys2Proof.Machine.execGenlockEdge s
  | .refLost => Sys2Proof.Machine.execRefLost s
  | .adporDatagram port arrival => Sys2Proof.Machine.execAdporDatagram port arrival s
  | .regRead sess addr => Sys2Proof.Machine.execRegRead sess addr s
  | .regWrite sess addr value => Sys2Proof.Machine.execRegWrite sess addr value s
  | .burstRead sess addr len => Sys2Proof.Machine.execBurstRead sess addr len s
  | .burstWrite sess addr data => Sys2Proof.Machine.execBurstWrite sess addr data s
  | .winzeSend sess chan words => Sys2Proof.Machine.execWinzeSend sess chan words s
  | .winzeAck sess chan => Sys2Proof.Machine.execWinzeAck sess chan s
  | .streamCtrl sess body => Sys2Proof.Machine.execStreamCtrl sess body s
  | .adporEventSend sess cond => Sys2Proof.Machine.execAdporEventSend sess cond s
  | .adporEventRepeat sess cond => Sys2Proof.Machine.execAdporEventRepeat sess cond s
  | .qbvCommit id port => Sys2Proof.Machine.execQbvCommit id port s
  | .qbvChange port => Sys2Proof.Machine.execQbvChange port s
  | .qbvGateEntry port => Sys2Proof.Machine.execQbvGateEntry port s
  | .cbStreamReset idx => Sys2Proof.Machine.execCbStreamReset idx s
  | .bootReq => Sys2Proof.Machine.execBootReq s
  | .bootOffer port frame => Sys2Proof.Machine.execBootOffer port frame s
  | .bootData port frame => Sys2Proof.Machine.execBootData port frame s
  | .bootReadTimeout => Sys2Proof.Machine.execBootReadTimeout s
  | .bootProvision port frame => Sys2Proof.Machine.execBootProvision port frame s
  | .provisionTimeout => Sys2Proof.Machine.execProvisionTimeout s
  | .bootAnnounce => Sys2Proof.Machine.execBootAnnounce s
  | .xcEnable id port => Sys2Proof.Machine.execXcEnable id port s
  | .xcTrainingDone port peer => Sys2Proof.Machine.execXcTrainingDone port peer s
  | .memWr port flit => Sys2Proof.Machine.execMemWr port flit s
  | .memRd port flit => Sys2Proof.Machine.execMemRd port flit s
  | .memRsp port flit => Sys2Proof.Machine.execMemRsp port flit s
  | .memAck port flit => Sys2Proof.Machine.execMemAck port flit s
  | .halo port flit => Sys2Proof.Machine.execHalo port flit s
  | .reduce port flit => Sys2Proof.Machine.execReduce port flit s
  | .bcastLaunch port flit => Sys2Proof.Machine.execBcastLaunch port flit s
  | .bcastLate port flit => Sys2Proof.Machine.execBcastLate port flit s
  | .pose port flit => Sys2Proof.Machine.execPose port flit s
  | .heartbeat => Sys2Proof.Machine.execHeartbeat s
  | .heartbeatReceive port flit => Sys2Proof.Machine.execHeartbeatReceive port flit s
  | .xcHbMiss port => Sys2Proof.Machine.execXcHbMiss port s
  | .flitNak port seq => Sys2Proof.Machine.execFlitNak port seq s
  | .xcLinkRetrain port => Sys2Proof.Machine.execXcLinkRetrain port s
  | .retrain id port => Sys2Proof.Machine.execRetrain id port s
  | .resync id port => Sys2Proof.Machine.execResync id port s
  | .pairEnable id value => Sys2Proof.Machine.execPairEnable id value s
  | .peerFault level => Sys2Proof.Machine.execPeerFault level s
  | .take id => Sys2Proof.Machine.execTake id s
  | .takeover => Sys2Proof.Machine.execTakeover s
  | .takeClr id => Sys2Proof.Machine.execTakeClr id s
  | .faultSet id => Sys2Proof.Machine.execFaultSet id s
  | .bcSend id strict => Sys2Proof.Machine.execBcSend id strict s
  | .bootLock id => Sys2Proof.Machine.execBootLock id s
  | .svnCommit id => Sys2Proof.Machine.execSvnCommit id s
  | .install id kind => Sys2Proof.Machine.execInstall id kind s
  | .instDone => Sys2Proof.Machine.execInstDone s
  | .restoreFactory id => Sys2Proof.Machine.execRestoreFactory id s
  | .calApplied => Sys2Proof.Machine.execCalApplied s
  | .attGo id => Sys2Proof.Machine.execAttGo id s
  | .attDone => Sys2Proof.Machine.execAttDone s
  | .nvIpv4Write id value => Sys2Proof.Machine.execNvIpv4Write id value s
  | .powerOnReset straps => Sys2Proof.Machine.execPowerOnReset straps s
  | .aonUndervoltage => Sys2Proof.Machine.execAonUndervoltage s
  | .warmReset => Sys2Proof.Machine.execWarmReset s
  | .rstCmdWarm id => Sys2Proof.Machine.execRstCmdWarm id s
  | .alignmentEdge => Sys2Proof.Machine.execAlignmentEdge s
  | .bootStepComplete outcome => Sys2Proof.Machine.execBootStepComplete outcome s
  | .pwrStateRun id => Sys2Proof.Machine.execPwrStateRun id s
  | .pwrStateIdle id => Sys2Proof.Machine.execPwrStateIdle id s
  | .pwrStateStandby id => Sys2Proof.Machine.execPwrStateStandby id s
  | .stateDone => Sys2Proof.Machine.execStateDone s
  | .domReqWrite id value => Sys2Proof.Machine.execDomReqWrite id value s
  | .domainPowerup dom => Sys2Proof.Machine.execDomainPowerup dom s
  | .thermalSample readings => Sys2Proof.Machine.execThermalSample readings s
  | .throttleResume => Sys2Proof.Machine.execThrottleResume s
  | .faceHw phys => Sys2Proof.Machine.execFaceHw phys s
  | .spareTestTimer stope => Sys2Proof.Machine.execSpareTestTimer stope s
  | .canaryKick core => Sys2Proof.Machine.execCanaryKick core s
  | .canaryExpiry core => Sys2Proof.Machine.execCanaryExpiry core s
  | .coreRestartDone core => Sys2Proof.Machine.execCoreRestartDone core s
  | .supplyWarn point => Sys2Proof.Machine.execSupplyWarn point s
  | .supplyWarnClear point => Sys2Proof.Machine.execSupplyWarnClear point s
  | .supplyUv point => Sys2Proof.Machine.execSupplyUv point s
  | .supplyOv point => Sys2Proof.Machine.execSupplyOv point s
  | .sumpIdx id value => Sys2Proof.Machine.execSumpIdx id value s
  | .lineStart head => Sys2Proof.Machine.execLineStart head s
  | .binningComplete die => Sys2Proof.Machine.execBinningComplete die s
  | .drdyInactive port => Sys2Proof.Machine.execDrdyInactive port s
  | .flitDiscarded port crc => Sys2Proof.Machine.execFlitDiscarded port crc s
  | .aditLinkChange port up => Sys2Proof.Machine.execAditLinkChange port up s
  | .ingressLinkChange port up fec => Sys2Proof.Machine.execIngressLinkChange port up fec s

end Sys2Proof.Machine
end

