-- ==== Sys2Proof/Machine/Step.lean ====
section
/-! DEFINITION. The step of the block: the command at the front of the queue, or, when none waits, one tick of the time
unit (log entry 10), in which the Adit ports take the oldest frame that waits (R552). -/
namespace Sys2Proof.Machine

/-- One step: take the command at the front and run it with the queue's rest; with none, one tick. -/
def step (s : State) : Host.Outcome State Fault Refusal :=
  match s.pending with
  | [] => .next (serveFrame s.tick)
  | c :: rest => exec c { s with pending := rest }

/-- The state with the command that a word spells at the front of the queue: the table spells none with bits. -/
def State.withFetchWord (s : State) (nbits w : Nat) : State :=
  match decodeTableWord nbits w with
  | some c => { s with pending := c :: s.pending }
  | none => s

end Sys2Proof.Machine
end

