-- ==== Sys2Proof/Safety.lean ====
section
/-! DEFINITION. What statements mean by a command's completion, by an access that reaches a register, and by what a command leaves
unchanged. -/
namespace Sys2Proof

open Machine

/-- A command answers a next state that has a property. -/
def Gives (i : Instr) (s : State) (P : State → Prop) : Prop := ∃ t, exec i s = .next t ∧ P t

/-- The memory of a state is in canonical form. -/
abbrev memoryGood (s : State) : Prop := Memory.wf s.mem = true

/-- Memory holds no error, neither one that is corrected nor one that is not (R262, R264). -/
abbrev noErrors (s : State) : Prop := s.eccBad = [] ∧ s.eccOne = []

/-- A write of an identity reaches an offset of a page (R28-R31, R590, R599). -/
abbrev mayWrite (s : State) (id p off : Nat) : Prop := s.accessErr id p off true = 0

/-- A read of an identity reaches an offset of a page (R28-R31, R590, R599). -/
abbrev mayRead (s : State) (id p off : Nat) : Prop := s.accessErr id p off false = 0

/-- Every register word but those named keeps its value. -/
def regsKept (s t : State) (ks : List Nat) : Prop := ∀ p o, regKey p o ∉ ks → t.rd p o = s.rd p o

/-- Nothing but the named register words and the reply to the access has changed. -/
def onlyRegs (s t : State) (ks : List Nat) : Prop := regsKept s t ks ∧ { t with regs := s.regs, bus := s.bus } = s

/-- The words of the tally counters of a page (R34). -/
def tallyKeys (p : Nat) : List Nat := (List.range 8).map fun k => regKey p (0x30 + 4 * k)

/-- A unit page takes a LAUNCH: the conditions of R17, R18, R44, R148 and R35 hold. -/
abbrev launchable (s : State) (p : Nat) : Prop :=
  pageUnit p = true ∧ s.en p = true ∧ s.quiet p = false ∧ s.unitFaces p ≠ [] ∧ s.unitRetired p = false ∧ s.groupFault p = 0 ∧
  s.activeFaces p ≠ [] ∧ (s.partOf ((unitStopes p).headD 0)).any s.partRetired = false ∧ s.groupLaunch p false = none ∧
  ((s.unitState p).1 = 0 ∨ (s.unitState p).1 = 4) ∧ s.testing (s.activeFaces p) = false

/-- A partition takes a PART_CMD LAUNCH for the slot that the device page binds: the conditions of R44 and R326 hold. -/
abbrev partLaunchable (s : State) (q : Nat) : Prop :=
  let slot := s.rf devPage 0x054 5 0
  let fs := (s.partFaces q).filter fun f => s.pageOn (s.facePg f)
  let st := if s.rb devPage 0x054 8 then s.slotState slot else 0
  s.en devPage = true ∧ s.quiet devPage = false ∧ s.partStopes q ≠ [] ∧ fs ≠ [] ∧ s.partRetired q = false ∧ (st = 0 ∨ st = 4) ∧
  s.testing fs = false

/-- The launch that a write of LAUNCH or ARM on a page leaves for the loader: a copy of the unit registers (R42, R43), for the
context that UNIT_BIND names then (R44). -/
def launchOf (s : State) (p : Nat) (fs : List Nat) (arm : Option Nat) (strict : Bool) (id : Nat) : Launch :=
  let h := if s.rb p 0x054 8 then s.slotHandle (s.rf p 0x054 5 0) else none
  { list := s.rd64 p 0x060, strict := strict, bound := h.isSome, slot := s.rf p 0x054 5 0, arm := arm,
    origin := s.rd64 p 0x070, seed := s.rd64 p 0x080, faces := fs, state := 1, handle := h.getD 0, src := id }

/-- Only the launch at a site has changed, and the reply to the access. -/
def onlyLaunch (s t : State) (site : Nat) : Prop :=
  (∀ k, k ≠ site → NMap.find t.launches k = NMap.find s.launches k) ∧ { t with bus := s.bus, launches := s.launches } = s

/-- Face `f` runs for context `h` and issues the word `w` next: nothing holds the word (R107, R200, R237). -/
abbrev issues (s : State) (f h w : Nat) : Prop :=
  s.faceCtx f = some h ∧ s.canIssue f h = true ∧ s.ueIn (s.nextAddr f h) 16 = none ∧ s.eccOne = [] ∧ s.nextWord f h = w ∧
  ((s.face f).redo = [] → wW w = true → s.flag f (condRef f w) = true) ∧ (s.face f).issued.length < 32

/-- Nothing but the state of faces has changed. -/
def onlyFaces (s t : State) : Prop := { t with faces := s.faces } = s

/-- The matrix queue of a face has no entry that could move on (R217, R226). -/
abbrev queueSettled (x : FaceSt) : Prop := settleQueue false x.issued = x.issued

/-- Face `f` has issued the word `w` and goes on at list position `n` (or, after a restore, with the next record that it issues again); of
its state `g` has changed besides, with the slots of the tap generator that the word touches (R277), and no other face has changed. Its
accumulators are those that `g` leaves unless the word is an ACC.CLR (R118). -/
def went (s t : State) (f w n : Nat) (g : FaceSt → FaceSt) : Prop :=
  t.face f = { g (s.face f) with
    pc := if (s.face f).redo = [] then n else (s.face f).pc, redo := (s.face f).redo.tail.dropWhile (·.done), hoistWait := none
    taps := tapsAfter (g (s.face f)).taps w, issued := (t.face f).issued, acc := (t.face f).acc } ∧
  (queueSettled (s.face f) → wOp w ≠ 0x28 → (t.face f).acc = (g (s.face f)).acc) ∧ ∀ k, k ≠ f → t.face k = s.face k

/-- Face `f` has issued a word that completes later: its record is incomplete, with its index registers and data, and stands last unless
completed records follow it after a restore (R339). -/
def entered (s t : State) (f w : Nat) (d : List Byte) : Prop :=
  went s t f w ((s.face f).pc + 1) id ∧ (queueSettled (s.face f) → (t.face f).acc = (s.face f).acc) ∧
  ∃ o ∈ (t.face f).issued, o.word = w ∧ o.done = false ∧ o.xs = (s.face f).xs ∧ o.step = (s.face f).step ∧ o.data = d ∧
    ((s.face f).redo = [] → (t.face f).issued.getLast? = some o)

/-- The operation `o`, record `i` of face `f`, which runs for `h`, is the first incomplete one of a kind, and memory holds no error. -/
abbrev completes (s : State) (f h i : Nat) (o : Op) (p : Nat → Bool) : Prop :=
  s.faceCtx f = some h ∧ (s.face f).findOp (fun o => !o.done && p (wOp o.word)) = some (i, o) ∧ noErrors s

/-- The banks that ACC.CLR words clear as record `i` completes and the matrix queue moves on (R118, R237). -/
def clearsNext (x : FaceSt) (i : Nat) : Nat :=
  let l := ((List.range x.issued.length).zip x.issued).map fun e => if e.1 = i then { e.2 with done := true } else e.2
  clearedBanks l (settleQueue false l)

/-- The accumulators of face `f` are `acc`, with the banks cleared that ACC.CLR words clear behind record `i` (R118). -/
def accAfter (s t : State) (f i : Nat) (acc : NMap Int) : Prop :=
  ∀ e, NMap.get 0 (t.face f).acc e = if bit (clearsNext (s.face f) i) (e / 256) then 0 else NMap.get 0 acc e

/-- Record `i` of face `f` has completed: it is freed with the complete ones before it (R237); of the tap slots only the words held by one
whose generator the word used may have changed (R277); no other face has changed. -/
def ended (s t : State) (f i : Nat) : Prop :=
  (t.face f).issued = ((s.face f).finishOp i).issued ∧ (∀ k, k ≠ f → t.face k = s.face k) ∧
  { t.face f with issued := (s.face f).issued, acc := (s.face f).acc, cfgs := (s.face f).cfgs, taps := (s.face f).taps } = s.face f ∧
  ((t.face f).taps.map fun y => { y with held := [] }) = ((s.face f).taps.map fun y => { y with held := [] }) ∧
  (((s.face f).issued[i]?.any fun o => usesTap o.word) = false → (t.face f).taps = (s.face f).taps)

/-- Channel `c` is FULL for the core `id` (R50). -/
abbrev wakesFor (s : State) (id c : Nat) : Prop :=
  c < 64 ∧ s.rb (winzePage c) 0x148 0 = true ∧ s.rb (winzePage c) 0x150 16 = true ∧ s.rf (winzePage c) 0x150 13 8 = id

/-- The register words that a sump entry without a fault changes (R636, R637). -/
def sumpKeys : List Nat :=
  [regKey sumpPage 0x100, regKey sumpPage 0x104, regKey sumpPage 0x108, regKey sumpPage 0x110, regKey sumpPage 0x010] ++ tallyKeys sumpPage

/-- An access of an identity has ended in a bus error with a cause, counted on a page: nothing has changed but the tally counters of the page
and, for a control core, the sump, which has the cause (R32, R33; the entry's form is log entry 44). -/
def busEnded (s t : State) (id p c : Nat) : Prop :=
  t.bus = ⟨c, 0⟩ ∧ regsKept s t (tallyKeys p ++ if isCore id then sumpKeys else []) ∧
  { t with regs := s.regs, bus := s.bus, sump := s.sump } = s ∧
  if isCore id then ∃ k e, NMap.find t.sump k = some e ∧ e.source = id ∧ e.page = p ∧ e.detail = c else t.sump = s.sump

/-- The register words that a saturating accumulator changes: ACC_SAT, IRQ_STAT and the tally counters of the page (R117). -/
def pinKeys (pg : Nat) : List Nat := regKey pg 0x114 :: regKey pg 0x010 :: tallyKeys pg

/-- A frame that arrives on a port brings the datagram `d` of flow `f`, on a path (R475, R476, R477). -/
abbrev flowArrives (s : State) (p : Nat) (b : List Byte) (f path : Nat) (d : Dgram) : Prop :=
  s.pageOn (portPage p) = true ∧ fcsOk b = true ∧ (ingressFrame (s.rb (portPage p) 0x104 2) b).bind parseUdp = some d ∧ s.flowsOn.find? (s.flowTakes p d) = some f ∧
  path = if s.flowCfg f 3 2 = p then 0 else 1

/-- Slot `i` of the store of flow `f` holds frame `n` open, and no slot of the store holds an earlier frame open (R486, R488). -/
abbrev slotHolds (s : State) (f i n : Nat) : Prop :=
  let g := s.flowHg f
  let ref := s.flowRefs f
  s.slotFor g ref n = some i ∧ s.hFrame (s.slotHdr g ref i) = n ∧ s.hBit (s.slotHdr g ref i) 0 = true ∧
  ∀ j < s.slotCount g ref, s.hBit (s.slotHdr g ref j) 0 = true → laterFrame n (s.hFrame (s.slotHdr g ref j)) = false

/-- The row of the table by which a word of an opcode issues on a face (R204). -/
def issueRow (f : Face) (o : Nat) : Option Instr := match o with
  | 0x00 => some (.nop f)
  | 0x01 => some (.stop f)
  | 0x02 => some (.loop f)
  | 0x03 => some (.endloop f)
  | 0x04 => some (.branch f)
  | 0x05 => some (.step f)
  | 0x06 => some (.xset f)
  | 0x07 => some (.xadd f)
  | 0x08 => some (.live f)
  | 0x09 => some (.externDir f)
  | 0x0A => some (.xld f)
  | 0x0F => some (.listhdr f)
  | 0x10 => some (.sig f)
  | 0x11 => some (.wait f)
  | 0x12 => some (.bar f)
  | 0x20 => some (.mmaI8 f)
  | 0x21 => some (.mmaG4 f)
  | 0x22 => some (.mmaG4p f)
  | 0x28 => some (.accClr f)
  | 0x29 => some (.accDrain f)
  | 0x40 => some (.cfgLoad f)
  | 0x41 => some (.cfgSel f)
  | 0x42 => some (.latRun f)
  | 0x60 => some (.qmMeasure f)
  | 0x61 => some (.qmConvert f)
  | 0x62 => some (.qmEsc f)
  | 0x63 => some (.qmReblock f)
  | 0x70 => some (.hoist2d f)
  | 0x71 => some (.hoist3d f)
  | 0x72 => some (.hoistGather f)
  | 0x73 => some (.hoistHalo f)
  | 0x80 => some (.tapSet f)
  | 0x81 => some (.tapPos f)
  | 0x82 => some (.tapMmaI8 f)
  | 0x83 => some (.tapMmaG4p f)
  | 0x90 => some (.rasClaim f)
  | 0x91 => some (.rasPrim f)
  | 0x92 => some (.rasRelease f)
  | 0xA0 => some (.rng f)
  | 0xA1 => some (.timeRead f)
  | 0xA2 => some (.galleryAddu f)
  | o => if 0xF0 ≤ o then some (.illegalOpcode f) else none

/-- A frame that arrives on Adit port `p` is taken, with none waiting before it, and brings the datagram `d` to the port's address;
elimination is off (R534, R539, R552). -/
abbrev adporArrives (s : State) (p : Nat) (b : List Byte) (d : Dgram) : Prop :=
  s.boot.testLow = false ∧ s.rxq = [] ∧ ethLenOk b = true ∧ (s.rd64 (aditPage p) 0x108 = 0 ∨ (parseEth b).dst = s.rd64 (aditPage p) 0x108) ∧
  s.rb (aditPage 0) 0x380 0 = false ∧ (parseEth b).etype = 0x0800 ∧ parseUdp (parseEth b).body = some d ∧ d.dst = s.rd (aditPage p) 0x110

/-- A frame on Adit port `p` is one that the port receives: of a listed length, no Pause frame, to the port's address (R534, log entry 39). -/
abbrev rxTaken (s : State) (p : Nat) (b : List Byte) : Prop :=
  s.boot.testLow = false ∧ ethLenOk b = true ∧ (parseEth b).etype ≠ 0x8808 ∧
  (s.rd64 (aditPage p) 0x108 = 0 ∨ (parseEth b).dst = s.rd64 (aditPage p) 0x108)

/-- A datagram passes every check of R542 before the tag: its type, session and number, and the key of an open session. -/
abbrev adporHeader (s : State) (p : Nat) (d : Dgram) (type sess seq : Nat) (k : List Byte) : Prop :=
  let b := d.payload
  d.dport = s.rf (aditPage p) 0x114 15 0 ∧ 24 ≤ b.length ∧ b.length ≤ 1472 ∧ leAt b 0 1 = 1 ∧ leAt b 1 1 = type ∧ leAt b 2 1 = sess ∧
  sess < 8 ∧ leAt b 3 1 = 0 ∧ beAt b 4 4 = seq ∧ s.sessOpen sess type = true ∧ s.sessKey sess = some k

/-- The tag of a datagram is right under a key (R541). -/
abbrev tagged (d : Dgram) (k : List Byte) : Prop := adporTag k (d.payload.take (d.payload.length - 16)) = d.payload.drop (d.payload.length - 16)

/-- An Adit port sends at once: no gate list, and no frame waits (R535, R536). -/
abbrev sendsAtOnce (s : State) (p : Nat) : Prop := s.rb (aditPage p) 0x100 19 = false ∧ (s.adit p).queue = []

/-- The register words that the receipt of a frame counts in (R555, R556). -/
def rxKeys (p : Nat) : List Nat := [regKey (aditPage p) 0x118, regKey (aditPage p) 0x11C] ++ tallyKeys (aditPage p)

/-- A flit of a class that a crosscut port takes: its CRC holds, its SEQ is the next one, and its ACK frees nothing (R561). -/
abbrev flitTaken (s : State) (p cls : Nat) (f : List Byte) : Prop :=
  s.xcUp p = true ∧ flitClass f = cls ∧ flitCrcOk f = true ∧ flitSeq f = (s.port p).rxSeq ∧ flitAck f ∉ (s.port p).held.map flitSeq

/-- A crosscut port sends at once: nothing is queued and its replay buffer has room (R561, R563). -/
abbrev portReady (s : State) (p : Nat) : Prop := s.xcUp p = true ∧ (s.port p).queue = [] ∧ (s.port p).held.length < 64

/-- One flit has left a port: its class, TAG, ARG and payload, with a good CRC and the port's next SEQ (R560, R561). -/
def sentFlit (s t : State) (p cls tag arg : Nat) (payload : List Byte) : Prop :=
  ∃ g, t.out = s.out ++ [.flit p g] ∧ flitCrcOk g = true ∧ flitClass g = cls ∧ flitSeq g = (s.port p).txSeq % 2 ^ 16 ∧ flitTag g = tag ∧
    flitArg g = arg ∧ flitPayload g = payload ∧ (t.port p).held = (s.port p).held ++ [g]

/-- The register words that the traffic of a crosscut port counts in (R581, R584). -/
def linkKeys (p : Nat) : List Nat :=
  [regKey (xcPage p) 0x120, regKey (xcPage p) 0x124, regKey (xcPage p) 0x128, regKey (xcPage p) 0x12C] ++ tallyKeys (xcPage p)

/-- Every byte of memory outside `n` bytes from `a` reads as before. -/
def memKept (s t : State) (a n : Nat) : Prop := ∀ x, x < a ∨ a + n ≤ x → Memory.read t.mem x = Memory.read s.mem x

end Sys2Proof
end

