-- ==== Sys2Proof/Certificates/Slice0/Obligations.lean ====
section
/-! DEFINITION. The statements for the provers. -/
open Sys2Proof Sys2Proof.Machine

/-! ### The queue, accesses, the header and winze channels -/

/-- A step runs the command at the front of the queue with the queue's rest. With an empty queue it is one tick of the time unit, and the
Adit ports take the oldest frame that waits, if any (the model's choice, log entries 10 and 39). Every command completes: from every state
its execution answers a next state. -/
def Obligations.StepRunsTheFront : Prop :=
  (∀ (c : Instr) (s : State), step { s with pending := c :: s.pending } = exec c s) ∧
  (∀ s : State, s.pending = [] → step s = .next (serveFrame s.tick) ∧ (s.rxq = [] → step s = .next s.tick)) ∧
  (∀ (c : Instr) (s : State), ∃ t, exec c s = .next t)

/-- R28, R29, R31, R32, R33: a register write or read that ends in a bus error changes no register but the tally counters of its page (of
the device page when the index is unassigned), and reports its cause; of a control core's the sump takes the cause (log entry 44). -/
def Obligations.BusErrorsChangeNothing : Prop :=
  ∀ (id : Ident) (a n v : Nat) (s : State), regionOf a = .control →
    let p := (a - ctlBase) / 4096
    let q := if pageAssigned p then p else devPage
    ((n ≠ 4 ∨ a % 4 ≠ 0) →
      Gives (.registerWrite id a n v) s (fun t => busEnded s t id q 2) ∧
      Gives (.lowWordRead id a n) s (fun t => busEnded s t id q 2) ∧
      Gives (.rcRead id a n) s (fun t => busEnded s t id q 2)) ∧
    (n = 4 → a % 4 = 0 → pageAssigned p = false →
      Gives (.registerWrite id a n v) s (fun t => busEnded s t id devPage 1) ∧
      Gives (.lowWordRead id a n) s (fun t => busEnded s t id devPage 1)) ∧
    (n = 4 → a % 4 = 0 → pageAssigned p = true → s.boot.window = false → s.accOk id p true = true → s.pageOn p = false →
      Gives (.registerWrite id a n v) s (fun t => busEnded s t id p 5))

/-- R5, R6, R35: on every page that a write reaches, IRQ_EN takes the bits of the causes that the page offers, IRQ_STAT loses exactly
the bits written as 1, and nothing else changes. -/
def Obligations.RegisterWriteByAccessCode : Prop :=
  ∀ (id : Ident) (p v : Nat) (s : State), pageAssigned p = true →
    (mayWrite s id p 0x014 → s.rd p 0x014 &&& irqMask p = s.rd p 0x014 →
      Gives (.registerWrite id (ctlBase + p * 4096 + 0x014) 4 v) s fun t =>
        t.rd p 0x014 = v % 2 ^ 32 &&& irqMask p ∧ t.bus = ⟨0, 0⟩ ∧ onlyRegs s t [regKey p 0x014]) ∧
    (mayWrite s id p 0x010 →
      Gives (.registerWrite id (ctlBase + p * 4096 + 0x010) 4 v) s fun t =>
        t.rd p 0x010 = s.rd p 0x010 &&& (2 ^ 32 - 1 - v % 2 ^ 32) ∧ t.bus = ⟨0, 0⟩ ∧ onlyRegs s t [regKey p 0x010])

/-- R9: a read of the low word of a tally counter returns it and latches the high word; the next read of the high word returns what
was latched, whatever the counter holds by then.
R5: a read of an RC register (here the statistics of a face page and the error counts of the memory-side die) returns its value and
clears it, and changes nothing else. -/
def Obligations.ReadsThatLatchAndClear : Prop :=
   (∀ (id : Ident) (p k : Nat) (s : State), pageAssigned p = true → k < 4 →
     (mayRead s id p (tallyOff k) → NMap.find s.latch (regKey p (tallyOff k)) = none →
       Gives (.lowWordRead id (ctlBase + p * 4096 + tallyOff k) 4) s fun t =>
         t.bus = ⟨0, BitVec.ofNat 32 (s.rd p (tallyOff k))⟩ ∧
         NMap.find t.latch (regKey p (tallyOff k + 4)) = some (BitVec.ofNat 32 (s.rd p (tallyOff k + 4))) ∧
         { t with latch := s.latch, bus := s.bus } = s) ∧
     (∀ w : Word, mayRead s id p (tallyOff k + 4) → NMap.find s.latch (regKey p (tallyOff k + 4)) = some w →
       Gives (.lowWordRead id (ctlBase + p * 4096 + (tallyOff k + 4)) 4) s fun t =>
         t.bus = ⟨0, w⟩ ∧ { t with latch := s.latch, bus := s.bus } = s)) ∧
   (∀ (id : Ident) (f : Phys) (s : State) (p off : Nat),
     (p = facePage f ∧ (off = 0x114 ∨ off = 0x118 ∨ off = 0x120)) ∨ (p = memPage ∧ (off = 0x108 ∨ off = 0x10C)) →
     mayRead s id p off → NMap.find s.latch (regKey p off) = none →
     Gives (.rcRead id (ctlBase + p * 4096 + off) 4) s fun t =>
       t.bus = ⟨0, BitVec.ofNat 32 (s.rd p off)⟩ ∧ t.rd p off = 0 ∧ onlyRegs s t [regKey p off])

/-- R38: a write of FAULT_CLR whose CODE equals FAULT.CODE clears FAULT to 0; a write with any other value is discarded. A fault that
arises with a matching clear is then written as the first fault, without MORE.
R37: the first fault of a page is written with its source; a further one sets MORE and keeps CODE. -/
def Obligations.FaultRegister : Prop :=
   (∀ (id : Ident) (p : Page) (v : Word) (s : State), mayWrite s id p 0x028 →
     Gives (.faultClr id p v) s fun t =>
       t.rd p 0x01C = (if v.toNat % 65536 = s.rf p 0x01C 15 0 then 0 else s.rd p 0x01C) ∧ t.bus = ⟨0, 0⟩ ∧ onlyRegs s t [regKey p 0x01C] ∧
       (v.toNat % 65536 = s.rf p 0x01C 15 0 → ∀ code src, 0 < code → code < 65536 → src < 64 →
         (t.faultBy p code src).rd p 0x01C = code + 65536 * src)) ∧
   (∀ (s : State) (p code src : Nat), 0 < code → code < 65536 → src < 64 →
     (s.rf p 0x01C 15 0 = 0 → (s.faultBy p code src).rf p 0x01C 15 0 = code ∧ (s.faultBy p code src).rf p 0x01C 21 16 = src ∧
       (s.faultBy p code src).rb p 0x010 0 = true) ∧
     (s.rf p 0x01C 15 0 ≠ 0 → (s.faultBy p code src).rf p 0x01C 15 0 = s.rf p 0x01C 15 0 ∧ (s.faultBy p code src).rb p 0x01C 31 = true) ∧
     (s.faultBy p code src).mem = s.mem)

/-- R40, R41: a SEL field that takes a new value clears its counter and the other counters keep theirs; a CLR bit clears its counter,
which reads 1 afterwards when an event that it counts falls with the write. -/
def Obligations.TallyWrites : Prop :=
  ∀ (id : Ident) (p : Page) (v : Word) (ev : Fin 16) (s : State), pageAssigned p = true →
    (mayWrite s id p 0x020 → (∀ k < 4, tallyOffered p (fld v.toNat (8 * k + 7) (8 * k)) = true) →
      Gives (.tallySelWrite id p v) s fun t => t.rd p 0x020 = v.toNat ∧
        (∀ k < 4, t.rd64 p (tallyOff k) =
          if fld v.toNat (8 * k + 7) (8 * k) = s.rf p 0x020 (8 * k + 7) (8 * k) then s.rd64 p (tallyOff k) else 0) ∧
        onlyRegs s t (regKey p 0x020 :: tallyKeys p)) ∧
    (mayWrite s id p 0x024 → s.rd p 0x024 &&& 0x10F = s.rd p 0x024 →
      Gives (.tallyClr id p v ev) s fun t => t.rd p 0x024 = v.toNat &&& 0x10F ∧
        (∀ k < 4, bit v.toNat (4 + k) = true → t.rd64 p (tallyOff k) = b2n (bit ev k && s.rb p 0x024 k && !s.rb p 0x024 8)) ∧
        (∀ k < 4, bit v.toNat (4 + k) = false → bit ev k = false → t.rd64 p (tallyOff k) = s.rd64 p (tallyOff k)) ∧
        onlyRegs s t (regKey p 0x024 :: tallyKeys p))

/-- R48, R49, R51: on a valid channel, the sender writes DATA and a listed GO while FULL is 0, and the receiver's ACK read while FULL is
1 returns CHAN_STAT, clears FULL and sets EMPTY (what the manager cores do with a message is not in this clause).
R49, R51: a DATA or GO write while FULL is 1 ends in bus error FULL and leaves the message unchanged; a GO whose LEN is not listed,
written while FULL is 0, changes nothing; a read of ACK while FULL is 0 returns 0 and changes nothing. -/
def Obligations.WinzeChannel : Prop :=
   (∀ (id : Ident) (c : Chan) (i : Fin 16) (v : Word) (s : State), s.rb (winzePage c) 0x150 16 = true →
     (mayWrite s id (winzePage c) (0x100 + 4 * i) → s.rb (winzePage c) 0x148 0 = false →
       (c.val < 56 → id.val = s.rf (winzePage c) 0x150 5 0) →
       Gives (.winzeDataWrite id c i v) s fun t => t.rd (winzePage c) (0x100 + 4 * i) = v.toNat ∧ t.bus = ⟨0, 0⟩ ∧
         onlyRegs s t [regKey (winzePage c) (0x100 + 4 * i)]) ∧
     (mayWrite s id (winzePage c) 0x140 → s.rb (winzePage c) 0x148 0 = false → s.quiet (winzePage c) = false →
       (c.val < 56 → id.val = s.rf (winzePage c) 0x150 5 0) → 1 ≤ fld v.toNat 4 0 → fld v.toNat 4 0 ≤ 16 →
       (∀ d, coreDomain (s.rf (winzePage c) 0x150 13 8) = some d → s.domOn d = true) →
       Gives (.winzeGo id c v) s fun t =>
         t.rd (winzePage c) 0x148 = 1 + 256 * ((s.rf (winzePage c) 0x148 15 8 + 1) % 256) + 65536 * fld v.toNat 4 0 ∧
         t.rd (winzePage c) 0x14C = id ∧ t.out = s.out ++ [.wake (s.rf (winzePage c) 0x150 13 8) c] ∧ t.bus = ⟨0, 0⟩ ∧
         (∀ d, coreDomain (s.rf (winzePage c) 0x150 13 8) = some d → s.power.crit = false → s.rb pwrPage 0x110 d = true → t.wokenNow d = true) ∧
         regsKept s t [regKey (winzePage c) 0x148, regKey (winzePage c) 0x14C] ∧ t.power = { s.power with woken := t.power.woken } ∧
         { t with regs := s.regs, bus := s.bus, out := s.out, power := s.power } = s) ∧
     (mayRead s id (winzePage c) 0x144 → s.rb (winzePage c) 0x148 0 = true → id.val = s.rf (winzePage c) 0x150 13 8 → id.val = 0 ∨ 4 ≤ id.val →
       Gives (.ackRead id c) s fun t => t.bus = ⟨0, BitVec.ofNat 32 (s.rd (winzePage c) 0x148)⟩ ∧
         t.rb (winzePage c) 0x148 0 = false ∧ t.rb (winzePage c) 0x010 8 = true ∧
         onlyRegs s t [regKey (winzePage c) 0x148, regKey (winzePage c) 0x010])) ∧
   (∀ (id : Ident) (c : Chan) (i : Fin 16) (v : Word) (s : State), s.rb (winzePage c) 0x150 16 = true →
     (c.val < 56 → id.val = s.rf (winzePage c) 0x150 5 0) →
     (mayWrite s id (winzePage c) (0x100 + 4 * i) → s.rb (winzePage c) 0x148 0 = true →
       Gives (.winzeDataWrite id c i v) s fun t => busEnded s t id (winzePage c) 4) ∧
     (mayWrite s id (winzePage c) 0x140 → s.rb (winzePage c) 0x148 0 = true →
       Gives (.winzeGo id c v) s fun t => busEnded s t id (winzePage c) 4) ∧
     (mayWrite s id (winzePage c) 0x140 → s.rb (winzePage c) 0x148 0 = false → (fld v.toNat 4 0 = 0 ∨ 16 < fld v.toNat 4 0) →
       Gives (.winzeGo id c v) s fun t => t.bus = ⟨0, 0⟩ ∧ onlyRegs s t []) ∧
     (mayRead s id (winzePage c) 0x144 → s.rb (winzePage c) 0x148 0 = false → id.val = s.rf (winzePage c) 0x150 13 8 →
       Gives (.ackRead id c) s fun t => t.bus = ⟨0, 0⟩ ∧ onlyRegs s t []))

/-! ### The cage: switches, slots, the schedule, head groups -/

/-- R97, R319: with adaptation off, an ARM of the weight switch before its commit point sets PENDING, a CANCEL of a pending one clears it;
likewise for the slot switch. One that is refused changes nothing but tally counters and, for the slot switch, SLOT. With adaptation on, a
write of HG_WCTRL changes nothing.
R67, R104: LOAD of a slot that no enabled group uses makes it not VALID and loading (from the write on: log entry 30); where no error is
met in memory, the end of the load sets VALID exactly when no check fails, puts the failing check's code into ERR and raises SLOT_DONE;
UNLOAD makes it not VALID. A slot in use is not touched, and SLOT_IN_USE is recorded. -/
def Obligations.SwitchesAndModelSlots : Prop :=
   (∀ (id : Ident) (g : Fin 4) (v : Word) (s : State), s.adEn g = false →
     (mayWrite s id cagePage (hgOff g + 0x4C) → s.commitPassed g (s.rd cagePage (hgOff g + 0x48)) = false →
       Gives (.weightArm id g) s fun t => t.rb cagePage (hgOff g + 0x4C) 8 = true ∧ onlyRegs s t [regKey cagePage (hgOff g + 0x4C)]) ∧
     (mayWrite s id cagePage (hgOff g + 0x4C) → s.commitPassed g (s.rd cagePage (hgOff g + 0x48)) = true →
       Gives (.weightArm id g) s fun t => onlyRegs s t (tallyKeys cagePage)) ∧
     (mayWrite s id cagePage (hgOff g + 0x4C) → s.rb cagePage (hgOff g + 0x4C) 8 = true →
       Gives (.weightCancel id g) s fun t => t.rb cagePage (hgOff g + 0x4C) 8 = false ∧ onlyRegs s t [regKey cagePage (hgOff g + 0x4C)]) ∧
     (mayWrite s id cagePage (hgOff g + 0x4C) → s.rb cagePage (hgOff g + 0x4C) 8 = false →
       Gives (.weightCancel id g) s fun t => onlyRegs s t (tallyKeys cagePage)) ∧
     (mayWrite s id cagePage (hgOff g + 0x5C) → bit v.toNat 10 = false → s.commitPassed g (s.rd cagePage (hgOff g + 0x60)) = false →
       Gives (.slotSwitchArm id g v) s fun t => t.rb cagePage (hgOff g + 0x5C) 9 = true ∧
         t.rf cagePage (hgOff g + 0x5C) 1 0 = fld v.toNat 1 0 ∧ onlyRegs s t [regKey cagePage (hgOff g + 0x5C)]) ∧
     (mayWrite s id cagePage (hgOff g + 0x5C) → bit v.toNat 10 = false → s.commitPassed g (s.rd cagePage (hgOff g + 0x60)) = true →
       Gives (.slotSwitchArm id g v) s fun t => t.rb cagePage (hgOff g + 0x5C) 9 = s.rb cagePage (hgOff g + 0x5C) 9 ∧
         t.rf cagePage (hgOff g + 0x5C) 1 0 = fld v.toNat 1 0 ∧ onlyRegs s t (regKey cagePage (hgOff g + 0x5C) :: tallyKeys cagePage)) ∧
     (mayWrite s id cagePage (hgOff g + 0x5C) → s.rb cagePage (hgOff g + 0x5C) 9 = true →
       Gives (.slotSwitchCancel id g) s fun t => t.rb cagePage (hgOff g + 0x5C) 9 = false ∧
         t.rf cagePage (hgOff g + 0x5C) 1 0 = s.rf cagePage (hgOff g + 0x5C) 1 0 ∧ onlyRegs s t [regKey cagePage (hgOff g + 0x5C)]) ∧
     (mayWrite s id cagePage (hgOff g + 0x5C) → s.rb cagePage (hgOff g + 0x5C) 9 = false →
       Gives (.slotSwitchCancel id g) s fun t => onlyRegs s t (regKey cagePage (hgOff g + 0x5C) :: tallyKeys cagePage) ∧
         t.rd cagePage (hgOff g + 0x5C) = s.rd cagePage (hgOff g + 0x5C))) ∧
   (∀ (id : Ident) (g : Fin 4) (s : State), s.adEn g = true → mayWrite s id cagePage (hgOff g + 0x4C) →
     Gives (.weightArm id g) s (fun t => onlyRegs s t []) ∧ Gives (.weightCancel id g) s (fun t => onlyRegs s t [])) ∧
   (∀ (id : Ident) (k : Fin 4) (s : State),
     (mayWrite s id cagePage (0x308 + 0x10 * k) → s.slotInUse k = false → NMap.rising s.slotDesc = true →
       Gives (.slotLoad id k) s (fun t => t.slotValid k = false ∧ NSet.has t.slotLoading k = true ∧
         regsKept s t [regKey cagePage (0x30C + 0x10 * k)] ∧
         { t with regs := s.regs, bus := s.bus, slotDesc := s.slotDesc, slotLoading := s.slotLoading } = s) ∧
       Gives (.slotUnload id k) s (fun t => t.slotValid k = false ∧ NSet.has t.slotLoading k = false ∧
         regsKept s t [regKey cagePage (0x30C + 0x10 * k)] ∧
         { t with regs := s.regs, bus := s.bus, slotDesc := s.slotDesc, slotLoading := s.slotLoading } = s)) ∧
     (NSet.has s.slotLoading k = true → s.slotValid k = false →
       s.slotBad (s.rd64 cagePage (0x300 + 0x10 * k)) (s.ldBytes (s.rd64 cagePage (0x300 + 0x10 * k)) 256) = none →
       Gives (.slotLoadDone k) s fun t =>
         t.slotValid k = (s.slotCheck (s.ldBytes (s.rd64 cagePage (0x300 + 0x10 * k)) 256) == 0) ∧
         t.rf cagePage (0x30C + 0x10 * k) 15 8 = s.slotCheck (s.ldBytes (s.rd64 cagePage (0x300 + 0x10 * k)) 256) ∧
         t.rb cagePage 0x010 10 = true ∧ NSet.has t.slotLoading k = false ∧
         regsKept s t [regKey cagePage (0x30C + 0x10 * k), regKey cagePage 0x010] ∧
         { t with regs := s.regs, slotDesc := s.slotDesc, slotLoading := s.slotLoading } = s) ∧
     (mayWrite s id cagePage (0x308 + 0x10 * k) → s.slotInUse k = true → s.rf cagePage 0x01C 15 0 = 0 →
       Gives (.slotLoad id k) s (fun t => t.slotDesc = s.slotDesc ∧ t.slotLoading = s.slotLoading ∧ t.mem = s.mem ∧
         t.rf cagePage 0x01C 15 0 = 0x2002) ∧
       Gives (.slotUnload id k) s (fun t => t.slotDesc = s.slotDesc ∧ t.slotLoading = s.slotLoading ∧ t.mem = s.mem ∧
         t.rf cagePage 0x01C 15 0 = 0x2002)))

/-- R77, R78, R104: SCHED_CMD WRITE copies the entry words into the entry, without their reserved bits, and SCHED_CMD READ copies the entry
back; a SIGNAL firing that is due in the line in progress sets its gallery flag and is noted, and nothing else changes. WRITE to entries 0
to 3 is discarded and records SCHED_BAD.
R78: a LAUNCH firing of the schedule that is due writes UNIT_LIST and then UNIT_CMD LAUNCH to its target page: where the unit takes it, the
launch is left with the page's registers. -/
def Obligations.ScheduleEntries : Prop :=
   (∀ (id : Ident) (e : Fin 256) (F : Word) (s : State),
     (mayWrite s id cagePage 0x344 → 4 ≤ s.rf cagePage 0x340 7 0 →
       s.rd cagePage 0x350 % 16 = 0 ∨ s.rd cagePage 0x350 % 16 = 2 ∨ s.rd cagePage 0x350 % 16 = 3 →
       Gives (.schedWrite id) s fun t => NMap.find t.sched (s.rf cagePage 0x340 7 0) =
           some [s.rd cagePage 0x350 &&& 0x01FFFF3F, s.rd cagePage 0x354 &&& 0x1FFF1FFF, s.rd cagePage 0x358 &&& 0xFFFF1FFF, s.rd cagePage 0x35C] ∧
         (∀ k, k ≠ s.rf cagePage 0x340 7 0 → NMap.find t.sched k = NMap.find s.sched k) ∧
         { t with bus := s.bus, sched := s.sched } = s) ∧
     (mayWrite s id cagePage 0x344 → s.rf cagePage 0x340 7 0 < 4 → s.rf cagePage 0x01C 15 0 = 0 →
       Gives (.schedWrite id) s fun t => t.sched = s.sched ∧ t.mem = s.mem ∧ t.rf cagePage 0x01C 15 0 = 0x2004) ∧
     (mayWrite s id cagePage 0x344 →
       Gives (.schedRead id) s fun t =>
         (∀ j < 4, t.rd cagePage (0x350 + 4 * j) = nth 0 (NMap.get [] s.sched (s.rf cagePage 0x340 7 0)) j % 2 ^ 32) ∧
         onlyRegs s t [regKey cagePage 0x350, regKey cagePage 0x354, regKey cagePage 0x358, regKey cagePage 0x35C]) ∧
     (s.schedFires e 3 F.toNat = true →
       let w2 := nth 0 (NMap.get [] s.sched e) 2
       Gives (.schedSignal e F) s fun t => t.gflag (fld w2 30 28) (fld w2 27 16) = true ∧
         (∀ d i, d * 4096 + i ≠ fld w2 30 28 * 4096 + fld w2 27 16 → t.gflag d i = s.gflag d i) ∧
         t.firedCount e = s.firedCount e + 1 ∧ (∀ j, j ≠ s.schedHg e → t.group j = s.group j) ∧
         { t with gflags := s.gflags, doneWatch := s.doneWatch, groups := s.groups } = s)) ∧
   (∀ (e : Fin 256) (F : Word) (s : State), s.schedFires e 2 F.toNat = true →
     let w := NMap.get [] s.sched e
     let p := fld (nth 0 w 2) 31 16
     let u := (noteFired e s).wr64 p 0x060 (nth 0 w 3 * 256)
     pageAssigned p = true → s.pageOn p = true → s.unitLocked p = false → launchable u p → nth 0 w 3 < 2 ^ 32 →
     Gives (.schedLaunch e F) s fun t => t.rd64 p 0x060 = nth 0 w 3 * 256 ∧
       NMap.find t.launches p = some (launchOf u p (u.activeFaces p) none (bit (nth 0 w 0) 24) 7) ∧
       (∀ k, k ≠ p → NMap.find t.launches k = NMap.find s.launches k) ∧ t.firedCount e = s.firedCount e + 1 ∧
       { t with regs := s.regs, launches := s.launches, groups := s.groups } = s)

/-- R102: a write that sets EN of a head group is accepted exactly when the group as written keeps the conditions of R102. Accepted, the
group is enabled with no record of an earlier enable and, of its bands, only those launched that have yet to meet their deadline (R103),
and only its own block, bands and schedule entry change; refused, EN stays 0 and HG_CONFIG is recorded.
R101, R103: a write that clears EN of a head group clears EN and any pending weight or slot switch, and takes its train off the
schedule; a write that would keep EN at 1 is discarded. With adaptation of the group off, nothing else changes. -/
def Obligations.HeadGroupEnableAndDisable : Prop :=
   (∀ (id : Ident) (g : Fin 4) (v : Word) (s : State) (r : RegAt), regAt cagePage (hgOff g) = some r →
     mayWrite s id cagePage (hgOff g) → s.hgEn g = false →
     let n := mergeWrite r.row (s.rd cagePage (hgOff g)) (setBit v.toNat 0 true)
     let u := s.wr cagePage (hgOff g) (setBit n 0 false)
     (u.hgOk g = true →
       Gives (.hgEnable id g v) s fun t => t.rd cagePage (hgOff g) = n ∧ t.hgEn g = true ∧ t.rd cagePage (hgOff g + 0x68) = 0 ∧
         (∀ e, e ∈ t.bands ↔ e ∈ s.bands ∧ (e.1 / 2 ^ 40 = g.val → e.2.launched = true ∧ e.2.due = false)) ∧
         (∀ j, j ≠ g.val → t.group j = s.group j) ∧ (∀ e, e ≠ g.val → NMap.find t.sched e = NMap.find s.sched e) ∧
         regsKept s t [regKey cagePage (hgOff g), regKey cagePage (hgOff g + 0x68)] ∧
         { t with regs := s.regs, bus := s.bus, bands := s.bands, groups := s.groups, sched := s.sched } = s) ∧
     (u.hgOk g = false → s.rf cagePage 0x01C 15 0 = 0 →
       Gives (.hgEnable id g v) s fun t => t.hgEn g = false ∧ t.rf cagePage 0x01C 15 0 = 0x2001 ∧ t.mem = s.mem ∧ t.bands = s.bands ∧
         t.sched = s.sched)) ∧
   (∀ (id : Ident) (g : Fin 4) (v : Word) (s : State), mayWrite s id cagePage (hgOff g) → s.hgEn g = true →
     (NMap.rising s.sched = true → Gives (.hgDisable id g v) s fun t => t.hgEn g = false ∧ t.rb cagePage (hgOff g + 0x4C) 8 = false ∧
       t.rb cagePage (hgOff g + 0x5C) 9 = false ∧ NMap.find t.sched g = none) ∧
     (s.adEn g = false → NMap.rising s.sched = true →
       Gives (.hgDisable id g v) s fun t => t.hgEn g = false ∧ t.rb cagePage (hgOff g + 0x4C) 8 = false ∧
         t.rb cagePage (hgOff g + 0x5C) 9 = false ∧ NMap.find t.sched g = none ∧
         (∀ e, e ≠ g.val → NMap.find t.sched e = NMap.find s.sched e) ∧
         regsKept s t [regKey cagePage (hgOff g), regKey cagePage (hgOff g + 0x4C), regKey cagePage (hgOff g + 0x5C)] ∧
         { t with regs := s.regs, bus := s.bus, sched := s.sched } = s) ∧
     Gives (.hgEnable id g v) s fun t => onlyRegs s t [])

/-- R75: the launch block of a band holds F, b, B, the lines of the band, p, R_f, s_b, the region width, n, the input slot's header, the
weight set, and the pose and done flags.
R73, R74: at the launch line of a band that is to run, the deadline of band b - K and the commits of band 0 take effect first; then,
where the input slot holds n, the launch block is written and, where its context is resident and idle and its faces are there and not
under self-test, the band list starts in band context i with STRICT = 1. Where the slot does not hold n, nothing is launched and the band
carries INPUT_MISSING. -/
def Obligations.BandLaunchAndBlock : Prop :=
   (∀ (g : Fin 4) (F : Word) (b n p : Nat) (s : State), memoryGood s → noErrors s → b < s.hgB g → s.hgB g < 256 →
     s.frameMap g F.toNat = some (n, p) → p < 4 → 0 < s.hgK g → s.hgDone g + s.bandIdx g b < 4096 → s.hgPose g + s.bandIdx g b < 4096 →
     s.hgWeights g F.toNat < 2 ^ 40 → s.hgW g < 65536 → b * s.hgH g < 65536 → (s.bandLines g b).2 < 256 →
     let t := bandPrepared g F.toNat b s
     let a := s.hgBlock g (s.bandIdx g b)
     t.ld a 4 = F.toNat ∧ t.ld (a + 4) 1 = b ∧ t.ld (a + 5) 1 = s.hgB g ∧ t.ld (a + 6) 1 = (s.bandLines g b).2 ∧
     fld (t.ld (a + 4) 4) 27 24 = p ∧ fld (t.ld (a + 4) 4) 31 28 = s.hgRf g ∧ t.ld (a + 8) 2 = b * s.hgH g ∧ t.ld (a + 10) 2 = s.hgW g ∧
     t.ld (a + 12) 4 = n ∧ t.ld (a + 0x10) 8 = s.bandInput g F.toNat ∧ t.ld (a + 0x30) 8 = s.hgWeights g F.toNat ∧
     fld (t.ld (a + 0x3C) 4) 11 0 = s.hgPose g + s.bandIdx g b ∧ fld (t.ld (a + 0x3C) 4) 27 16 = s.hgDone g + s.bandIdx g b ∧
     memKept s t a 0x80) ∧
   (∀ (g : Fin 4) (F : Word) (b : Nat) (s : State), s.launchDue g F.toNat b = true →
     let k := bandKey g F.toNat b
     let u := bandFresh g F.toNat b (bandCommits g F.toNat (if s.hgK g ≤ b then bandDeadline g F.toNat (b - s.hgK g) s else s))
     let w := bandPrepared g F.toNat b u
     let list := slotField (w.desc (w.slotOf g F.toNat)) 0x30
     (∀ h, u.hFrame (u.bandInput g F.toNat) = ((u.frameMap g F.toNat).getD (0, 0)).1 → w.bandCtx g (w.bandIdx g b) = some h →
       (w.ctx h).active = false → (w.partFaces (w.hgPart g)).filter (fun f => w.pageOn (w.facePg f)) ≠ [] →
       w.partRetired (w.hgPart g) = false → w.testing ((w.partFaces (w.hgPart g)).filter fun f => w.pageOn (w.facePg f)) = false →
       Gives (.bandLaunch g F b) s fun t => (t.band k).launched = true ∧ (t.band k).handle = h ∧ (t.run h).list = list ∧
         (t.run h).strict = true ∧ (t.run h).band = some k ∧ t.mem = w.mem ∧ t.regs = w.regs) ∧
     (u.hFrame (u.bandInput g F.toNat) ≠ ((u.frameMap g F.toNat).getD (0, 0)).1 →
       Gives (.bandLaunch g F b) s fun t => (t.band k).launched = false ∧ (t.band k).inputMissing = true ∧ t.mem = u.mem ∧ t.runs = u.runs))

/-- R80: at the pose latch line, the pose ring's choice goes into LATCHED_POSE, or RENDER_POSE where no entry is valid, and the pose flag is
set; with recording off, no byte outside LATCHED_POSE changes (where memory holds no error).
R83, R84: at the deadline of a launched band, the band is complete exactly when its done flag was set before the first cycle of that line;
otherwise, but in replay, its context is stopped (its entry reads FAULTED with code 0). The band keeps the reading of that cycle and the
pose that its block holds. -/
def Obligations.PoseLatchAndDeadline : Prop :=
   (∀ (g : Fin 4) (F : Word) (b : Nat) (s : State), s.latchDue g F.toNat b = true → s.standby = false → noErrors s →
     let k := bandKey g F.toNat b
     let a := s.hgBlock g (s.bandIdx g b)
     let pose := (s.bestPose g).getD (s.ldBytes (a + 0x40) 64)
     Gives (.poseLatch g F b) s fun t => (t.band k).latched = true ∧ (t.band k).poseSeq = leAt pose 0 2 ∧
       ((s.bestPose g).isSome = false → (t.band k).poseNone = true) ∧
       t.gflag (s.hgDrift g) (s.hgPose g + s.bandIdx g b) = true ∧
       (s.rb cagePage 0x600 0 = false → memoryGood s → t.ldBytes (a + 0x80) 64 = pose ∧ memKept s t (a + 0x80) 64)) ∧
   (∀ (g : Fin 4) (F : Word) (b : Nat) (s : State),
     let k := bandKey g F.toNat b
     s.deadlineDue g F.toNat b = true → (s.band k).complete = false →
     Gives (.bandDeadline g F b) s (fun t => (t.band k).due = true ∧ (t.band k).deadline = ((s.band k).edge.map (·.2)).getD s.reading ∧
       (t.band k).complete = ((s.band k).launched && (s.doneBefore g F.toNat b).isSome) ∧
       (t.band k).pose = some (s.ldBytes (s.hgBlock g (s.bandIdx g b) + 0x80) 64)) ∧
     ((s.band k).launched = true → s.doneBefore g F.toNat b = none → s.replay = false → (s.run (s.band k).handle).band = some k →
       s.resident (s.band k).handle = true → (s.ctx (s.band k).handle).active = true →
       Gives (.bandDeadline g F b) s fun t => (t.ctx (s.band k).handle).state = 6 ∧ (t.ctx (s.band k).handle).fault = 0))

/-- R85, R86: when the headframe begins to fetch a band that is not complete, the newest complete source frame with a stored pose stands in
and FALLBACK is raised, or, with none, the band carries FALLBACK_NONE; a complete band is left as it is. The heads of the group that fetch
the band's first line fetch it again as the substitution makes it (with no error in memory nothing else changes).
R88, R89: when the scan of a band's last line on a head of the group ends, its record of 32 bytes goes to the ring at record HG_RECIDX,
which advances; no other byte changes. -/
def Obligations.BandFetchAndRecord : Prop :=
   (∀ (g : Fin 4) (F : Word) (b : Nat) (s : State), s.replay = false →
     let k := bandKey g F.toNat b
     let src := (s.sourceFrame g F.toNat b).filter fun f => (s.band k).pose.isSome && (s.band (bandKey g f b)).pose.isSome
     s.fetchDue g F.toNat b = true → s.eccBad = [] → (s.band k).fallback = false → (s.band k).fbNone = false →
     ((s.band k).complete = false → ∀ f, src = some f →
       Gives (.bandFetch g F b) s fun t => (t.band k).fallback = true ∧ (t.band k).src = f ∧ t.rb cagePage 0x010 8 = true ∧
         (∀ h, { t.head h with next := (s.head h).next } = s.head h) ∧ (∀ j, j ≠ k → t.band j = s.band j) ∧
         { t with regs := s.regs, bands := s.bands, heads := s.heads } = s) ∧
     ((s.band k).complete = false → src = none →
       Gives (.bandFetch g F b) s fun t => (t.band k).fbNone = true ∧ t.rb cagePage 0x010 9 = true ∧
         (∀ j, j ≠ k → t.band j = s.band j) ∧ { t with regs := s.regs, bands := s.bands } = s) ∧
     ((s.band k).complete = true → Gives (.bandFetch g F b) s fun t => t = s)) ∧
   (∀ (g : Fin 4) (F : Word) (b : Nat) (h : Fin 4) (s : State), s.recordDue g F.toNat b h = true → memoryGood s → noErrors s → b < 256 →
     let r := s.rd64 cagePage (hgOff g + 0x28)
     let n := s.rd cagePage (hgOff g + 0x68)
     let a := r / 64 * 64 + n % (256 * 2 ^ (r % 16)) * 32
     let x := s.band (bandKey g F.toNat b)
     Gives (.bandRecordWrite g F b h) s fun t => t.ld a 4 = F.toNat ∧ t.ld (a + 4) 1 = b ∧ fld (t.ld (a + 4) 4) 9 8 = h.val ∧
       fld (t.ld (a + 4) 4) 11 10 = g.val ∧ bit (t.ld (a + 4) 4) 16 = x.complete ∧ bit (t.ld (a + 4) 4) 17 = x.fallback ∧
       bit (t.ld (a + 4) 4) 18 = x.fbNone ∧ bit (t.ld (a + 4) 4) 19 = x.inputMissing ∧
       t.rd cagePage (hgOff g + 0x68) = (n + 1) % 2 ^ 32 ∧ memKept s t a 32 ∧ regsKept s t [regKey cagePage (hgOff g + 0x68)])

/-! ### Adaptation and the reducer -/

/-- R319, R320: a write that sets EN of adaptation is accepted exactly when the group keeps the conditions of R320; refused, EN stays 0 and
AD_CONFIG is recorded; a write that clears EN clears it, and outside replay the undecided step is dropped with the cause DISABLED.
R319: AD_CMD selects state set 0 or 1 as the current one while EN is 0 and no switch is pending, and does nothing otherwise. -/
def Obligations.AdaptationEnableAndSets : Prop :=
   (∀ (id : Ident) (g : Fin 4) (v : Word) (s : State) (r : RegAt), regAt cagePage (adOff g) = some r → mayWrite s id cagePage (adOff g) →
     (s.adEn g = false →
       let n := mergeWrite r.row (s.rd cagePage (adOff g)) (setBit v.toNat 0 true)
       let u := s.wr cagePage (adOff g) (setBit n 0 false)
       (u.adOk g = true →
         Gives (.adEnable id g v) s fun t => t.rd cagePage (adOff g) = n ∧ t.adEn g = true ∧ t.ad g = {} ∧
           (∀ e, e ≠ g.val → t.ad e = s.ad e) ∧ regsKept s t [regKey cagePage (adOff g)] ∧
           { t with regs := s.regs, bus := s.bus, adapt := s.adapt, lateSeen := s.lateSeen, redWait := s.redWait } = s) ∧
       (u.adOk g = false → s.rf cagePage 0x01C 15 0 = 0 →
         Gives (.adEnable id g v) s fun t => t.adEn g = false ∧ t.rf cagePage 0x01C 15 0 = 0x8001 ∧ t.adapt = s.adapt ∧ t.mem = s.mem)) ∧
     (s.adEn g = true →
       Gives (.adDisable id g v) s fun t => t.adEn g = false ∧
         (s.replay = false → t.rf cagePage (adOff g + 0x28) 11 8 = 8 ∧ t.rd cagePage (adOff g + 0x2C) = (s.ad g).step % 2 ^ 32 ∧
           t.rd cagePage (adOff g + 0x34) = (s.rd cagePage (adOff g + 0x34) + 1) % 2 ^ 32 ∧ (t.ad g).step = (s.ad g).step + s.adPeriod g ∧
           (t.ad g).phase = 0))) ∧
   (∀ (id : Ident) (g : Fin 4) (s : State), mayWrite s id cagePage (adOff g + 0x38) →
     let free := !s.adEn g && !s.rb cagePage (hgOff g + 0x4C) 8
     Gives (.useSet0 id g) s (fun t => t.adCur g = (if free then 0 else s.adCur g) ∧ onlyRegs s t [regKey cagePage (adOff g + 0x28)]) ∧
     Gives (.useSet1 id g) s (fun t => t.adCur g = (if free then 1 else s.adCur g) ∧ onlyRegs s t [regKey cagePage (adOff g + 0x28)]))

/-- R298: where the reference of the current step is complete without loss, the step is neither launched nor decided, the old weights are
no longer in use and HOLD is 0, the step is launched: STEP_DONE, RED_REQ and RED_DONE are cleared, and where the context is resident and
idle, its faces are not under self-test and its list passes the checks, UNIT_STEP_ORIGIN and UNIT_SEED of the partition's stope pages take
j × 2^20 and AD_SEED (the pages: log entry 32), and the context starts with them.
R96, R309: from the decision line on, outside replay, a step that was ready before that line and of which no late notice is held arms its
switch: HG_WNEXT takes WEIGHTS of the next set, HG_WAT takes S_j and PENDING is set, where the commit point of S_j has not passed. A step
that was not ready is dropped with its cause: AD_STEP becomes j, and AD_DROPS counts. -/
def Obligations.AdaptStepAndDecision : Prop :=
   (∀ (g : Fin 4) (i : Nat) (s : State), s.refSlot g = some i → s.adEn g = true → s.hgEn g = true → (s.ad g).phase = 0 →
     s.replayStop = false → (s.ad g).edge = none → s.hBit (s.slotHdr g true i) 2 = false → s.oldBusy g = false → s.rb cagePage (adOff g) 1 = false →
     let j := (s.ad g).step
     let u := ((s.setAdFlag g 0 false).setAdFlag g 1 false).setAdFlag g 2 false
     let w := u.stBytes (u.adBlock g) (u.adBlockBytes g j (s.slotHdr g true i))
     let list := slotField (w.desc (w.hgSlot g)) 0x50
     let fs := (w.partFaces (w.hgPart g)).filter fun f => w.pageOn (w.facePg f)
     (∀ h, w.slotHandle (w.rf cagePage (adOff g) 29 24) = some h → (w.ctx h).active = false → (w.ctx h).cls ≤ 1 →
       w.ueIn list (w.listBytes (some h) list) = none → w.testing fs = false →
       w.launchCheck (some h) fs list true = 0 → w.partRetired (w.hgPart g) = false →
       Gives (.adaptStepLaunch g) s fun t => (t.ad g).phase = 1 ∧ (t.ad g).handle = h ∧ (t.run h).list = list ∧ (t.run h).strict = true ∧
         (t.run h).origin = j * 2 ^ 20 ∧ (t.run h).seed = s.rd64 cagePage (adOff g + 0x20) ∧
         (∀ st ∈ s.partStopes (s.hgPart g), t.rd64 (stopePage st) 0x070 = j * 2 ^ 20 % 2 ^ 64 ∧
           t.rd64 (stopePage st) 0x080 = s.rd64 cagePage (adOff g + 0x20)) ∧
         regsKept s t ((s.partStopes (s.hgPart g)).flatMap fun st => [regKey (stopePage st) 0x070, regKey (stopePage st) 0x074,
           regKey (stopePage st) 0x080, regKey (stopePage st) 0x084]) ∧
         t.adFlag g 0 = false ∧ t.adFlag g 1 = false ∧ t.adFlag g 2 = false)) ∧
   (∀ (g : Fin 4) (s : State), s.adEn g = true → s.replay = false → (s.ad g).phase ≠ 2 →
     let j := (s.ad g).step
     ((s.ad g).edge = some true → (s.ad g).mismatch = false → NMap.find s.lateSeen j = none → s.commitPassed g (s.adSwitch g j) = false →
       Gives (.adaptDecision g) s fun t => t.rb cagePage (hgOff g + 0x4C) 8 = true ∧ t.rd cagePage (hgOff g + 0x48) = s.adSwitch g j ∧
         t.rd64 cagePage (hgOff g + 0x40) = s.setWeights (s.adSet g (1 - s.adCur g)) ∧ (t.ad g).phase = 2 ∧ (t.ad g).step = j ∧
         regsKept s t [regKey cagePage (hgOff g + 0x40), regKey cagePage (hgOff g + 0x44), regKey cagePage (hgOff g + 0x48),
           regKey cagePage (hgOff g + 0x4C)] ∧ { t with regs := s.regs, adapt := s.adapt } = s) ∧
     ((s.ad g).edge = some false → s.remoteLate g = false →
       Gives (.adaptDecision g) s fun t => t.rd cagePage (adOff g + 0x2C) = j % 2 ^ 32 ∧
         t.rd cagePage (adOff g + 0x34) = (s.rd cagePage (adOff g + 0x34) + 1) % 2 ^ 32 ∧
         t.rf cagePage (adOff g + 0x28) 11 8 = s.lateCause g ∧ t.adCur g = s.adCur g ∧ (t.ad g).phase = 0 ∧
         (t.ad g).step = j + s.adPeriod g))

/-- R302, R304: on a device with one adapting group (and, for the request, not in column 0 of its wall), the reducer takes the group's
request once RED_REQ is set: RED_REQ is cleared, and the local result is the group's operand. When the total of every run is there, it is
written into BUF of the group, no other byte changes, and RED_DONE is set. -/
def Obligations.Reducer : Prop :=
  ∀ (g : Fin 4) (s : State), s.adGroups = [g.val] →
    (s.red = none → s.redWait = [] → s.adFlag g 1 = true →
      let q := s.redReq g
      let n := q.2.2.2.1 * redWidth q.2.2.1
      q.2.2.1 ≤ 1 → 1 ≤ q.2.2.2.1 → q.2.2.2.1 ≤ 4194304 → s.ueIn q.2.2.2.2 n = none → s.mirror = false →
      fld (s.rd cagePage 0x500) 2 0 ≠ 0 →
      Gives .reduceTake s fun t => t.adFlag g 1 = false ∧
        t.red = some { step := q.1, seq := q.2.1, op := q.2.2.1, elems := q.2.2.2.1, bufs := [q.2.2.2.2],
                       localSum := s.ldBytes q.2.2.2.2 n } ∧
        t.mem = s.mem ∧ { t with gflags := s.gflags, doneWatch := s.doneWatch, red := s.red, redWait := s.redWait } = s) ∧
    (∀ job a, s.red = some job → job.bufs = [a] →
      ((redPieces s.redChunk job.bytes).all fun e => (NMap.find job.total (e.1 + e.2.1)).isSome) = true →
      memoryGood s → noErrors s →
      let bytes := (redPieces s.redChunk job.bytes).flatMap fun e => NMap.get [] job.total (e.1 + e.2.1)
      Gives .reduceDone s fun t => t.red = none ∧ t.ldBytes a bytes.length = bytes ∧ t.adFlag g 2 = true ∧ memKept s t a bytes.length ∧
        t.regs = s.regs)

/-! ### Units, partitions and contexts -/

/-- R43, R44: LAUNCH and ARM on a unit page that takes them leave a launch for the loader with a copy of the page's registers, and change
nothing else; an ARM whose GCOUNT is not later than the current one is discarded and records ARM_PAST.
R17, R18, R44: a command while CTRL.EN is 0 records UNIT_DISABLED; a LAUNCH across partitions records UNIT_SPLIT, one while a group
context runs over the unit is only counted, and one while STATE is neither IDLE nor DONE records UNIT_BUSY. No launch is left. -/
def Obligations.UnitLaunchAndArm : Prop :=
   (∀ (id : Ident) (p : Page) (strict : Bool) (s : State), mayWrite s id p 0x058 → launchable s p →
     Gives (.unitLaunch id p strict) s (fun t =>
       NMap.find t.launches p = some (launchOf s p (s.activeFaces p) none strict id) ∧ onlyLaunch s t p) ∧
     (s.gcount < s.rd64 p 0x068 → Gives (.unitArm id p strict) s (fun t =>
       NMap.find t.launches p = some (launchOf s p (s.activeFaces p) (some (s.rd64 p 0x068)) strict id) ∧ onlyLaunch s t p)) ∧
     (s.rd64 p 0x068 ≤ s.gcount → s.rf p 0x01C 15 0 = 0 → Gives (.unitArm id p strict) s (fun t =>
       t.launches = s.launches ∧ t.rf p 0x01C 15 0 = 0x1004))) ∧
   (∀ (id : Ident) (p : Page) (strict : Bool) (s : State), mayWrite s id p 0x058 → pageUnit p = true → s.rf p 0x01C 15 0 = 0 →
     (s.en p = false →
       Gives (.unitLaunch id p strict) s (fun t => t.launches = s.launches ∧ t.rf p 0x01C 15 0 = 0x1002) ∧
       Gives (.unitArm id p strict) s (fun t => t.launches = s.launches ∧ t.rf p 0x01C 15 0 = 0x1002) ∧
       Gives (.unitDisarm id p) s (fun t => t.launches = s.launches ∧ t.rf p 0x01C 15 0 = 0x1002) ∧
       Gives (.unitStop id p) s (fun t => t.launches = s.launches ∧ t.ctxs = s.ctxs ∧ t.rf p 0x01C 15 0 = 0x1002)) ∧
     (s.en p = true → s.quiet p = false → s.unitFaces p ≠ [] → s.unitRetired p = false →
       (s.groupFault p = 0x1001 →
         Gives (.unitLaunch id p strict) s (fun t => t.launches = s.launches ∧ t.rf p 0x01C 15 0 = 0x1001)) ∧
       (s.groupFault p = 0 → s.activeFaces p ≠ [] → (s.partOf ((unitStopes p).headD 0)).any s.partRetired = false →
         ((s.groupLaunch p false).isSome = true →
           Gives (.unitLaunch id p strict) s (fun t => onlyRegs s t (tallyKeys p))) ∧
         (s.groupLaunch p false = none → (s.unitState p).1 ≠ 0 → (s.unitState p).1 ≠ 4 →
           Gives (.unitLaunch id p strict) s (fun t => t.launches = s.launches ∧ t.rf p 0x01C 15 0 = 0x1003)))))

/-- R43, R44, R45, R330: DISARM cancels an armed launch that has not started; STOP forgets a failed load, and tears down the bound context
of a launch that runs, through the unit's own page or through a group page that a launch over the unit came from (R16); a write of UNIT_BIND
that R45 does not lock binds a slot and forgets a failed load. -/
def Obligations.UnitStopAndBind : Prop :=
  ∀ (id : Ident) (p : Page) (v : Word) (s : State), pageUnit p = true → NMap.rising s.launches = true →
    (mayWrite s id p 0x058 → s.en p = true → s.unitFaces p ≠ [] → s.unitRetired p = false →
      (∀ l, NMap.find s.launches p = some l → l.waiting = true → l.arm.isSome = true →
        Gives (.unitDisarm id p) s fun t => NMap.find t.launches p = none ∧ onlyLaunch s t p) ∧
      (s.groupLaunch p true = none → (s.failedLoad p).isSome = true →
        Gives (.unitStop id p) s fun t => t.failedLoad p = none ∧
          (∀ k l, NMap.find s.launches k = some l → l.state ≠ 5 ∨ showsOn p k = false → NMap.find t.launches k = some l) ∧
          { t with bus := s.bus, launches := s.launches } = s) ∧
      (∀ l h, s.groupLaunch p true = none → s.failedLoad p = none → NMap.find s.launches p = some l → l.state = 3 →
        s.boundHandle p = some h → s.resident h = true → (s.ctx h).state ≠ 0 → (s.ctx h).state ≠ 6 →
        Gives (.unitStop id p) s fun t => (t.ctx h).state = 6 ∧ (t.ctx h).fault = 0 ∧ t.launches = s.launches) ∧
      (∀ site l, s.groupLaunch p true = some (site, l) → l.state = 3 → s.resident l.handle = true → (s.ctx l.handle).state ≠ 0 →
        (s.ctx l.handle).state ≠ 6 →
        Gives (.unitStop id p) s fun t => (t.ctx l.handle).state = 6 ∧ (t.ctx l.handle).fault = 0 ∧ t.launches = s.launches)) ∧
    (mayWrite s id p 0x054 → s.unitLocked p = false →
      Gives (.unitBindWrite id p v) s fun t => t.rf p 0x054 5 0 = fld v.toNat 5 0 ∧ t.rb p 0x054 8 = bit v.toNat 8 ∧
        NMap.find t.launches p = none ∧ t.failedLoad p = none ∧
        (∀ k l, k ≠ p.val → NMap.find s.launches k = some l → l.state ≠ 5 ∨ showsOn p k = false → NMap.find t.launches k = some l) ∧
        regsKept s t [regKey p 0x054] ∧ { t with regs := s.regs, bus := s.bus, launches := s.launches } = s) ∧
    (mayWrite s id p 0x054 → s.unitLocked p = true → Gives (.unitBindWrite id p v) s fun t => onlyRegs s t [])

/-- R43, R236, R360: when the loader finds no fault, a LAUNCH starts its context with the launch's list, seed and step origin and an ARM
becomes armed; when a check fails, the launch has failed with the loader error, which the unit page reads beside FAULTED; an armed launch
starts at its GCOUNT.
R210: a face is finished once STOP has issued and all its operations have completed; the context is DONE when every member face is
finished. -/
def Obligations.LoadStartAndFinish : Prop :=
   (∀ (p : Page) (h : Nat) (l : Launch) (s : State), NMap.rising s.launches = true → NMap.find s.launches p = some l → l.bound = true →
     l.handle = h → s.resident h = true → (s.ctx h).state = 1 ∨ (s.ctx h).state = 5 → (s.ctx h).cls ≤ 1 →
     (l.state = 1 → s.loadBad (some h) l.faces l.list = none →
       (s.launchCheck (some h) l.faces l.list l.strict = 0 → l.arm = none →
         Gives (.loadComplete (.page p)) s fun t => NMap.find t.launches p = some { l with state := 3 } ∧
           (t.ctx h).state = 2 ∧ (t.run h).list = l.list ∧ (t.run h).seed = l.seed ∧ (t.run h).origin = l.origin ∧
           (t.run h).faces = l.faces ∧ t.regs = s.regs) ∧
       (∀ a, s.launchCheck (some h) l.faces l.list l.strict = 0 → l.arm = some a →
         Gives (.loadComplete (.page p)) s fun t => NMap.find t.launches p = some { l with state := 2 } ∧
           { t with launches := s.launches } = s) ∧
       (s.launchCheck (some h) l.faces l.list l.strict ≠ 0 → p.val ≠ sumpPage →
         Gives (.loadComplete (.page p)) s fun t =>
           NMap.find t.launches p = some { l with state := 5, err := s.launchCheck (some h) l.faces l.list l.strict } ∧
           (p.val ≠ devPage → t.ownState p = (5, s.launchCheck (some h) l.faces l.list l.strict)) ∧
           t.ctxs = s.ctxs ∧ (s.rf p 0x01C 15 0 = 0 → t.rf p 0x01C 15 0 = 0x5002))) ∧
     (∀ a, l.state = 2 → l.arm = some a → l.jumped = none → a ≤ s.gcount →
       Gives (.armedStart (.page p)) s fun t => NMap.find t.launches p = some { l with state := 3 } ∧ (t.ctx h).state = 2 ∧
         (t.run h).list = l.list ∧ (t.run h).seed = l.seed ∧ (t.run h).origin = l.origin ∧ (t.run h).faces = l.faces ∧ t.regs = s.regs)) ∧
   (∀ (f : Face) (h : Nat) (s : State), s.faceCtx f = some h → s.resident h = true → (s.face f).stopped = true → (s.face f).issued = [] →
     (s.face f).finished = false →
     let u := s.setFace f { s.face f with finished := true }
     (((s.run h).faces.all fun g => (u.face g).finished) = false → Gives (.faceFinished f) s fun t => t = u) ∧
     (((s.run h).faces.all fun g => (u.face g).finished) = true →
       Gives (.faceFinished f) s fun t => (t.face f).finished = true ∧ (t.ctx h).state = 5 ∧
         ((s.run h).site < 0x10000 → t.rb (s.run h).site 0x010 1 = true)))

/-- R326: PART_CMD LAUNCH and ARM on a VALID partition leave a launch for its faces with the device page's registers; DISARM cancels it
while it waits; STOP tears down the bound context of the partition.
R323, R324, R349: a PART_CFG write in the boot window that keeps the alignment and shares no stope takes effect; any other is discarded.
WIN_CMD WRITE puts a listed staged window into the table in the boot window; READ puts the window into staging. -/
def Obligations.PartitionsAndWindows : Prop :=
   (∀ (id : Ident) (q : Fin 32) (strict : Bool) (s : State), mayWrite s id devPage 0x1A0 →
     let site := partSite q (s.rf devPage 0x054 5 0)
     let fs := (s.partFaces q).filter fun f => s.pageOn (s.facePg f)
     (partLaunchable s q →
       Gives (.partLaunch id q strict) s (fun t =>
         NMap.find t.launches site = some (launchOf s devPage fs none strict id) ∧ onlyLaunch s t site) ∧
       (s.gcount < s.rd64 devPage 0x068 → Gives (.partArm id q strict) s (fun t =>
         NMap.find t.launches site = some (launchOf s devPage fs (some (s.rd64 devPage 0x068)) strict id) ∧ onlyLaunch s t site))) ∧
     (∀ l, s.en devPage = true → s.partStopes q ≠ [] → NMap.rising s.launches = true → NMap.find s.launches site = some l →
       (l.waiting = true → l.arm.isSome = true →
         Gives (.partDisarm id q) s fun t => NMap.find t.launches site = none ∧ onlyLaunch s t site) ∧
       (∀ h, l.state = 3 → s.boundHandle devPage = some h → s.resident h = true → (s.ctx h).part = q.val → (s.ctx h).state ≠ 0 →
         (s.ctx h).state ≠ 6 → Gives (.partStop id q) s fun t => (t.ctx h).state = 6 ∧ (t.ctx h).fault = 0)) ∧
     (s.partStopes q = [] → s.rf devPage 0x01C 15 0 = 0 →
       Gives (.partLaunch id q strict) s fun t => t.launches = s.launches ∧ t.rf devPage 0x01C 15 0 = 0x1002)) ∧
   (∀ (id : Ident) (q : Fin 32) (v : Word) (s : State) (r : RegAt), regAt devPage (0x100 + 4 * q) = some r →
     let n := mergeWrite r.row (s.rd devPage (0x100 + 4 * q)) v.toNat
     let b := s.rd64 devPage 0x188
     let l := s.rd64 devPage 0x190
     let k := s.rf devPage 0x180 7 0
     (mayWrite s id devPage (0x100 + 4 * q) →
       Gives (.partCfgWrite id q v) s fun t =>
         t.rd devPage (0x100 + 4 * q) = (if s.boot.window && s.partCfgOk q n then n else s.rd devPage (0x100 + 4 * q)) ∧
         onlyRegs s t [regKey devPage (0x100 + 4 * q)]) ∧
     (mayWrite s id devPage 0x184 →
       Gives (.winWrite id) s fun t =>
         t.window k = (if s.boot.window ∧ b ≤ l ∧ areaAssigned b (l + 0xFFFF) ∧ ¬ reachesFirmware b l
           then ⟨b, l, s.rf devPage 0x198 3 0⟩ else s.window k) ∧
         (∀ j, j ≠ k → t.window j = s.window j) ∧ { t with bus := s.bus, windows := s.windows } = s) ∧
     (mayWrite s id devPage 0x184 → (s.window k).base < 2 ^ 64 → (s.window k).limit < 2 ^ 64 → (s.window k).attr < 2 ^ 32 →
       Gives (.winRead id) s fun t => t.rd64 devPage 0x188 = (s.window k).base ∧ t.rd64 devPage 0x190 = (s.window k).limit ∧
         t.rd devPage 0x198 = (s.window k).attr ∧
         onlyRegs s t [regKey devPage 0x188, regKey devPage 0x18C, regKey devPage 0x190, regKey devPage 0x194, regKey devPage 0x198]))

/-- R329: a context command acts on the handle in CTX_IDX when no command is in progress, and sets BUSY: READ copies the entry into the
staging words, CREATE makes the staged entry resident, IDLE, in the lowest free slot, MODIFY rewrites its five fields, SWAP_OUT moves the
entry of a resident context to the handle table, SWAP_IN makes a swapped one resident in the lowest free slot, DESTROY leaves it FREE (where
memory holds no error; a swap of a READY context and a SWAP_IN where the partition has work to take up are stated for a partition that runs
a context). A command that fails changes nothing but CTX_STAT.BUSY; while a command is in progress a further one is discarded with ERR 5;
the end of a command clears BUSY and reports ERR. -/
def Obligations.ContextCommands : Prop :=
  (∀ (id : Ident) (s : State), mayWrite s id devPage 0x1A8 → s.ctxCmd = none → s.quiet devPage = false → noErrors s → memoryGood s →
    NMap.rising s.ctxs = true →
    let h := s.rf devPage 0x1A4 9 0
    let c := s.ctx h
    let n := s.stagedCtx
    let m := { c with slice := n.slice, wmask := n.wmask, gsave := n.gsave, glen := n.glen, pool := n.pool }
    Gives (.ctxRead id) s (fun t =>
      (∀ j < 16, t.rd devPage (0x1C0 + 4 * j) = nth 0 (c.words h (s.resident h)) j % 2 ^ 32) ∧ t.rb devPage 0x1AC 0 = true ∧
      onlyRegs { s with ctxCmd := some 0 } t (regKey devPage 0x1AC :: (List.range 16).map fun j => regKey devPage (0x1C0 + 4 * j))) ∧
    (c.state = 0 → s.slotFree n.part = true → s.entryOk n = true →
      Gives (.ctxCreate id) s (fun t => t.resident h = true ∧
        t.ctx h = { n with state := 1, fault := 0, clip := 0, elem := 0, blockedAt := 0, slot := s.freeSlot.getD 0 } ∧
        (∀ k, k ≠ h → NMap.find t.ctxs k = NMap.find s.ctxs k) ∧ t.rf devPage 0x1AC 21 16 = s.freeSlot.getD 0 ∧ t.rb devPage 0x1AC 0 = true ∧
        t.ctxCmd = some 0 ∧ t.mem = s.mem ∧ regsKept s t [regKey devPage 0x1AC])) ∧
    (c.state = 1 ∨ c.state = 5 → sliceOk c.cls n.slice = true → s.wmaskOk c.part n.wmask = true →
      Gives (.ctxModify id) s (fun t => t.rb devPage 0x1AC 0 = true ∧
        (s.resident h = true → t.ctx h = m ∧ onlyRegs { s with ctxs := t.ctxs, ctxCmd := some 0 } t [regKey devPage 0x1AC] ∧
          ∀ k, k ≠ h → NMap.find t.ctxs k = NMap.find s.ctxs k) ∧
        (s.resident h = false → t.ldBytes (s.handleAddr h) 64 = m.bytes h false ∧ memKept s t (s.handleAddr h) 64 ∧
          onlyRegs { s with mem := t.mem, ctxCmd := some 0 } t [regKey devPage 0x1AC]))) ∧
    (s.resident h = true → c.cls = 0 → s.inSwitch h = false →
      c.state = 1 ∨ c.state = 4 ∨ c.state = 5 ∨ (c.state = 2 ∧ (s.part c.part).running.isSome = true) →
      Gives (.ctxSwapOut id) s (fun t => t.resident h = false ∧ (∀ k, k ≠ h → NMap.find t.ctxs k = NMap.find s.ctxs k) ∧
        t.ldBytes (s.handleAddr h) 64 = c.bytes h false ∧ memKept s t (s.handleAddr h) 64 ∧ t.ctxCmd = some 0)) ∧
    (s.resident h = false → c.state ≠ 0 → s.slotFree c.part = true →
      (s.part c.part).running.isSome = true ∨ (∀ g ∈ (s.part c.part).ready, g = h) →
      Gives (.ctxSwapIn id) s (fun t => t.resident h = true ∧ t.ctx h = { c with slot := s.freeSlot.getD 0 } ∧
        (∀ k, k ≠ h → NMap.find t.ctxs k = NMap.find s.ctxs k) ∧ t.mem = s.mem ∧ t.ctxCmd = some 0)) ∧
    (c.state = 1 ∨ c.state = 5 ∨ c.state = 6 →
      Gives (.ctxDestroy id) s (fun t => t.resident h = false ∧ (∀ k, k ≠ h → NMap.find t.ctxs k = NMap.find s.ctxs k) ∧
        (t.ctx h).state = 0 ∧ memKept s t (s.handleAddr h) 64 ∧ t.ctxCmd = some 0)) ∧
    (∀ e, e ≠ 0 →
      (s.ctxErr 2 h = e → Gives (.ctxCreate id) s fun t => onlyRegs { s with ctxCmd := some e } t [regKey devPage 0x1AC]) ∧
      (s.ctxErr 3 h = e → Gives (.ctxModify id) s fun t => onlyRegs { s with ctxCmd := some e } t [regKey devPage 0x1AC]) ∧
      (s.ctxErr 4 h = e → Gives (.ctxSwapOut id) s fun t => onlyRegs { s with ctxCmd := some e } t [regKey devPage 0x1AC]) ∧
      (s.ctxErr 5 h = e → Gives (.ctxSwapIn id) s fun t => onlyRegs { s with ctxCmd := some e } t [regKey devPage 0x1AC]) ∧
      (s.ctxErr 6 h = e → Gives (.ctxDestroy id) s fun t => onlyRegs { s with ctxCmd := some e } t [regKey devPage 0x1AC]))) ∧
  (∀ (id : Ident) (s : State), mayWrite s id devPage 0x1A8 → s.ctxCmd.isSome = true → s.quiet devPage = false →
    let busy (t : State) : Prop := t.rf devPage 0x1AC 15 8 = 5 ∧ onlyRegs s t [regKey devPage 0x1AC]
    Gives (.ctxRead id) s busy ∧ Gives (.ctxCreate id) s busy ∧ Gives (.ctxModify id) s busy ∧ Gives (.ctxSwapOut id) s busy ∧
    Gives (.ctxSwapIn id) s busy ∧ Gives (.ctxDestroy id) s busy) ∧
  (∀ (s : State) (e : Nat), s.ctxCmd = some e → e < 256 →
    Gives .ctxCmdDone s fun t => t.ctxCmd = none ∧ t.rb devPage 0x1AC 0 = false ∧ t.rf devPage 0x1AC 15 8 = e ∧
      regsKept s t [regKey devPage 0x1AC] ∧ { t with regs := s.regs, ctxCmd := s.ctxCmd } = s)

/-- R332, R334: at the end of a slice the partition switches to the next READY ASYNC context, or the running one goes on; a running context
whose unfinished faces all hold on flags or barriers becomes BLOCKED with its wait set and is switched out; it becomes READY when a flag of
its wait set reads its awaited value.
R334: a BLOCKED context whose switch-out is over becomes READY when any flag of its wait set reads its awaited value, and stays BLOCKED
otherwise. -/
def Obligations.ContextsTakeTurns : Prop :=
   (∀ (q : Fin 32) (h : Handle) (s : State), s.runningAsync q = some h.val → s.resident h = true →
     (∀ g, (s.tally devPage 0x14).nextAsync q = some g →
       Gives (.sliceEnd q) s fun t => (t.part q).switching = true ∧ (t.part q).outgoing = some h.val ∧ (t.part q).incoming = some g ∧
         regsKept s t (tallyKeys devPage) ∧ { t with regs := s.regs, parts := s.parts } = s) ∧
     ((s.tally devPage 0x14).nextAsync q = none → Gives (.sliceEnd q) s fun t => onlyRegs s t (tallyKeys devPage)) ∧
     (∀ ws, s.waitSet h = some ws →
       Gives (.ctxBlocked q) s fun t => (t.ctx h).state = 4 ∧ (t.run h).waits = ws ∧ (t.part q).switching = true ∧
         (t.part q).outgoing = some h.val ∧ (t.part q).outBlocked = true ∧ t.mem = s.mem ∧ t.faces = s.faces)) ∧
   (∀ (h : Handle) (s : State), s.resident h = true → (s.ctx h).state = 4 → (s.part (s.ctx h).part).outgoing ≠ some h.val →
     ((s.run h).waits.any s.waitHolds = true → Gives (.ctxUnblock h) s fun t => (t.ctx h).state = 2 ∧ t.faces = s.faces ∧ t.runs = s.runs) ∧
     ((s.run h).waits.any s.waitHolds = false → Gives (.ctxUnblock h) s fun t => t = s))

/-- R337: a switch with no outgoing context, to a context that has never run, clears the store of its faces, their accumulators and their
configurations, and leaves the context RUNNING from its launch. -/
def Obligations.SwitchCompletes : Prop :=
  ∀ (q : Fin 32) (h : Nat) (s : State), (s.part q).switching = true → (s.part q).held = false → (s.part q).outgoing = none →
    (s.part q).incoming = some h → s.resident h = true → (s.run h).saved = false → (s.run h).faces.Nodup →
    (∀ f ∈ (s.run h).faces, f < 512) → memoryGood s →
    Gives (.contextSwitchComplete q) s fun t => (t.part q).switching = false ∧ (t.part q).running = some h ∧ (t.ctx h).state = 3 ∧
      (∀ f ∈ (s.run h).faces, (t.face f).pc = 0 ∧ (t.face f).acc = [] ∧ (t.face f).step = (s.run h).origin ∧ (t.face f).lflags = 0 ∧
        (t.face f).cfgs = List.replicate 4 {} ∧ (t.face f).issued = [] ∧ ∀ o < fsSize, Memory.read t.mem (fsAddr f o) = 0) ∧
      (∀ f, f ∉ (s.run h).faces → t.face f = s.face f) ∧
      (∀ a, (∀ f ∈ (s.run h).faces, a < fsAddr f 0 ∨ fsAddr f fsSize ≤ a) → Memory.read t.mem a = Memory.read s.mem a)

/-- R345: a batch request joins the queue of the device unless it is refused; a refused one reports its ERR; one beyond 32 ends in bus error
FULL. -/
def Obligations.BatchRequests : Prop :=
  ∀ (id : Ident) (s : State), mayWrite s id devPage 0x1B8 →
    (s.batchReqs.length < 32 → batchRefusal s (batchStaged s) = 0 →
      Gives (.batchSubmit id) s fun t => t.batchReqs = s.batchReqs ++ [batchStaged s] ∧
        t.rd devPage 0x1BC = s.batchReqs.length + 1 ∧ regsKept s t [regKey devPage 0x1BC] ∧
        { t with regs := s.regs, bus := s.bus, batchReqs := s.batchReqs } = s) ∧
    (s.batchReqs.length < 32 → batchRefusal s (batchStaged s) ≠ 0 →
      Gives (.batchSubmit id) s fun t => t.rf devPage 0x1BC 15 8 = batchRefusal s (batchStaged s) ∧
        onlyRegs s t [regKey devPage 0x1BC]) ∧
    (32 ≤ s.batchReqs.length →
      Gives (.batchSubmit id) s fun t => busEnded s t id devPage 4)

/-! ### Words of a work list -/

/-- R196, R204-R210, R233, R235: NOP, LISTHDR, LIVE and EXTERN advance the list; STOP ends it; LOOP, ENDLOOP and BRANCH set the counter,
the loop start and the position; STEP adds 1 to the step counter; XSET and XADD write an index register. Nothing else changes.
A reserved trap opcode tears its context down with code 0x5001. -/
def Obligations.ControlWords : Prop :=
  ∀ (f : Face) (h w : Nat) (s : State), issues s f h w →
    let x := s.face f
    let k := fld w 25 24
    (wOp w = 0x00 → Gives (.nop f) s fun t => went s t f w (x.pc + 1) id ∧ onlyFaces s t) ∧
    (wOp w = 0x0F → Gives (.listhdr f) s fun t => went s t f w (x.pc + 1) id ∧ onlyFaces s t) ∧
    (wOp w = 0x08 → Gives (.live f) s fun t => went s t f w (x.pc + 1) id ∧ onlyFaces s t) ∧
    (wOp w = 0x09 → Gives (.externDir f) s fun t => went s t f w (x.pc + 1) id ∧ onlyFaces s t) ∧
    (wOp w = 0x01 → Gives (.stop f) s fun t => went s t f w x.pc (fun y => { y with stopped := true }) ∧ onlyFaces s t) ∧
    (wOp w = 0x02 → loopCount x.xs w ≤ 65535 → Gives (.loop f) s fun t => onlyFaces s t ∧
      (loopCount x.xs w ≠ 0 → went s t f w (x.pc + 1) fun y =>
        { y with lcs := setNth y.lcs k (loopCount x.xs w), lstart := setNth y.lstart k (x.pc + 1) }) ∧
      (loopCount x.xs w = 0 → went s t f w (s.afterEndloop (s.run h).list (s.run h).words (x.pc + 1) 0) fun y =>
        { y with lcs := setNth y.lcs k 0 })) ∧
    (wOp w = 0x03 → Gives (.endloop f) s fun t => onlyFaces s t ∧
      (nth 0 x.lcs k = 1 → went s t f w (x.pc + 1) fun y => { y with lcs := setNth y.lcs k 0 }) ∧
      (1 < nth 0 x.lcs k → nth 0 x.lcs k < 65536 → went s t f w (nth 0 x.lstart k) fun y => { y with lcs := setNth y.lcs k (nth 0 x.lcs k - 1) }) ∧
      (nth 0 x.lcs k = 0 → went s t f w (nth 0 x.lstart k) fun y => { y with lcs := setNth y.lcs k 65535 })) ∧
    (wOp w = 0x04 → Gives (.branch f) s fun t => onlyFaces s t ∧
      went s t f w (if branchTaken x w then ((x.pc : Int) + sext 20 (fld w 51 32)).toNat else x.pc + 1) id) ∧
    (wOp w = 0x05 → ((s.ctx h).batch = false →
        Gives (.step f) s fun t => went s t f w (x.pc + 1) (fun y => { y with step := (y.step + 1) % 2 ^ 64 }) ∧ onlyFaces s t) ∧
      ((s.ctx h).batch = true → (∃ g ∈ (s.run h).faces, g ≠ f.val ∧ (s.face g).hold ≠ .step) →
        Gives (.step f) s fun t =>
          went s t f w (x.pc + 1) (fun y => { y with step := (y.step + 1) % 2 ^ 64, hold := .step }) ∧ onlyFaces s t)) ∧
    (0xF0 ≤ wOp w → s.resident h = true → (s.ctx h).state ≠ 0 → (s.ctx h).state ≠ 6 →
      Gives (.illegalOpcode f) s fun t => (t.ctx h).state = 6 ∧ (t.ctx h).fault = 0x5001) ∧
    (wOp w = 0x06 → Gives (.xset f) s fun t =>
      went s t f w (x.pc + 1) (fun y => { y with xs := setNth y.xs (fld w 26 24) (fld w 63 32) }) ∧ onlyFaces s t) ∧
    (wOp w = 0x07 → Gives (.xadd f) s fun t =>
      went s t f w (x.pc + 1) (fun y =>
        { y with xs := setNth y.xs (fld w 26 24) ((xreg y.xs (fld w 26 24) + fld w 63 32) % 2 ^ 32) }) ∧ onlyFaces s t)

/-- R200, R204: a word that held on its W condition does, once its COND flag reads 1, what the row of its opcode does. -/
def Obligations.ReleasedWordIssues : Prop :=
  ∀ (f : Face) (h w : Nat) (c : Instr) (s : State), issues s f h w → wW w = true → issueRow f (wOp w) = some c →
    Gives (.condRelease f) s fun t => exec c s = .next t

/-- R209, R212-R214, R230: XLD, WAIT and BAR hold their face and nothing else; their ends write the index register, clear a consumed
local flag, and let all faces of a barrier go together; a SIG sets or clears its one flag, at issue with EARLY and otherwise when it is
the oldest record; TIME.READ writes the time-unit reading. -/
def Obligations.FlagsBarriersAndLoads : Prop :=
  ∀ (f : Face) (h : Handle) (w : Nat) (b : Fin 16) (s : State),
    let x := s.face f
    let r := sigFlag x.xs w
    let flags (t : State) (r : FlagRef) (v : Bool) : Prop := t.flag f r = v ∧
      (∀ q : FlagRef, q.listed = true → q.space ≠ r.space ∨ q.index ≠ r.index → t.flag f q = s.flag f q) ∧
      { t with faces := s.faces, sflags := s.sflags, gflags := s.gflags, doneWatch := s.doneWatch } = s
    (issues s f h w →
      (wOp w = 0x0A → hazard x w [] = false → fsOk x.xs w 27 4 4 = true →
        Gives (.xld f) s fun t => t = s.setFace f { x with hold := .xld }) ∧
      (wOp w = 0x11 → r.listed = true → Gives (.wait f) s fun t => t = s.setFace f { x with hold := .wait }) ∧
      (wOp w = 0x12 → Gives (.bar f) s fun t => t = s.setFace f { x with hold := .bar (fld w 27 24) }) ∧
      (wOp w = 0x10 → r.listed = true → s.flagOutside h r = false →
        (bit w 42 = true → Gives (.sig f) s fun t => flags t r (!bit w 41) ∧ (t.face f).pc = (if x.redo = [] then x.pc + 1 else x.pc)) ∧
        (bit w 42 = false → Gives (.sig f) s fun t => entered s t f w [] ∧ onlyFaces s t)) ∧
      (wOp w = 0xA1 → hazard x w [] = false → fsOk x.xs w 24 8 8 = true → memoryGood s → noErrors s →
        let a := fsAddr f (fsEff x.xs w 24)
        Gives (.timeRead f) s fun t => t.ld a 8 = s.reading ∧ memKept s t a 8 ∧ went s t f w (x.pc + 1) id ∧
          { t with faces := s.faces, mem := s.mem } = s)) ∧
    (s.faceCtx f = some h.val → s.nextWord f h = w →
      (x.hold = .xld → s.ueIn (fsAddr f (fsEff x.xs w 27)) 4 = none → s.eccOne = [] →
        Gives (.xldComplete f) s fun t => went s t f w (x.pc + 1) (fun y =>
          { y with hold := .none,
                   xs := setNth y.xs (fld w 26 24) (fld (s.ld (fsAddr f (fsEff y.xs w 27)) 4) (fld w 52 48 + fld w 57 53) (fld w 52 48)) }) ∧
          onlyFaces s t) ∧
      (x.hold = .wait → s.flag f r = !bit w 41 →
        (bit w 42 = false → Gives (.waitSatisfied f) s fun t => went s t f w (x.pc + 1) (fun y => { y with hold := .none }) ∧ onlyFaces s t) ∧
        (bit w 42 = true → r.space = 0 → Gives (.waitSatisfied f) s fun t =>
          went s t f w (x.pc + 1) (fun y => { y with hold := .none, lflags := setBit y.lflags r.index false }) ∧ onlyFaces s t))) ∧
    (∀ (o : Op) (l : List Op), s.faceCtx f = some h.val → x.issued = o :: l → wOp o.word = 0x10 → (sigFlag o.xs o.word).listed = true →
      Gives (.sigAct f) s fun t => flags t (sigFlag o.xs o.word) (!bit o.word 41) ∧ (t.face f).pc = x.pc) ∧
    ((s.run h).faces ≠ [] → (s.run h).faces.Nodup → (∀ g ∈ (s.run h).faces, s.faceCtx g = some h.val ∧ (s.face g).hold = .bar b) →
      Gives (.barrierRelease h b) s fun t => onlyFaces s t ∧ (∀ g, g ∉ (s.run h).faces → t.face g = s.face g) ∧
        ∀ g ∈ (s.run h).faces, (t.face g).hold = .none ∧ (t.face g).pc = (if (s.face g).redo = [] then (s.face g).pc + 1 else (s.face g).pc) ∧
          (t.face g).bars = setNth (s.face g).bars b ((nth 0 (s.face g).bars b + 1) % 256) ∧ (t.face g).xs = (s.face g).xs)
/-! ### Matrix, lattice, quantisation and copy words -/

/-- R114, R118, R120, R217, R226, R237, R272, R273: matrix operations, drains and tap words that no hazard and no bound holds enter the
matrix queue or act: ACC.CLR sets the elements of the named banks to 0, at once in an empty queue and behind the entries of another one,
TAP.SET takes its checked descriptor, TAP.POS its origin.
R114, R117, R120, R121: a matrix operation that completes adds its steps into its face's accumulators; a drain that completes writes
its bank, scaled, over exactly its output, and leaves the accumulators; the banks of the ACC.CLR words that come to the head are cleared
then, and those of no other word. -/
def Obligations.MatrixWords : Prop :=
   (∀ (f : Face) (h w : Nat) (s : State), issues s f h w → matrixQueue (s.face f) < 8 →
     let x := s.face f
     let k := fld w 24 24
     (hazard x w [] = false →
       (mmaCheck x.xs w [] = 0 →
         (wOp w = 0x20 → Gives (.mmaI8 f) s fun t => entered s t f w [] ∧ onlyFaces s t) ∧
         (wOp w = 0x21 → Gives (.mmaG4 f) s fun t => entered s t f w [] ∧ onlyFaces s t) ∧
         (wOp w = 0x22 → Gives (.mmaG4p f) s fun t => entered s t f w [] ∧ onlyFaces s t)) ∧
       (wOp w = 0x28 → Gives (.accClr f) s fun t => went s t f w (x.pc + 1) id ∧ onlyFaces s t ∧
         (matrixQueue x = 0 → ∀ e, NMap.get 0 (t.face f).acc e = if bit (fld w 25 24) (e / 256) then 0 else NMap.get 0 x.acc e) ∧
         (queueSettled x → 0 < matrixQueue x → entered s t f w [])) ∧
       (wOp w = 0x29 → drainCheck x.xs w = 0 → Gives (.accDrain f) s fun t => entered s t f w [] ∧ onlyFaces s t) ∧
       (wOp w = 0x80 → fsOk x.xs w 25 64 64 = true → s.ueIn (fsAddr f (fsEff x.xs w 25)) 64 = none →
         tapOk (s.ldBytes (fsAddr f (fsEff x.xs w 25)) 64) = true → x.taps.length = 2 →
         Gives (.tapSet f) s fun t => went s t f w (x.pc + 1) (fun y => { y with taps := (t.face f).taps }) ∧ onlyFaces s t ∧
           nth {} (t.face f).taps k = { nth {} x.taps k with desc := some (s.ldBytes (fsAddr f (fsEff x.xs w 25)) 64), fresh := true } ∧
           nth {} (t.face f).taps (1 - k) = nth {} (tapsAfter x.taps w) (1 - k))) ∧
     (wOp w = 0x81 → x.taps.length = 2 →
       Gives (.tapPos f) s fun t => went s t f w (x.pc + 1) (fun y => { y with taps := (t.face f).taps }) ∧ onlyFaces s t ∧
         nth {} (t.face f).taps k = { nth {} x.taps k with
           ox := (fld w 40 25 + xreg x.xs (fld w 59 57)) % 65536, oy := (fld w 56 41 + xreg x.xs (fld w 62 60)) % 65536, fresh := true } ∧
         nth {} (t.face f).taps (1 - k) = nth {} (tapsAfter x.taps w) (1 - k)) ∧
     (∀ d, tapData x (fld w 53 53) = some d → hazard x w d = false → mmaCheck x.xs w d = 0 →
       (wOp w = 0x82 → Gives (.tapMmaI8 f) s fun t => entered s t f w d ∧ onlyFaces s t) ∧
       (wOp w = 0x83 → Gives (.tapMmaG4p f) s fun t => entered s t f w d ∧ onlyFaces s t))) ∧
   (∀ (f : Face) (h i : Nat) (o : Op) (s : State),
     let x := s.face f
     (completes s f h i o isMatrixOp →
       Gives (.matrixOpReady f) s fun t => accAfter s t f i (mmaAcc s f o.word o.xs o.data x.acc).acc ∧ ended s t f i ∧
         (t.face f).cfgs = x.cfgs ∧ regsKept s t (pinKeys (s.facePg f)) ∧ { t with regs := s.regs, faces := s.faces } = s) ∧
     (completes s f h i o (· == 0x29) → drainInvalid s f o.word o.xs = false → memoryGood s →
       let a := fsAddr f (fsEff o.xs o.word 28)
       Gives (.drainComplete f) s fun t =>
         t.ldBytes a (256 * drainWidth o.word) =
           drainBytes (fld o.word 27 26) (fld o.word 24 24) (s.fsBytes f (fsEff o.xs o.word 49) 128) x.acc ∧
         memKept s t a (256 * drainWidth o.word) ∧ ended s t f i ∧ accAfter s t f i x.acc ∧ (t.face f).cfgs = x.cfgs ∧
         { t with mem := s.mem, faces := s.faces } = s)) ∧
   (∀ (x : FaceSt) (l : List Op), queueSettled (x.withIssued l)) ∧
   (∀ (x : FaceSt) (i : Nat), queueSettled x → (x.issued[i]?.any fun o => inMatrixQueue (wOp o.word)) = false → clearsNext x i = 0)

/-- R112, R116: an unpaired matrix operation of one step that does not clear adds to each element of its bank the exact sum of its
products, holding at the bounds, and leaves the other bank. -/
def Obligations.MatrixStepArithmetic : Prop :=
  ∀ (s : State) (f w : Nat) (xs : List Nat) (d : List Byte) (acc : NMap Int), NMap.rising acc = true → isPaired w = false →
    bit w 24 = false → mmaCount w = 1 →
    let r := mmaAcc s f w xs d acc
    (∀ i < 16, ∀ j < 16, NMap.get 0 r.acc (accKey (fld w 25 25) i j) = accSum (NMap.get 0 acc (accKey (fld w 25 25) i j))
      (((List.range (mmaKs w)).map fun k => operandA s f w (mmaA xs w 0) i k * operandB s f w xs d (tapHolds s f w d) 0 k j).foldl (· + ·) 0)) ∧
    (∀ e, e / 256 ≠ fld w 25 25 → NMap.get 0 r.acc e = NMap.get 0 acc e)

/-- R130, R139, R140, R170, R173, R188, R219, R222, R229: while the lattice runs nothing and no hazard holds the word, CFG.LOAD, LAT.RUN
with a valid configuration, the quantisation words with a valid control record, QM.ESC and RNG start; CFG.SEL selects a valid slot.
R123, R130, R139, R140, R170, R179, R180, R229: the ends of the lattice words: a checked configuration stands in its slot; a LAT.RUN
writes nothing but the elements of its output streams; QM.MEASURE writes its records, row by row; QM.CONVERT and QM.REBLOCK add their counts to the
context; QM.ESC merges its entries into its bank; RNG writes its elements. -/
def Obligations.LatticeWords : Prop :=
   (∀ (f : Face) (h w : Nat) (s : State), issues s f h w →
     let x := s.face f
     let q := s.ldBytes (fsAddr f (qCtlOff w)) 16
     let c := leBytes 1 x.cfgSel
     (latticeBusy x = false →
       (wOp w = 0x40 → hazard x w [] = false → fsOk x.xs w 26 64 2048 = true →
         Gives (.cfgLoad f) s fun t => entered s t f w [] ∧ onlyFaces s t) ∧
       (wOp w = 0x41 → x.cfgValid (fld w 25 24) = true →
         Gives (.cfgSel f) s fun t => went s t f w (x.pc + 1) (fun y => { y with cfgSel := fld w 25 24 }) ∧ onlyFaces s t) ∧
       (wOp w = 0x42 → x.cfgValid x.cfgSel = true → hazard x w c = false → latCheck x.xs w (x.cfg x.cfgSel) = 0 →
         Gives (.latRun f) s fun t => entered s t f w c ∧ onlyFaces s t) ∧
       (hazard x w q = false → s.ueIn (fsAddr f (qCtlOff w)) 16 = none → quantCheck (Qctl.of q) x.xs w = 0 →
         (wOp w = 0x60 → Gives (.qmMeasure f) s fun t => entered s t f w q ∧ onlyFaces s t) ∧
         (wOp w = 0x61 → Gives (.qmConvert f) s fun t => entered s t f w q ∧ onlyFaces s t) ∧
         (wOp w = 0x63 → Gives (.qmReblock f) s fun t => entered s t f w q ∧ onlyFaces s t)) ∧
       (∀ d, wOp w = 0x62 → (if bit w 119 then tapData x (fld w 120 120) else some []) = some d → hazard x w d = false →
         escCheck x.xs w d = 0 → Gives (.qmEsc f) s fun t => entered s t f w d ∧ onlyFaces s t)) ∧
     (wOp w = 0xA0 → hazard x w [] = false → fsOk x.xs w 24 64 (rngCount w * rngWidth w) = true →
       Gives (.rng f) s fun t => entered s t f w [] ∧ onlyFaces s t)) ∧
   (∀ (f : Face) (h i : Nat) (o : Op) (s : State),
     let x := s.face f
     let w := o.word
     let q := Qctl.of o.data
     let cfg := x.cfg (leAt o.data 0 1)
     let m := fun u k => measureBlocks f w o.xs q u k 0 q.nblk
     let c := quantSteps f w o.xs q (qStep q w o.progress) (qSteps q w) { s := s, dec := o.dec }
     (completes s f h i o (· == 0x40) → cfgOk (s.fsBytes f (fsEff o.xs w 26) 2048) = true → x.cfgs.length = 4 →
       Gives (.cfgLoadComplete f) s fun t => ended s t f i ∧ accAfter s t f i x.acc ∧ onlyFaces s t ∧ ∀ k < 4, nth {} (t.face f).cfgs k =
         if k = fld w 25 24 then { src := fsEff o.xs w 26, bytes := s.fsBytes f (fsEff o.xs w 26) 2048, valid := true } else nth {} x.cfgs k) ∧
     (completes s f h i o (· == 0x42) → memoryGood s → (cfgStream cfg 2).fmt ≤ 7 → (cfgStream cfg 3).fmt ≤ 7 →
       Gives (.latRunComplete f) s fun t => ended s t f i ∧ (t.face f).cfgs = x.cfgs ∧
         (∀ a, (∀ it, o.progress ≤ it → it < latCount w → ∀ k, k = 2 ∨ k = 3 → (cfgStream cfg k).fmt ≠ 0 →
             a < fsAddr f (streamAddr (cfgStream cfg k) (latBase o.xs w k) it).toNat ∨
             fsAddr f (streamAddr (cfgStream cfg k) (latBase o.xs w k) it).toNat + (cfgStream cfg k).bytes ≤ a) →
           Memory.read t.mem a = Memory.read s.mem a) ∧
         regsKept s t (pinKeys (s.facePg f)) ∧ { t with mem := s.mem, regs := s.regs, faces := s.faces } = s) ∧
     (completes s f h i o (fun p => p == 0x60 || p == 0x61 || p == 0x63) → memoryGood s →
       (wOp w = 0x60 → o.progress = 0 → Gives (.qmComplete f) s fun t => ended s t f i ∧ accAfter s t f i x.acc ∧
         (∀ r < q.rows, t.ldBytes (fsAddr f (qMrec o.xs w + 32 * (r * q.nblk))) (32 * q.nblk) =
           (srcBlocks ((List.range r).foldl m s) f q (qSrc o.xs w) r).flatMap fun b => measureRecord q (gridOf s f q.dst) b.1 b.2) ∧
         memKept s t (fsAddr f (qMrec o.xs w)) (32 * q.nblk * q.rows) ∧ { t with mem := s.mem, faces := s.faces } = s) ∧
       (wOp w ≠ 0x60 → s.resident h = true → c.bad = false →
         Gives (.qmComplete f) s fun t => ended s t f i ∧ accAfter s t f i x.acc ∧
           t.ctx h = { s.ctx h with clip := ((s.ctx h).clip + c.stats.clip) % 2 ^ 64,
                                    elem := ((s.ctx h).elem + c.stats.elem) % 2 ^ 64 } ∧
           regsKept s t (tallyKeys (stopePage (stopeOfFace f))) ∧
           { t with mem := s.mem, regs := s.regs, faces := s.faces, ctxs := s.ctxs } = s)) ∧
     (completes s f h i o (· == 0x62) → bankPending x.issued = false → (escEntries s f w o.xs).2 = 0 →
       let es := (escEntries s f w o.xs).1
       Gives (.qmEscComplete f) s fun t => ended s t f i ∧ (t.face f).cfgs = x.cfgs ∧
         accAfter s t f i (escMerge s f w o.xs o.data es o.progress (ceilDiv es.length 4) ⟨x.acc, 0⟩).acc ∧
         regsKept s t (regKey (s.facePg f) 0x118 :: pinKeys (s.facePg f)) ∧ { t with regs := s.regs, faces := s.faces } = s) ∧
     (completes s f h i o (· == 0xA0) → memoryGood s → o.progress ≤ rngCount w →
       let a := fsAddr f (fsEff o.xs w 24 + o.progress * rngWidth w)
       let n := (rngCount w - o.progress) * rngWidth w
       Gives (.rngComplete f) s fun t => ended s t f i ∧ accAfter s t f i x.acc ∧
         t.ldBytes a n = rngBytes (s.run h).seed o.step o.xs w o.progress (rngCount w) ∧ memKept s t a n ∧
         { t with mem := s.mem, faces := s.faces } = s))

/-! ### Copies and the raster pipeline -/

/-- R223, R230, R237: a hoist word or a GALLERY.ADDU that no bound and no hazard holds reads its descriptor and joins the end of its hoist's
queue; no other hoist changes. At a hoist whose 32 descriptors are taken up, those of the faces that wait before it counted, the word does
not issue: its face waits for that hoist. -/
def Obligations.CopyWordsIssue : Prop :=
  ∀ (f : Face) (h w : Nat) (s : State), issues s f h w → copiesOut (s.face f) < 16 →
    let x := s.face f
    let queued (t : State) (k doff : Nat) (d : List Byte) : Prop :=
      (∃ j, t.hoist k = s.hoist k ++ [j] ∧ j.face = f.val ∧ j.handle = h ∧ j.word = w ∧ j.desc = d ∧ j.doff = doff ∧ j.taken = false) ∧
      (∀ q, q ≠ k → t.hoist q = s.hoist q) ∧ went s t f w (x.pc + 1) id ∧
      { t with faces := s.faces, hoists := s.hoists, jobSeq := s.jobSeq } = s
    let waits (t : State) (k : Nat) : Prop := t.face f = { x with hoistWait := some k } ∧ (∀ q, q ≠ f.val → t.face q = s.face q) ∧
      regsKept s t (tallyKeys (s.facePg f) ++ tallyKeys (hoistPage k)) ∧ { t with faces := s.faces, regs := s.regs } = s
    let o := fsEff x.xs w 24
    let d := s.fsBytes f o 32
    let k := jobHoist f w (leNat d)
    (hazard x w [] = false → fsOk x.xs w 24 32 32 = true → (bit w 48 && s.flagOutside h (hoistDoneRef w)) = false →
      s.ueIn (fsAddr f o) 32 = none →
      (32 ≤ s.hoistQueued k + s.hoistBefore k f →
        (wOp w = 0x70 → Gives (.hoist2d f) s fun t => waits t k) ∧ (wOp w = 0x71 → Gives (.hoist3d f) s fun t => waits t k) ∧
        (wOp w = 0x72 → Gives (.hoistGather f) s fun t => waits t k) ∧ (wOp w = 0x73 → Gives (.hoistHalo f) s fun t => waits t k)) ∧
      (s.hoistQueued k + s.hoistBefore k f < 32 →
      (wOp w = 0x70 → Gives (.hoist2d f) s fun t => queued t k o d) ∧
      (wOp w = 0x71 → Gives (.hoist3d f) s fun t => queued t k o d) ∧
      (wOp w = 0x72 → Gives (.hoistGather f) s fun t => queued t k o d) ∧
      (wOp w = 0x73 → Gives (.hoistHalo f) s fun t => queued t k o d))) ∧
    (wOp w = 0xA2 → s.hoistQueued (adduHoist f) + s.hoistBefore (adduHoist f) f < 32 → fsOk x.xs w 24 64 (4 * (fld w 83 72 + 1)) = true →
      (bit w 86 && s.flagOutside h (adduDoneRef w)) = false →
      Gives (.galleryAddu f) s fun t => queued t (adduHoist f) o [])

/-- R224, R230, R242, R252, R254-R256: a hoist takes the first waiting descriptor when its checks pass; a copy of one row within the
device writes its destination with the source's bytes (zeros with ZERO, bit 7 inverted with INV7) and nothing else, counts its bytes and
sets its done flag; the copies through ports that were waiting for it then begin, and nothing happens besides when there is none; a
GALLERY.ADDU adds its elements into their gallery words and writes nothing else. -/
def Obligations.HoistsMoveBytes : Prop :=
  ∀ (k : Fin 80) (f : Face) (j : HoistJob) (s : State),
    let c := Copy.of (leNat j.desc)
    let gather := c.kind == 3 && !c.zero
    let idx := if gather then s.fsBytes j.face c.list (4 * c.rows) else []
    let took (t : State) (g : HoistJob → HoistJob) : Prop :=
      t.hoist k = (s.hoist k).map (fun y => if y.id = j.id then g y else y) ∧
      (∀ q, q ≠ k.val → t.hoist q = s.hoist q) ∧ { t with hoists := s.hoists } = s
    let src (a : Int) : Nat := endAddr j.face c.srcFs a
    let dst (b : Int) : Nat := endAddr j.face c.dstFs b
    let inv : Byte := if c.inv7 then 0x80 else 0
    ((s.hoist k).find? (fun j => !s.quiet (hoistPage k) && !j.taken && s.faceCtx j.face == some j.handle) = some j →
      (wOp j.word = 0xA2 → adduCheck s j = 0 → Gives (.hoistTake k) s fun t => took t fun y => { y with taken := true, begun := true }) ∧
      (wOp j.word ≠ 0xA2 → (gather = true → c.list + 4 * c.rows ≤ 0x40000 ∧ noErrors s) →
        copyCheck s k j idx = 0 → copyPorts j idx = [] → Gives (.hoistTake k) s fun t => ∃ u, t = beginReady k u ∧
          took u fun y => { y with taken := true, idx := idx, void := false, begun := true })) ∧
    (startable (s.hoist k) [] = [] → beginReady k s = s) ∧
    (∀ a b, readyJob (s.hoist k) [] = some j → noErrors s → memoryGood s → j.void = false → j.reading = false → c.kind ≠ 4 →
      copyRows c j.idx = [(a, b)] → remotePort (dst b) = none →
      Gives (.hoistCopyComplete k) s fun v => ∃ t, v = beginReady k t ∧
        t.ldBytes (dst b) c.width = (if c.zero then List.replicate c.width inv else (s.ldBytes (src a) c.width).map (· ^^^ inv)) ∧
        memKept s t (dst b) c.width ∧ t.rd64 (hoistPage k) 0x108 = (s.rd64 (hoistPage k) 0x108 + c.width) % 2 ^ 64 ∧
        t.hoist k = (s.hoist k).filter (fun y => y.id != j.id) ∧ (∀ q, q ≠ k.val → t.hoist q = s.hoist q) ∧
        (bit j.word 48 = true → (hoistDoneRef j.word).space = 2 →
          t.gflag (hoistDoneRef j.word).drift (hoistDoneRef j.word).index = true) ∧
        (bit j.word 48 = false → t.gflags = s.gflags ∧ t.sflags = s.sflags) ∧
        regsKept s t ([regKey (hoistPage k) 0x108, regKey (hoistPage k) 0x10C] ++ tallyKeys (hoistPage k)) ∧
        { t with mem := s.mem, regs := s.regs, hoists := s.hoists, faces := s.faces, gflags := s.gflags, sflags := s.sflags,
                 doneWatch := s.doneWatch } = s) ∧
    ((s.hoist (adduHoist f)).find? (fun j => j.taken && wOp j.word == 0xA2 && j.face == f.val) = some j → noErrors s → memoryGood s →
      let r := adduRange j.word
      fsAddr f j.doff + r.2 ≤ r.1 ∨ r.1 + r.2 ≤ fsAddr f j.doff →
      Gives (.galleryAdduComplete f) s fun t =>
        (∀ e < r.2 / 4, t.ld (r.1 + 4 * e) 4 = adduOne j.word (s.ld (r.1 + 4 * e) 4) (s.ld (fsAddr f (j.doff + 4 * e)) 4) % 2 ^ 32) ∧
        memKept s t r.1 r.2 ∧ t.rd64 (hoistPage (adduHoist f)) 0x108 = (s.rd64 (hoistPage (adduHoist f)) 0x108 + r.2) % 2 ^ 64 ∧
        t.hoist (adduHoist f) = (s.hoist (adduHoist f)).filter (fun y => y.id != j.id) ∧
        (bit j.word 86 = true → (adduDoneRef j.word).space = 2 → t.gflag (adduDoneRef j.word).drift (adduDoneRef j.word).index = true))

/-- R227, R434-R438: RAS.CLAIM of a face that owns no tile, and RAS.PRIM and RAS.RELEASE of one that owns one, hold their face; a claim is
given the claimable tile of lowest index with its header, or no tile; a primitive brings its record and fragments, or END; a release frees
the tile.
R421, R423, R424, R431, R440: jobs queue up to four and a flush forgets them; the first starts with its START flag; the end of binning
makes its tiles claimable; the end of a job writes the result record, sets DONE and reports the status. -/
def Obligations.RasterWordsAndJobs : Prop :=
   (∀ (f : Face) (h w : Nat) (s : State),
     let x := s.face f
     let die := dieOfFace f
     let at' := fsAddr f (fsEff x.xs w 24)
     let goneOn (t : State) : Prop := went s t f w (x.pc + 1) fun y => { y with hold := .none }
     (issues s f h w → hazard x w [] = false →
       (wOp w = 0x90 → s.ownedTile h f = none → (∀ j, (s.tiler die).job = some j → (s.ctx h).part = rasPart j.desc) →
         fsOk x.xs w 24 64 64 = true → Gives (.rasClaim f) s fun t => t = s.setFace f { x with hold := .ras }) ∧
       (wOp w = 0x91 → (s.ownedTile h f).isSome = true → fsOk x.xs w 24 64 128 = true →
         Gives (.rasPrim f) s fun t => t = s.setFace f { x with hold := .ras }) ∧
       (wOp w = 0x92 → (s.ownedTile h f).isSome = true → fsOk x.xs w 24 1 64 = true →
         Gives (.rasRelease f) s fun t => t = s.setFace f { x with hold := .ras })) ∧
     (s.faceCtx f = some h → x.hold = .ras → s.nextWord f h = w → noErrors s → memoryGood s →
       (wOp w = 0x90 → ((s.tiler die).job = none ∨ ∃ j, (s.tiler die).job = some j ∧ j.status = 0 ∧ (s.ctx h).part = rasPart j.desc ∧
           j.binned = true ∧ j.todo = [] ∧ j.paused = false) →
         Gives (.rasClaimAnswer f) s fun t => goneOn t ∧ t.ldBytes at' 64 = List.replicate 64 0 ∧ memKept s t at' 64 ∧
           { t with mem := s.mem, faces := s.faces } = s) ∧
       (∀ j tile rest, wOp w = 0x90 → (s.tiler die).job = some j → j.status = 0 → (s.ctx h).part = rasPart j.desc → j.binned = true →
         j.todo = tile :: rest → j.owner h f = none →
         let resume := NSet.has j.stored tile
         let cleared := clearBit s j.desc tile
         rasBlock s j.desc ([(rasAddr j.desc 0x38 + 8 * tile, 8), listBlock j tile 0, (rasAddr j.desc 0x30 + tile / 8, 1)] ++ (if resume then [(orderSlot j.desc tile, 64 + rasExtra j.desc)] else [])) [] = none →
         rasBlock s j.desc (if cleared then [] else surfaceRows j.desc tile) [] = none →
         ((workPlanes j.desc).any fun r => decide (0x40000 < r.1 + r.2)) = false → fsEff x.xs w 24 + 64 ≤ 0x40000 →
         let last := if resume then s.ld (orderSlot j.desc tile) 4 else 0xFFFFFFFF
         Gives (.rasClaimAnswer f) s fun t => goneOn t ∧ t.ldBytes at' 64 = tileHeader j.desc j tile resume cleared last ∧
           t.ownedTile h f = some { tile := tile, handle := h, face := f, last := last } ∧
           (∃ u, (t.tiler die).job = some u ∧ u.todo = j.todo.filter (fun k => k != tile)) ∧ memKept s t (fsAddr f 0) fsSize) ∧
       (∀ j o, wOp w = 0x91 → (s.tiler die).job = some j → j.status = 0 → j.owner h f = some o →
         let l := NMap.get [] j.lists o.tile
         (nextPrim s j o.tile l (l.length + 1) o.idx = (none, none) →
           Gives (.rasPrimAnswer f) s fun t => goneOn t ∧ t.ldBytes at' 64 = leBytes 4 4 ++ leBytes 60 0 ∧ memKept s t at' 64 ∧ t.regs = s.regs) ∧
         (∀ i q r fr, nextPrim s j o.tile l (l.length + 1) o.idx = (some (i, q, r, fr), none) →
           let start := if i = o.idx then o.off else 0
           let n := min (64 * fld w 56 45) (fr.length - start)
           let bytes := leBytes 4 (1 + 2 * b2n (decide (start + n < fr.length))) ++ leBytes 4 q ++ leBytes 4 n ++ leBytes 52 0 ++ r ++
             (sliceL fr start n).flatten
           fsEff x.xs w 24 + 128 + 16 * n ≤ 0x40000 →
           Gives (.rasPrimAnswer f) s fun t => goneOn t ∧ t.ldBytes at' bytes.length = bytes ∧ memKept s t at' bytes.length ∧
             regsKept s t (tallyKeys (tilerPage die)))) ∧
       (∀ j o, wOp w = 0x92 → (s.tiler die).job = some j → j.status = 0 → j.owner h f = some o → j.paused = false →
         (bit w 45 = false → Gives (.rasReleaseAnswer f) s fun t => goneOn t ∧ t.ownedTile h f = none ∧ t.mem = s.mem) ∧
         (bit w 45 = true → rasBlock s j.desc [] (storeRanges j.desc o.tile) = none →
           Gives (.rasReleaseAnswer f) s fun t => goneOn t ∧ t.ownedTile h f = none ∧
             ∃ u, (t.tiler die).job = some u ∧ u.stored = NSet.add j.stored o.tile ∧ u.nStored = j.nStored + 1)))) ∧
   (∀ (id : Ident) (die : Fin 2) (addr : Nat) (s : State),
     let p := tilerPage die
     (mayWrite s id p 0x104 →
       ((s.tiler die).queue.length < 4 → Gives (.rasJob id die addr) s fun t =>
         t.tiler die = { s.tiler die with queue := (s.tiler die).queue ++ [addr % 2 ^ 40 / 64 * 64] } ∧
         { t with bus := s.bus, tilers := s.tilers } = s) ∧
       (4 ≤ (s.tiler die).queue.length → Gives (.rasJob id die addr) s fun t => busEnded s t id p 4)) ∧
     (mayWrite s id p 0x110 → Gives (.rasFlush id die) s fun t => t.tiler die = { s.tiler die with queue := [] } ∧
       { t with bus := s.bus, tilers := s.tilers } = s) ∧
     (∀ a q, (s.tiler die).job = none → (s.tiler die).queue = a :: q → s.quiet p = false →
       let d := s.ldBytes a 128
       let st := rasFlag d 0x68 0
       s.gflag st.1 st.2 = true → noErrors s → memoryGood s → rangeInMemory a 128 = true → rasDescOk d = true → rasAllow s d 1 a 128 = true →
       rasClear d = false → rasFlag d 0x6C 0 ≠ st → rasBlock s d [] (startTables d) = none →
       Gives (.rasJobStart die) s fun t => t.tiler die = { queue := q, job := some { desc := d, checked := true } } ∧ t.gflag st.1 st.2 = false ∧
         t.ldBytes (rasAddr d 0x38) (8 * tileCount d) = List.replicate (8 * tileCount d) 0 ∧
         memKept s t (rasAddr d 0x38) (8 * tileCount d) ∧ regsKept s t [regKey p 0x114, regKey p 0x118]) ∧
     (∀ j u, (s.tiler die).job = some j → j.binned = false → j.status = 0 → noErrors s →
       binPrims s (rasNprim j.desc + 1 - j.next) j = (u, none) → u.paused = false →
       rasBlock s j.desc [] [(rasAddr j.desc 0x38, 256 * (firstBlock j.desc + u.used))] = none →
       Gives (.binningComplete die) s fun t => (t.tiler die).job = some { u with binned := true, todo := u.lists.map (·.1) } ∧
         t.rd p 0x114 = u.used % 2 ^ 32 ∧ t.faces = s.faces ∧ t.ctxs = s.ctxs) ∧
     (∀ j, (s.tiler die).job = some j → j.atEnd = true → j.status < 256 → (rasResolve j.desc && j.checked) = false → noErrors s →
       memoryGood s → rasAllow s j.desc 2 (rasAddr j.desc 0x70) 64 = true → rasFlag j.desc 0x6C 0 ≠ rasFlag j.desc 0x68 16 →
       Gives (.rasJobEnd die) s fun t => (t.tiler die).job = none ∧ (t.tiler die).queue = (s.tiler die).queue ∧
         t.ldBytes (rasAddr j.desc 0x70) 64 = rasResult j ∧ memKept s t (rasAddr j.desc 0x70) 64 ∧
         t.gflag (rasFlag j.desc 0x68 16).1 (rasFlag j.desc 0x68 16).2 = true ∧ t.rf p 0x108 15 8 = j.status ∧
         t.rd p 0x10C = (s.rd p 0x10C + 1) % 2 ^ 32 ∧ t.rb p 0x010 (if j.status = 0 then 8 else 9) = true))

/-! ### Sorters, flags, memory errors and face tests -/

/-- R281, R287, R288: sorter jobs queue up to eight and a flush forgets them; the first starts with its START flag, which it clears; the
end of a job writes the header and boxes of R287, sets DONE and reports the status. -/
def Obligations.SorterJobs : Prop :=
  ∀ (id : Ident) (die : Fin 2) (addr : Nat) (s : State),
    let p := sorterPage die
    (mayWrite s id p 0x104 →
      ((s.sorter die).queue.length < 8 → Gives (.sortJob id die addr) s fun t =>
        t.sorter die = { s.sorter die with queue := (s.sorter die).queue ++ [addr % 2 ^ 40 / 64 * 64] } ∧
        { t with bus := s.bus, sorters := s.sorters } = s) ∧
      (8 ≤ (s.sorter die).queue.length → Gives (.sortJob id die addr) s fun t => busEnded s t id p 4)) ∧
    (mayWrite s id p 0x110 → Gives (.sortFlush id die) s fun t => t.sorter die = { s.sorter die with queue := [] } ∧
      { t with bus := s.bus, sorters := s.sorters } = s) ∧
    (∀ a q, (s.sorter die).job = none → (s.sorter die).queue = a :: q → s.quiet p = false →
      let d := s.ldBytes a 64
      s.gflag (sortFlag d 0).1 (sortFlag d 0).2 = true → rangeInMemory a 64 = true → s.ueIn a 64 = none → sortDescOk d = true →
      s.sortAllow d 1 a 64 = true →
      Gives (.sortJobStart die) s fun t => t.sorter die = { queue := q, job := some { desc := d } } ∧
        t.gflag (sortFlag d 0).1 (sortFlag d 0).2 = false ∧ { t with sorters := s.sorters, gflags := s.gflags } = s) ∧
    (∀ j, (s.sorter die).job = some j → j.status = 0 → noErrors s → memoryGood s →
      let r := s.sortRun j.desc
      let a := sortAddr j.desc 0x18
      let bytes := sortHeader r.kept.length 0 r.passed r.dropped r.overflow r.suppressed ++ r.kept.flatMap Box.bytes
      s.sortBlock j.desc r.kept.length = none →
      Gives (.sortJobEnd die) s fun t => (t.sorter die).job = none ∧ (t.sorter die).queue = (s.sorter die).queue ∧
        t.ldBytes a bytes.length = bytes ∧ memKept s t a bytes.length ∧
        t.gflag (sortFlag j.desc 16).1 (sortFlag j.desc 16).2 = true ∧ t.rf p 0x108 15 8 = 0 ∧
        t.rd p 0x10C = (s.rd p 0x10C + 1) % 2 ^ 32 ∧ t.rb p 0x010 8 = true)

/-- R286: candidates are taken one at a time in their order: one that some kept box of its class (any class with AGNOSTIC) overlaps with
inter × 65,536 > IOU_T × union is suppressed and counted, and any other is kept behind those kept so far; once MAX_OUT boxes are kept no
further candidate is taken. -/
def Obligations.SuppressionTakesCandidatesInOrder : Prop :=
  ∀ (agnostic : Bool) (t m : Nat) (cs : List Box) (c : Box), (∀ b ∈ c :: cs, b.x0 ≤ b.x1 ∧ b.y0 ≤ b.y1) →
    let r := suppressAll agnostic t m cs [] 0
    let q := suppressAll agnostic t m (cs ++ [c]) [] 0
    let area (b : Box) : Int := ((b.x1 : Int) - b.x0) * ((b.y1 : Int) - b.y0)
    let inter (k : Box) : Int := max 0 (min (k.x1 : Int) c.x1 - max (k.x0 : Int) c.x0) * max 0 (min (k.y1 : Int) c.y1 - max (k.y0 : Int) c.y0)
    let union (k : Box) : Int := area k + area c - inter k
    let hit (k : Box) : Prop := (agnostic = true ∨ k.cls = c.cls) ∧ inter k * 65536 > t * union k
    r.1.length ≤ m ∧ (r.1.length = m → q = r) ∧
    (r.1.length < m → (∃ k ∈ r.1, hit k) → q = (r.1, r.2 + 1)) ∧
    (r.1.length < m → (∀ k ∈ r.1, ¬ hit k) → q = (r.1 ++ [c], r.2))

/-- R148, R244, R259, R262, R267: GFLAG_SET and GFLAG_CLR write one gallery flag; a refresh changes nothing; a scrub of a clean word
changes nothing and of a corrected one counts it; a face test runs on an idle face, and its end clears the face's stores and reports. -/
def Obligations.FlagsScrubsAndFaceTests : Prop :=
  ∀ (id : Ident) (d : Fin 8) (v : Word) (c : Fin 32) (a : Nat) (n : Phys) (s : State),
    let one (t : State) (b : Bool) : Prop := t.gflag d (v.toNat % 4096) = b ∧
      (∀ e i, e * 4096 + i ≠ d.val * 4096 + v.toNat % 4096 → t.gflag e i = s.gflag e i) ∧
      { t with bus := s.bus, gflags := s.gflags, doneWatch := s.doneWatch } = s
    (mayWrite s id (driftPage d) 0x10C → Gives (.gflagSet id d v) s fun t => one t true) ∧
    (mayWrite s id (driftPage d) 0x110 → Gives (.gflagClr id d v) s fun t => one t false) ∧
    Gives (.dramRefresh c) s (fun t => t = s) ∧
    (s.scrubs (a / 8 * 8) = true → s.eccBad.contains (a / 8 * 8) = false → s.eccOne.contains (a / 8 * 8) = false → a / 8 * 8 + 8 ≠ dramSize →
      Gives (.scrubRead a .clean) s (fun t => t = s) ∧
      (∀ g, regionOf (a / 8 * 8) = .gallery g → Gives (.scrubRead a .single) s fun t =>
        t.rd (driftPage g) 0x104 = min 0xFFFFFFFF (s.rd (driftPage g) 0x104 + 1) ∧ t.mem = s.mem ∧
        regsKept s t (regKey (driftPage g) 0x104 :: tallyKeys (driftPage g)) ∧ { t with regs := s.regs, frameSum := s.frameSum } = s)) ∧
    (mayWrite s id (facePage n) 0x138 → s.rf (facePage n) 0x138 9 8 ≠ 3 →
      s.logicalOf n = none ∨ (s.unitState (facePage n)).1 = 0 ∨ (s.unitState (facePage n)).1 = 4 →
      Gives (.faceTestRun id n) s fun t => t.rf (facePage n) 0x138 9 8 = 3 ∧ onlyRegs s t [regKey (facePage n) 0x138]) ∧
    (s.rf (facePage n) 0x138 9 8 = 3 →
      (s.logicalOf n = none → Gives (.faceTestDone n true) s fun t => t.rf (facePage n) 0x138 9 8 = 1 ∧
        t.rb (facePage n) 0x010 10 = true ∧ regsKept s t [regKey (facePage n) 0x138, regKey (facePage n) 0x010] ∧
        { t with regs := s.regs } = s) ∧
      (∀ f, s.logicalOf n = some f → Gives (.faceTestDone n true) s fun t => t.rf (facePage n) 0x138 9 8 = 1 ∧
        t.rb (facePage n) 0x010 10 = true ∧ (∀ o < fsSize, Memory.read t.mem (fsAddr f o) = 0) ∧ memKept s t (fsAddr f 0) fsSize ∧
        (t.face f).acc = [] ∧ (t.face f).cfgs = List.replicate 4 {} ∧ (∀ g, g ≠ f → t.face g = s.face g)))

/-! ### Records and replay -/

/-- R356, R362, R366-R368, R376, R377: an enabled ring with room takes an entry of one unit at WPTR, which moves past it, with the next
SEQ; REC_MARK, FRAME_SUM and a pending GAP write such entries; enabling a ring zeroes its pointers; the digest of the settings takes
SETTINGS_DIGEST and sets VALID. A GAP waits while its ring is disabled (R378). The eighth count of a FRAME_SUM entry is 0 while the clock
has stood at its full rate, and a free value otherwise (the model's choice, log entry 35). -/
def Obligations.RecordsAndDigest : Prop :=
  ∀ (id : Ident) (v : Word) (g : Fin 4) (ring : Fin 2) (s : State), memoryGood s → s.eccBad = [] →
    let w := s.rd cagePage (recWptr ring)
    let a := s.rd64 cagePage (recOff ring) + w
    (mayWrite s id cagePage 0x614 → s.rb cagePage 0x600 0 = true → NMap.find s.recGap 0 = none →
      s.rd cagePage 0x618 + 32 ≤ s.recSize 0 → s.recFits 0 32 = true →
      Gives (.recMark id v) s fun t =>
        t.ldBytes (s.rd64 cagePage 0x608 + s.rd cagePage 0x618) 32 = recHeader s 0 0x0F 1 v.toNat 0 ∧
        memKept s t (s.rd64 cagePage 0x608 + s.rd cagePage 0x618) 32 ∧
        t.rd cagePage 0x618 = (s.rd cagePage 0x618 + 32) % s.recSize 0 ∧ t.rd cagePage 0x634 = (s.rd cagePage 0x634 + 1) % 2 ^ 32) ∧
    (mayWrite s id cagePage 0x614 → s.rb cagePage 0x600 0 = false →
      Gives (.recMark id v) s fun t => onlyRegs s t []) ∧
    (s.rb cagePage 0x600 ring = false → Gives (.recGapWrite ring) s fun t => t = s) ∧
    (∀ n, NMap.find s.recGap ring = some n → s.rb cagePage 0x600 ring = true → s.recFits ring 32 = true → w + 32 ≤ s.recSize ring → NMap.rising s.recGap = true →
      Gives (.recGapWrite ring) s fun t => t.ldBytes a 32 = recHeader s ring 0x0E 1 (min n 0xFFFFFFFF) 0 ∧ memKept s t a 32 ∧
        t.rd cagePage (recWptr ring) = (w + 32) % s.recSize ring ∧ NMap.find t.recGap ring = none) ∧
    (mayWrite s id cagePage 0x600 → s.rb cagePage 0x600 4 = bit v.toNat 4 →
      (s.rb cagePage 0x600 0 = false → bit v.toNat 0 = true →
        Gives (.recEnable id v) s fun t => t.rb cagePage 0x600 0 = true ∧ t.rd cagePage 0x618 = 0 ∧ t.rd cagePage 0x61C = 0 ∧
          t.rd cagePage 0x634 = 0 ∧ t.mem = s.mem) ∧
      (s.rb cagePage 0x600 1 = false → bit v.toNat 1 = true →
        Gives (.trecEnable id v) s fun t => t.rb cagePage 0x600 1 = true ∧ t.rd cagePage 0x62C = 0 ∧ t.rd cagePage 0x630 = 0 ∧
          t.trecSeq = 0 ∧ t.mem = s.mem)) ∧
    (s.rf cagePage 0x600 3 2 = g.val → ((s.hgHeads g).any fun j => decide (2 ≤ (s.head j).timing)) = true →
      let still : Bool := s.thrStep == 0 && nth 0 s.frameSum 7 == 0
      let n := if still then 0 else (s.draw 32).1
      let p := s.rd64 cagePage 0x620 + s.rd cagePage 0x62C
      Gives (.frameSumWrite g) s fun t => t.frameSum = List.replicate 8 0 ∧ t.free = (if still then s.free else s.free + 1) ∧
        (s.rb cagePage 0x600 1 = false → t.mem = s.mem ∧ t.regs = s.regs) ∧
        (s.rb cagePage 0x600 1 = true → NMap.find s.recGap 1 = none → s.frameSum.length = 8 → s.recFits 1 64 = true →
          s.rd cagePage 0x62C + 64 ≤ s.recSize 1 →
          t.ldBytes p 64 = recHeader s 1 0x43 2 0 (((s.hgPos g).1 + 2 ^ 32 - 1) % 2 ^ 32) ++ (s.frameSum.take 7 ++ [n]).flatMap (leBytes 4) ∧
          memKept s t p 64 ∧ t.rd cagePage 0x62C = (s.rd cagePage 0x62C + 64) % s.recSize 1 ∧ t.trecSeq = (s.trecSeq + 1) % 2 ^ 32)) ∧
    (s.rb cagePage 0x654 0 = false → Gives .sdRecomputeDone s fun t =>
      (∀ k < 8, t.rd cagePage (0x660 + 4 * k) = leAt (shake256 s.settings 32) (4 * k) 4) ∧ t.rb cagePage 0x654 0 = true ∧
      t.rd cagePage 0x658 = (s.rd cagePage 0x658 + 1) % 2 ^ 32 ∧ { t with regs := s.regs } = s)

/-- R370-R372: in replay a band launches when the band before it in its context is complete and nothing holds it, as its live launch
would; the next POSE_LATCH entry that names the band is copied into LATCHED_POSE and consumed; an entry that names another stops the
cage. -/
def Obligations.ReplayFollowsTheRecord : Prop :=
  ∀ (g : Fin 4) (F : Word) (b : Nat) (s : State), s.replay = true → s.replayStop = false →
    (let u := if s.hgK g ≤ b ∧ (s.band (bandKey g F.toNat (b - s.hgK g))).launched then noteDone g F.toNat (b - s.hgK g) s else s
     b < u.hgK g ∨ (u.band (bandKey g F.toNat (b - u.hgK g))).complete = true → u.replay = true → u.replayStop = false →
      u.bandRuns g F.toNat b = true → u.bandKnown (bandKey g F.toNat b) = false →
      (u.bandCtx g (u.bandIdx g b)).any (fun h => (u.ctx h).active) = false → u.replayHolds g F.toNat b = false →
      (b = 0 → u.commitOwed g F.toNat = false) →
      (∀ n, ((u.frameMap g F.toNat).map (·.1)).getD 0 = n → u.hFrame (u.slotHdr g false (n % u.inputDepth g)) = n) →
      Gives (.replayBandLaunch g F b) s fun t => t = beginBand g F.toNat b (bandCommits g F.toNat u)) ∧
    (∀ e, (s.band (bandKey g F.toNat b)).latched = false → s.waitsPose g F.toNat b = true → s.replayPeek = some e →
      (e.type = 5 → e.a1 = F.toNat → fld e.a0 1 0 = g.val → fld e.a0 15 8 = b →
        Gives (.replayPoseLatch g F b) s fun t => t = latchPose g F.toNat b (s.replayBody e 64) (replayPop e s)) ∧
      (e.type ≠ 5 → s.rf cagePage 0x01C 15 0 = 0 →
        Gives (.replayPoseLatch g F b) s fun t => t.replayStop = true ∧ t.rf cagePage 0x01C 15 0 = 0xA002 ∧ t.mem = s.mem)) ∧
    ((s.band (bandKey g F.toNat b)).latched = false → s.waitsPose g F.toNat b = true → s.replayPeek = none →
      Gives (.replayPoseLatch g F b) s fun t => t.rb cagePage 0x604 3 = true ∧ onlyRegs s t [regKey cagePage 0x604])
/-! ### Assay, heads and ingress -/

/-- R382, R394, R407, R410, R417, R492, R493, R503: an enabled camera port and its enabled pipeline take a frame from its start packet, line by
line, to its end packet; packets of another data type are only counted; a wrong header is corrected or discarded; streams and ports are enabled, or refused with their code. -/
def Obligations.CameraFrames : Prop :=
  ∀ (id : Ident) (k : Fin 4) (n : Nat) (payload : List Byte) (s : State),
    (s.camOn k = true → noErrors s → memoryGood s →
      (4 ≤ n → n ≠ 0x2A + fld (cfgWord (s.asCfg k) 0x100) 1 0 →
        Gives (.csiDtDropped k ⟨n, .good⟩) s fun t => t = s.tally (camPage k) 0x60 ∧ onlyRegs s t (tallyKeys (camPage k))) ∧
      ((n < 4 ∨ n = 0x2A + fld (cfgWord (s.asCfg k) 0x100) 1 0) → Gives (.csiDtDropped k ⟨n, .good⟩) s fun t => t = s) ∧
      (∀ i ∈ ([.csiFrameStart k .bad, .csiLine k .headerBad payload, .csiFrameEnd k .bad, .csiDtDropped k ⟨n, .bad⟩] : List Instr),
        ((s.cam k).inFrame = false → Gives i s fun t => t = s) ∧
        ((s.cam k).inFrame = true → Gives i s fun t => t.cam k = { s.cam k with err := 1 } ∧ t.rf (camPage k) 0x104 15 8 = 1 ∧
          regsKept s t [regKey (camPage k) 0x104] ∧ { t with regs := s.regs, cams := s.cams } = s)) ∧
      (∀ e ∈ ([(.csiFrameStart k .good, .csiFrameStart k .corrected), (.csiLine k .clean payload, .csiLine k .corrected payload),
          (.csiFrameEnd k .good, .csiFrameEnd k .corrected), (.csiDtDropped k ⟨n, .good⟩, .csiDtDropped k ⟨n, .corrected⟩)] : List (Instr × Instr)),
        exec e.2 s = exec e.1 (s.incSat (camPage k) 0x10C)) ∧
      ((s.cam k).inFrame = false → s.en (assayPage k) = true → s.quiet (assayPage k) = false → s.pageOn (assayPage k) = true →
        (s.as k).ended = none → s.mf = {} →
        let c := s.asCfg k
        let q := (s.as k).next
        Gives (.csiFrameStart k .good) s fun t => (t.cam k).inFrame = true ∧ (t.as k).frame = some { seq := q, sof := s.reading, cfg := c } ∧
          (t.as k).next = (q + 1) % 2 ^ 32 ∧ t.ld (bufAddr c q) 4 = q % 2 ^ 32 ∧ memKept s t (bufAddr c q) 4 ∧
          (∀ j < 3, t.gflag (fld (cfgWord c 0x110) 14 12) (fld (cfgWord c 0x110) 11 0 + 3 * (q % 2) + j) = false) ∧
          { t with mem := s.mem, cams := s.cams, assay := s.assay, gflags := s.gflags } = s) ∧
      (∀ f, (s.cam k).inFrame = true → (s.as k).frame = some f → f.status = 0 →
        (payload.length * 8 = (cfgSize (s.asCfg k)).1 * pixBits (fld (cfgWord (s.asCfg k) 0x100) 1 0) → f.rows.length < (cfgSize f.cfg).2 →
          Gives (.csiLine k .clean payload) s fun t => (t.cam k).lines = (s.cam k).lines + 1 ∧
            (t.as k).frame = some { f with rows := f.rows ++ [csiPixels (fld (cfgWord f.cfg 0x100) 1 0) (cfgSize f.cfg).1 payload] } ∧
            { t with cams := s.cams, assay := s.assay } = s) ∧
        ((s.cam k).lines = (cfgSize (s.asCfg k)).2 → (s.cam k).err = 0 →
          Gives (.csiFrameEnd k .good) s fun t => (t.cam k).inFrame = false ∧ (t.as k).frame = none ∧
            (t.as k).ended = some { f with eof := s.reading, hint := s.ldBytes (galBase + cfgWord f.cfg 0x124) 32,
                                           valid := hintOk (s.ldBytes (galBase + cfgWord f.cfg 0x124) 32) } ∧
            t.rd (camPage k) 0x108 = (s.rd (camPage k) 0x108 + 1) % 2 ^ 32))) ∧
    (mayWrite s id (assayPage k) 0x008 →
      (s.en (assayPage k) = false → assayRefuse k s = 0 →
        Gives (.assayEnable id k) s fun t => t.en (assayPage k) = true ∧ t.as k = {} ∧
          t.rd (assayPage k) 0x128 = bufSize (s.asCfg k) % 2 ^ 32 ∧
          regsKept s t [regKey (assayPage k) 0x008, regKey (assayPage k) 0x128] ∧
          { t with regs := s.regs, bus := s.bus, assay := s.assay } = s) ∧
      (s.en (assayPage k) = false → assayRefuse k s ≠ 0 → s.rf (assayPage k) 0x01C 15 0 = 0 →
        Gives (.assayEnable id k) s fun t => t.en (assayPage k) = false ∧ t.rf (assayPage k) 0x01C 15 0 = 0xB001 ∧ t.assay = s.assay ∧
          t.mem = s.mem) ∧
      (s.en (assayPage k) = true →
        Gives (.assayDisable id k) s fun t => t.en (assayPage k) = false ∧ (t.as k).frame = none ∧ (t.as k).ended = none ∧
          t.mf.matchQ = s.mf.matchQ.filter (fun j => j.stream != k.val) ∧ t.mf.flowQ = s.mf.flowQ.filter (fun j => j.stream != k.val))) ∧
    (mayWrite s id (camPage k) 0x008 → s.en (camPage k) = false →
      (camRefuse k s = 0 → Gives (.camEnable id k) s fun t => t.en (camPage k) = true ∧ onlyRegs s t [regKey (camPage k) 0x008]) ∧
      (camRefuse k s ≠ 0 → s.rf (camPage k) 0x01C 15 0 = 0 → Gives (.camEnable id k) s fun t => t.en (camPage k) = false ∧
        t.rf (camPage k) 0x01C 15 0 = 0xE003))

/-- R397, R403, R406, R407, R410, R418: the end of a frame's feature lists publishes the frame, sets FEAT and queues its enabled jobs; a matcher
or flow job starts with its START flag, and its end writes only its part of the frame's buffer, sets its flag and counts it. -/
def Obligations.FeatureJobs : Prop :=
  ∀ (k : Fin 4) (s : State), noErrors s →
    let ready (t : State) (c : List Nat) (q j : Nat) : Prop :=
      t.gflag (fld (cfgWord c 0x110) 14 12) (fld (cfgWord c 0x110) 11 0 + 3 * (q % 2) + j) = true
    (∀ f, (s.as k).ended = some f →
      Gives (.featuresComplete k) s fun t => (t.as k).ended = none ∧ (t.as k).last = some (f.seq, f.status, f.cfg) ∧
        t.rd (assayPage k) 0x130 = f.seq % 2 ^ 32 ∧ ready t f.cfg f.seq 0 ∧
        (cfgBit f.cfg 3 = true → s.mf.matchQ.length < 8 → ∃ j, t.mf.matchQ = s.mf.matchQ ++ [j] ∧ j.stream = k.val ∧ j.seq = f.seq) ∧
        (cfgBit f.cfg 3 = false → t.mf.matchQ = s.mf.matchQ ∧ ready t f.cfg f.seq 1) ∧
        (cfgBit f.cfg 4 = true → s.mf.flowQ.length < 8 → ∃ j, t.mf.flowQ = s.mf.flowQ ++ [j] ∧ j.stream = k.val ∧ j.seq = f.seq) ∧
        (cfgBit f.cfg 4 = false → t.mf.flowQ = s.mf.flowQ ∧ ready t f.cfg f.seq 2)) ∧
    (∀ j q, s.mf.matchJob = none → s.mf.matchQ = j :: q → jobReady s j 0 = true →
      Gives .matchJobStart s fun t =>
        t.mf = { s.mf with matchQ := q, matchJob := some { j with refStream := (s.refList j).1, ref := (s.refList j).2 } } ∧
        (cfgBit j.cfg 2 = true → t.gflag (startFlag j.cfg 0).1 (startFlag j.cfg 0).2 = false) ∧
        { t with mf := s.mf, gflags := s.gflags } = s) ∧
    (∀ j, s.mf.matchJob = some j →
      Gives .matchJobDone s fun t => t.mf = { s.mf with matchJob := none } ∧ ready t j.cfg j.seq 1 ∧
        memKept s t (bufAddr j.cfg j.seq) (flowOff j.cfg) ∧ t.rb (assayPage j.stream) 0x010 9 = true ∧
        t.rf sharedPage 0x104 15 0 = (s.rf sharedPage 0x104 15 0 + 1) % 65536) ∧
    (∀ j q, s.mf.flowJob = none → s.mf.flowQ = j :: q → jobReady s j 1 = true →
      Gives .flowJobStart s fun t => t.mf = { s.mf with flowQ := q, flowJob := some j } ∧
        (cfgBit j.cfg 2 = true → t.gflag (startFlag j.cfg 1).1 (startFlag j.cfg 1).2 = false) ∧
        { t with mf := s.mf, gflags := s.gflags } = s) ∧
    (∀ j, s.mf.flowJob = some j →
      Gives .flowJobDone s fun t => t.mf = { s.mf with flowJob := none } ∧ ready t j.cfg j.seq 2 ∧
        memKept s t (bufAddr j.cfg j.seq) (flowOff j.cfg + 16 * ((cfgBlocks j.cfg).1 * (cfgBlocks j.cfg).2)) ∧
        t.rb (assayPage j.stream) 0x010 10 = true ∧
        t.rf sharedPage 0x104 31 16 = (s.rf sharedPage 0x104 31 16 + 1) % 65536)

/-- R445, R446, R467-R470, R472: HPD starts training with the first configuration that fits; a trained link reads its rate and lanes, and
HOLD_REQ, where it stands, is then requested again or refused; a lost or retrained link trains again; a head is enabled with its timing
waiting for a frame start; Panel Replay is requested, entered and left.
R449, R451, R453, R459, R460: a line start moves to the next line or, after the last, to line 0 of the next frame, where the layers return
and UNDERRUN moves to UNDERRUN_LAST; an active line is sent from its buffer, and the fetch of the next one begins; the layer latch copies the
layer registers; an underrun switches its layer off from its pixel on; a rephase lets the frame end, after which the head waits for a frame
start. -/
def Obligations.HeadLinkHoldAndLines : Prop :=
   (∀ (id : Ident) (h : Fin 4) (caps : Nat) (s : State),
     let p := headPage h
     let x := s.head h
     (∀ i, s.pageOn p = true → (s.modHead h fun y => { y with sink := caps }).nextLink h 0 = some i →
       Gives (.hpdRise h caps) s fun t => t.rb p 0x108 0 = true ∧ t.rb p 0x108 1 = false ∧ t.rb p 0x108 6 = bit caps 8 ∧
         t.head h = { x with sink := caps, training := some i } ∧ regsKept s t [regKey p 0x108] ∧
         { t with regs := s.regs, heads := s.heads } = s) ∧
     (∀ i, x.training = some i → i < 12 →
       let up (t : State) : Prop := t.rb p 0x108 1 = true ∧ t.rf p 0x108 3 2 = (nth (0, 0, 0) linkConfigs i).2.2 ∧
         t.rf p 0x108 5 4 = (nth (0, 0, 0) linkConfigs i).2.1
       (s.rb p 0x104 0 = false ∨ x.hold ≠ 0 → Gives (.linkTrainingDone h 0) s fun t => up t ∧ t.head h = { x with training := none } ∧
         regsKept s t [regKey p 0x108] ∧ { t with regs := s.regs, heads := s.heads } = s) ∧
       (s.rb p 0x104 0 = true → x.hold = 0 → s.en p = true → s.headBit h 6 = true →
         Gives (.linkTrainingDone h 0) s fun t => up t ∧ t.head h = { x with training := none, hold := 1, wake := none } ∧
           regsKept s t [regKey p 0x108] ∧ { t with regs := s.regs, heads := s.heads } = s) ∧
       (s.rb p 0x104 0 = true → x.hold = 0 → s.en p = false ∨ s.headBit h 6 = false → s.rf p 0x01C 15 0 = 0 →
         Gives (.linkTrainingDone h 0) s fun t => up t ∧ t.head h = { x with training := none } ∧ t.rb p 0x104 0 = false ∧
           t.rf p 0x01C 15 0 = 0xD003)) ∧
     (∀ i, s.nextLink h 0 = some i →
       (s.headBit h 1 = true → Gives (.linkLoss h) s fun t => t.rb p 0x108 1 = false ∧ t.rb p 0x010 9 = true ∧
         t.rd p 0x12C = (s.rd p 0x12C + 1) % 2 ^ 32 ∧ (t.head h).training = some i ∧ t.mem = s.mem ∧ t.out = s.out) ∧
       (mayWrite s id p 0x104 → s.headBit h 0 = true → Gives (.headRetrain id h) s fun t => t.rb p 0x108 1 = false ∧ t.rb p 0x010 9 = true ∧
         t.rd p 0x104 = s.rd p 0x104 % 8 ∧ (t.head h).training = some i ∧ t.mem = s.mem)) ∧
     (mayWrite s id p 0x008 → s.en p = false →
       (headRefuse h s = 0 → Gives (.headEnable id h) s fun t => t.en p = true ∧ (t.head h).timing = 1 ∧
         (t.head h).frame = s.frameAfter h 1 % 2 ^ 32 ∧ (t.head h).sink = x.sink ∧ regsKept s t [regKey p 0x008] ∧
         { t with regs := s.regs, bus := s.bus, heads := s.heads } = s) ∧
       (headRefuse h s ≠ 0 → s.rf p 0x01C 15 0 = 0 → Gives (.headEnable id h) s fun t => t.en p = false ∧ t.rf p 0x01C 15 0 = 0xD001 ∧
         t.heads = s.heads)) ∧
     (mayWrite s id p 0x104 → bit (s.rd p 0x104) 3 = false →
       (s.rb p 0x104 0 = false → s.en p = true → s.headBit h 1 = true → s.headBit h 6 = true →
         Gives (.holdRequest id h) s fun t => t.rb p 0x104 0 = true ∧ (t.head h).hold = (if x.hold = 0 then 1 else x.hold) ∧
           regsKept s t [regKey p 0x104] ∧ { t with regs := s.regs, bus := s.bus, heads := s.heads } = s) ∧
       (s.rb p 0x104 0 = false → s.headBit h 6 = false → s.rf p 0x01C 15 0 = 0 →
         Gives (.holdRequest id h) s fun t => t.rb p 0x104 0 = false ∧ t.rf p 0x01C 15 0 = 0xD003 ∧ t.heads = s.heads) ∧
       (s.rb p 0x104 0 = true → Gives (.holdExitRequest id h) s fun t => t.rb p 0x104 0 = false ∧
         t.head h = (if x.hold = 3 then { x with wake := some (x.frame, x.line) } else { x with hold := 0 }) ∧
         regsKept s t [regKey p 0x104] ∧ { t with regs := s.regs, bus := s.bus, heads := s.heads } = s)) ∧
     (s.headRuns h = true → x.hold = 4 ∨ (x.hold = 2 ∧ (s.headMode h).h ≤ x.line + 1) →
       Gives (.holdEnter h) s fun t => (t.head h).hold = 3 ∧ t.rb p 0x108 7 = true ∧ t.rb p 0x010 10 = true ∧
         regsKept s t [regKey p 0x108, regKey p 0x010] ∧ { t with regs := s.regs, heads := s.heads } = s) ∧
     (s.headRuns h = true → x.hold = 3 → s.wakeDue h = true →
       Gives (.holdExit h) s fun t => (t.head h).hold = 0 ∧ t.rb p 0x108 7 = false ∧ t.rb p 0x010 10 = true ∧
         regsKept s t [regKey p 0x108, regKey p 0x010] ∧ { t with regs := s.regs, heads := s.heads } = s)) ∧
   (∀ (h k : Fin 4) (pixel : Fin 8192) (s : State), s.pageOn (headPage h) = true → noErrors s →
     let p := headPage h
     let x := s.head h
     let m := s.headMode h
     let e := s.headEncoding h
     let whole := ∀ b, x.next = some b → ∀ j < 4, m.w ≤ (nth [] b.layers j).length
     let shown (t : State) : Prop := regsKept s t (regKey p 0x108 :: regKey p 0x010 :: tallyKeys p) ∧
       (∀ g, g ≠ h.val → t.head g = s.head g) ∧
       { t with regs := s.regs, heads := s.heads, out := s.out, bands := s.bands, groups := s.groups, adapt := s.adapt } = s
     let begun (F : Nat) : Prop := Gives (.lineStart h) s fun t => (t.head h).line = 0 ∧ (t.head h).frame = F ∧ (t.head h).timing = 2 ∧
       (t.head h).hold = (if x.hold = 1 then 2 else if x.hold = 2 then 4 else x.hold) ∧ t.rf p 0x108 16 13 = s.rf p 0x108 12 9 ∧ shown t ∧
       (whole → t.rf p 0x108 12 9 = 0 ∧ (t.head h).bandUnder = []) ∧
       (s.headBit h 1 = true → x.hold ≠ 3 → ∃ l, t.out = s.out ++ .sdp h F e.enc e.bits e.matrix (e.narrow || e.enc != 0) :: l)
     (x.timing = 2 ∨ x.timing = 3 → x.line + 1 < m.vt →
       Gives (.lineStart h) s fun t => { t.head h with cur := x.cur, next := x.next, bandUnder := x.bandUnder } = { x with line := x.line + 1 } ∧
         shown t ∧ (m.h ≤ x.line + 1 → t.out = s.out ∧ (t.head h).cur = none) ∧
         (whole → (t.head h).bandUnder = x.bandUnder) ∧
         (x.line + 1 < m.h → s.headSends h = true → ∃ b, (t.head h).cur = some b ∧ b.frame = x.frame ∧ b.line = x.line + 1 ∧
           t.out = s.out ++ [.line h x.frame (x.line + 1) (s.linePix h b)]) ∧
         (x.line + 2 < m.h → s.fetchesIn h x.frame = true → ∃ b, (t.head h).next = some b ∧ b.frame = x.frame ∧ b.line = x.line + 2)) ∧
     (x.timing = 2 → m.vt ≤ x.line + 1 → begun ((x.frame + 1) % 2 ^ 32)) ∧
     (x.timing = 1 → begun x.frame) ∧
     (x.timing = 3 → m.vt ≤ x.line + 1 → Gives (.lineStart h) s fun t =>
       t.head h = { x with timing := 1, frame := s.frameAfter h 0 % 2 ^ 32 } ∧ t.out = s.out ∧ regsKept s t (tallyKeys p)) ∧
     (x.timing = 2 → Gives (.headRephase h) s fun t => t.head h = { x with timing := 3 } ∧ t.rd p 0x128 = (s.rd p 0x128 + 1) % 2 ^ 32 ∧
       t.rb p 0x010 11 = true ∧ regsKept s t (regKey p 0x128 :: regKey p 0x010 :: tallyKeys p) ∧
       { t with regs := s.regs, heads := s.heads } = s) ∧
     (x.timing ≠ 0 → s.rb p 0x104 2 = false →
       Gives (.layerLatch h) s fun t => (∀ j < 64, nth 0 (t.head h).layers j = s.rd p (0x200 + 4 * j)) ∧ (t.head h).bg = s.rd p 0x120 ∧
         (t.head h).mute = s.rb p 0x104 1 ∧ t.rb p 0x108 8 = s.rb p 0x104 1 ∧ regsKept s t [regKey p 0x108] ∧
         { t with regs := s.regs, heads := s.heads } = s) ∧
     (s.headRuns h = true → x.hold ≠ 3 → s.layerOff h k = false → k = 0 ∨ layerOn x k = true → x.line < m.h → pixel < m.w →
       Gives (.layerUnderrun h ⟨k, pixel⟩) s fun t => t.layerOff h k = true ∧ t.rb p 0x010 8 = true ∧ t.mem = s.mem ∧
         { t.head h with cur := x.cur, bandUnder := x.bandUnder } = x ∧
         (x.cur = none → t.out = s.out ∧ (t.head h).cur = none) ∧
         (∀ b, x.cur = some b → ∃ c, (t.head h).cur = some c ∧ c.frame = b.frame ∧ c.line = b.line ∧
           nth [] c.layers k = (nth [] b.layers k).take pixel ∧ (∀ j, j ≠ k.val → nth [] c.layers j = nth [] b.layers j) ∧
           t.out = if s.headSends h then (amendLine h b.frame b.line (s.linePix h c) s.out.reverse).reverse else s.out) ∧
         regsKept s t (regKey p 0x108 :: regKey p 0x010 :: tallyKeys p)))

/-- R477, R480, R482-R487: an accepted packet of a frame that its slot holds open writes its pixels, or its pose record, at their place in the
slot, and nothing else in memory, and is counted: Urelud pixels and poses byte-swapped, ST 2110-20 pixels unpacked, ANC poses. (Clauses for
packets of one row that do not end their frame; the input record is off.) -/
def Obligations.PacketsReachTheirSlot : Prop :=
  ∀ (p : Fin 4) (b : List Byte) (f path i n : Nat) (d : Dgram) (s : State), flowArrives s p b f path d → slotHolds s f i n →
    noErrors s → memoryGood s → s.rb cagePage 0x600 0 = false →
    let g := s.flowHg f
    let ref := s.flowRefs f
    let h := s.slotHdr g ref i
    let k := slotKey g ref i
    let wrote (t : State) (a : Nat) (bytes : List Byte) : Prop := t.ldBytes a bytes.length = bytes ∧ memKept s t a bytes.length ∧
      t.rd64 (flowPage f) 0x138 = (s.rd64 (flowPage f) 0x138 + 1) % 2 ^ 64 ∧ t.eccBad = [] ∧ t.ctxs = s.ctxs ∧ t.faces = s.faces
    let u := d.payload
    let pl := ureludPlane (leAt u 3 1)
    let data := u.drop 20
    (∀ q, s.flowProto f = 2 → pl = some q → q ≠ 7 → 20 ≤ u.length → beAt u 0 2 = 0x5552 → leAt u 2 1 = 1 → leAt u 18 1 = 0 → leAt u 19 1 = 0 →
      s.rb (flowPage f) 0x100 (8 + q) = true → s.seqCase f (beAt u 4 4) = .accepted → beAt u 8 4 = n →
      ureludCheck f q (beAt u 12 2) (beAt u 14 2) (beAt u 16 2) data.length i s = none →
      NSet.has (s.slot k).flagged (beAt u 12 2 / max 1 (s.hRowGroup h)) = false →
      Gives (.ureludPacket p b) s fun t =>
        wrote t (s.hPlane h q + beAt u 12 2 * s.hStride h q + beAt u 14 2 * s.hPixel h q) (swapContainers (s.hPixel h q) data)) ∧
    (s.flowProto f = 2 → pl = some 7 → 20 ≤ u.length → beAt u 0 2 = 0x5552 → leAt u 2 1 = 1 → leAt u 18 1 = 0 → leAt u 19 1 = 0 →
      s.rb (flowPage f) 0x100 15 = true → s.seqCase f (beAt u 4 4) = .accepted → beAt u 8 4 = n →
      ureludCheck f 7 (beAt u 12 2) (beAt u 14 2) (beAt u 16 2) data.length i s = none →
      Gives (.ureludPacket p b) s fun t => wrote t (h + 0x60) (poseOfBe data) ∧ (t.slot k).pose = true) ∧
    (∀ r e, s.flowProto f = 0 → parseRtp u = some r → sampleRows r.body = some [e] → r.pt = s.flowCfg f 22 16 → e.field = false →
      r.marker = false → s.seqCase f r.extSeq = .accepted → (rtpFrame f r.ts s).map (·.1) = some n → s.rowsOk h [e] = true → s.planeOk h 0 = true →
      NSet.has (s.slot k).flagged (e.row / max 1 (s.hRowGroup h)) = false →
      Gives (.st2110Packet p b) s fun t => wrote t (s.hPlane h 0 + e.row * s.hStride h 0 + e.off * s.hPixel h 0)
        (unpackPixels ((s.sampleBits h).getD 10) (s.hf h 0x0C 4 5 4 == 2) e.data)) ∧
    (∀ r e, s.flowProto f = 1 → parseRtp u = some r →
      (ancPackets (leAt r.body 4 1) r.body 64).find? (fun e => e.1 == s.rd (flowPage f) 0x11C % 256 &&
        e.2.1 == s.rd (flowPage f) 0x11C / 256 && e.2.2.length == 64) = some e →
      s.seqCase f r.extSeq = .accepted → (rtpFrame f r.ts s).map (·.1) = some n →
      Gives (.ancPacket p b) s fun t => wrote t (h + 0x60) (poseOfBe (e.2.2.map fun w => BitVec.ofNat 8 w)) ∧ (t.slot k).pose = true)

/-- R488, R489, R499, R502: a timeout, or the disabling of a flow, ends its open frame: the slot notes it while another enabled flow of the
store has not ended the frame, and otherwise is COMPLETE and no longer OPEN; a flow is enabled, reporting the groups that it joins, or refused
with FLOW_CONFIG; a port shows its link, and only counts a frame whose check sequence fails.
R497, R498, R504: an accepted edge or, while STUCK, a synthetic start begins a transaction, or leaves a sample waiting; an edge too soon is
only counted; a transaction sends SPI_TX (R496), and its end writes its 64-byte ring entry and starts what waits; STUCK and LOST are set and cleared. -/
def Obligations.FlowsAndPorts : Prop :=
   (∀ (id : Ident) (f : Fin 16) (p : Fin 4) (up fec : Bool) (b : List Byte) (s : State), noErrors s → memoryGood s →
     let g := s.flowHg f
     let ref := s.flowRefs f
     let waits (j : Nat) : Prop := (s.slot (slotKey g ref j)).ended = [] ∨
       ∃ e ∈ s.storeFlows g ref, e ≠ f.val ∧ NSet.has (s.slot (slotKey g ref j)).ended e = false
     (∀ n i, (s.flow f).openN = some n → (List.range (s.slotCount g ref)).find? (fun j => s.hFrame (s.slotHdr g ref j) == n) = some i →
       s.hBit (s.slotHdr g ref i) 0 = true →
       let k := slotKey g ref i
       let closed (t : State) : Prop := t.flow f = { s.flow f with openN := none, ended := 0 } ∧ t.hBit (s.slotHdr g ref i) 0 = false ∧
         t.hBit (s.slotHdr g ref i) 1 = true
       (s.en (flowPage f) = true → s.pageOn (flowPage f) = true →
         ((∃ e ∈ s.storeFlows g ref, e ≠ f.val ∧ NSet.has (s.slot k).ended e = false) →
           Gives (.flowTimeout f) s fun t => t.flow f = { s.flow f with openN := none, ended := 0 } ∧ NSet.has (t.slot k).ended f = true ∧
             { t with flows := s.flows, slots := s.slots } = s) ∧
         ((∀ e ∈ s.storeFlows g ref, e ≠ f.val → NSet.has (s.slot k).ended e = true) → Gives (.flowTimeout f) s closed)) ∧
       (mayWrite s id (flowPage f) 0x008 → s.en (flowPage f) = true → (∀ j < s.slotCount g ref, j ≠ i → waits j) →
         ((∃ e ∈ s.storeFlows g ref, e ≠ f.val ∧ NSet.has (s.slot k).ended e = false) →
           Gives (.flowDisable id f) s fun t => t.en (flowPage f) = false ∧ t.flow f = { s.flow f with openN := none, ended := 0 } ∧
             NSet.has (t.slot k).ended f = true ∧ regsKept s t [regKey (flowPage f) 0x008] ∧
             { t with flows := s.flows, slots := s.slots, regs := s.regs, bus := s.bus } = s) ∧
         ((∀ e ∈ s.storeFlows g ref, e ≠ f.val → NSet.has (s.slot k).ended e = true) →
           Gives (.flowDisable id f) s fun t => t.en (flowPage f) = false ∧ closed t))) ∧
     (mayWrite s id (flowPage f) 0x008 → s.en (flowPage f) = true → (s.flow f).openN = none → (∀ j < s.slotCount g ref, waits j) →
       Gives (.flowDisable id f) s fun t => t.en (flowPage f) = false ∧ onlyRegs s t [regKey (flowPage f) 0x008]) ∧
     (mayWrite s id (flowPage f) 0x008 → s.en (flowPage f) = false →
       (flowRefuse f s = 0 → Gives (.flowEnable id f) s fun t => t.en (flowPage f) = true ∧ t.flow f = {} ∧
         t.out = s.out ++ (s.flowPorts f).filterMap (fun q =>
           let a := s.rd (flowPage f) (if s.flowCfg f 3 2 = q then 0x104 else 0x110)
           if a / 2 ^ 28 = 14 then some (.igmp q a) else none) ∧
         regsKept s t [regKey (flowPage f) 0x008] ∧ { t with regs := s.regs, bus := s.bus, flows := s.flows, out := s.out } = s) ∧
       (flowRefuse f s ≠ 0 → s.rf (flowPage f) 0x01C 15 0 = 0 → Gives (.flowEnable id f) s fun t => t.en (flowPage f) = false ∧
         t.rf (flowPage f) 0x01C 15 0 = 0xE001 ∧ t.flows = s.flows)) ∧
     (s.pageOn (portPage p) = true → fcsOk b = false → ∀ i ∈ ([.st2110Packet p b, .ancPacket p b, .ureludPacket p b] : List Instr),
       Gives i s fun t => t.rd (portPage p) 0x114 = min 0xFFFFFFFF (s.rd (portPage p) 0x114 + 1) ∧ onlyRegs s t [regKey (portPage p) 0x114]) ∧
     (s.pageOn (portPage p) = true → Gives (.ingressLinkChange p up fec) s fun t => t.rb (portPage p) 0x100 0 = up ∧
       t.rb (portPage p) 0x100 1 = fec ∧ onlyRegs s t [regKey (portPage p) 0x100])) ∧
   (∀ (id : Ident) (p : Fin 2) (data : List Byte) (s : State),
     let g := spiPage p
     let x := s.spi p
     let sent : Out := .spi p (s.rf g 0x100 1 0) (s.rf g 0x100 15 8) ((leBytes 4 (s.rd g 0x108)).take (s.rf g 0x104 2 0)) (s.rf g 0x104 12 8)
     let took (t : State) (synth : Bool) : Prop :=
       t.out = (if x.job = none then s.out ++ [sent] else s.out) ∧
       (x.job = none → (t.spi p).job = some { stamp := s.reading, synth := synth } ∧ (t.spi p).waiting = x.waiting) ∧
       (x.job.isSome = true → (t.spi p).job = x.job ∧ ∃ o, (t.spi p).waiting = some { stamp := s.reading, synth := synth, overrun := o } ∧
         o = x.waiting.isSome)
     (s.spiOn p = true →
       (s.quiet g = false → (∀ t, x.last = some t → s.spiP p ≤ 4 * ((s.reading + 2 ^ 64 - t) % 2 ^ 64)) →
         Gives (.drdyEdge p) s fun t => took t false ∧ (t.spi p).last = some s.reading ∧ t.rb g 0x114 3 = false ∧ t.mem = s.mem) ∧
       (∀ t, x.last = some t → 4 * ((s.reading + 2 ^ 64 - t) % 2 ^ 64) < s.spiP p →
         Gives (.drdyEdge p) s fun u => u.rd g 0x11C = min 0xFFFFFFFF (s.rd g 0x11C + 1) ∧
           regsKept s u (regKey g 0x11C :: tallyKeys g) ∧ { u with regs := s.regs } = s) ∧
       (s.spiStuck p = true → s.spiPast p (s.spiP p) = true → s.quiet g = false → Gives (.spiSynthStart p) s fun t => took t true ∧ (t.spi p).last = some s.reading ∧
         t.mem = s.mem) ∧
       (s.spiStuck p = false → s.spiPast p (2 * s.spiP p) = true → Gives (.drdyStuck p) s fun t => t.spiStuck p = true ∧ t.rb g 0x010 8 = true ∧
         regsKept s t (regKey g 0x114 :: regKey g 0x010 :: tallyKeys g) ∧ { t with regs := s.regs } = s) ∧
       (s.spiStuck p = false → s.spiPast p (2 * s.spiP p) = true → s.rb g 0x114 3 = false → Gives (.drdyLost p) s fun t => t.rb g 0x114 3 = true ∧ t.rb g 0x010 9 = true ∧
         regsKept s t [regKey g 0x114, regKey g 0x010] ∧ { t with regs := s.regs } = s) ∧
       (∀ u, x.last = some u → (s.reading + 2 ^ 64 - u) % 2 ^ 64 < s.spiP p →
         ∀ i ∈ ([.drdyStuck p, .spiSynthStart p, .drdyLost p] : List Instr), Gives i s fun t => t = s) ∧
       Gives (.drdyInactive p) s (fun t => t.spiStuck p = false ∧ regsKept s t [regKey g 0x114] ∧ { t with regs := s.regs } = s)) ∧
     (∀ y, s.pageOn g = true → x.job = some y → s.rf g 0x104 12 8 ≤ 24 → s.rb cagePage 0x600 0 = false → noErrors s → memoryGood s →
       let n := s.rf g 0x104 12 8
       let a := galBase + s.rd g 0x110 + 64 * (s.rd g 0x118 % 64)
       Gives (.spiTransactionDone p data) s fun t =>
         t.ldBytes a 64 = leBytes 4 (s.rd g 0x118) ++ leBytes 4 (n + 256 * b2n y.synth + 512 * b2n y.overrun) ++ leBytes 8 y.stamp ++
           (data ++ List.replicate n 0).take n ++ List.replicate (24 - n) 0 ++ leBytes 20 0 ++ leBytes 4 (s.rd g 0x118) ∧
         memKept s t a 64 ∧ t.rd g 0x118 = (s.rd g 0x118 + 1) % 2 ^ 32 ∧ (t.spi p).job = x.waiting ∧ (t.spi p).waiting = none ∧
         regsKept s t [regKey g 0x118]) ∧
     (mayWrite s id g 0x008 → s.en g = false →
       (spiRefuse p s = 0 → Gives (.spiEnable id p) s fun t => t.en g = true ∧ t.rd g 0x118 = 0 ∧ t.spi p = {} ∧
         regsKept s t [regKey g 0x008, regKey g 0x118, regKey g 0x114] ∧ { t with regs := s.regs, bus := s.bus, spis := s.spis } = s) ∧
       (spiRefuse p s ≠ 0 → s.rf g 0x01C 15 0 = 0 → Gives (.spiEnable id p) s fun t => t.en g = false ∧ t.rf g 0x01C 15 0 = 0xE004 ∧
         t.spis = s.spis)))

/-! ### The time unit -/

/-- R509, R513-R518, R532: privileged writes of the time unit. A rate is installed without a jump of the reading; a request of a
difference steps an armed clock, is accepted up to JUMP_MAX, and is otherwise refused; a set of a calendar is the request of its
difference; the arm is set and cleared; a source is taken, with the calendar's state; a slew point moves the slew by 1 ns; a read of
CLK_NS latches CLK_SEC. -/
def Obligations.TimeUnitAccesses : Prop :=
  ∀ (id : Ident) (c : Fin 3) (n : Nat) (v : Word) (s : State),
    let k := s.clock c
    let page := timePage
    let priv (off : Nat) : Prop := mayWrite s id page off ∧ s.tuPriv id = true
    let clocks (t : State) : Prop := { t with regs := s.regs, bus := s.bus, time := s.time, launches := s.launches } = s
    let total (t : State) : Nat := (t.clock c).sec * 1000000000 + (t.clock c).ns
    (priv (clkOff c) → rateOk (n % 2 ^ 40) = true → (¬ (8 ≤ id.val ∧ id.val < 16) ∨ s.calSource c = 0) →
      Gives (.clkRateWrite id c n) s fun t => t.rate c = n % 2 ^ 40 ∧ t.reading = s.reading ∧
        regsKept s t [regKey page (clkOff c), regKey page (clkOff c + 4)] ∧ { t with regs := s.regs, bus := s.bus, time := s.time } = s ∧
        { t.time with offset := s.time.offset, base := s.time.base, acc0 := s.time.acc0 } = s.time) ∧
    (priv (clkOff c + 0x0C) →
      let d := sext 64 n
      (k.arm = true → Gives (.clkAdj id c n) s fun t => (t.clock c).arm = false ∧ (t.clock c).slew = 0 ∧ t.rb page 0x010 9 = true ∧
        (c.val = 0 → (t.time.offset : Int) = ((s.time.offset : Int) + d) % 2 ^ 64) ∧
        (c.val ≠ 0 → (total t : Int) = ((total s : Int) + d) % (2 ^ 48 * 1000000000)) ∧ regsKept s t [regKey page 0x010] ∧ clocks t) ∧
      (k.arm = false → (k.slew + d).natAbs ≤ s.jumpMax →
        Gives (.clkAdj id c n) s fun t => t = { s.setClock c { k with slew := k.slew + d } with bus := ⟨0, 0⟩ }) ∧
      (k.arm = false → s.jumpMax < (k.slew + d).natAbs →
        Gives (.clkAdj id c n) s fun t => t.rb page 0x010 8 = true ∧ onlyRegs s t (regKey page 0x010 :: tallyKeys page))) ∧
    (priv (clkOff c + 0x18) →
      let set : Nat := n % 2 ^ 48 * 1000000000 + v.toNat % 2 ^ 30
      let d : Int := (set : Int) - (total s : Int)
      let ks := [regKey page (clkOff c + 0x10), regKey page (clkOff c + 0x14)]
      (c.val = 0 → Gives (.clkSet id c n v) s fun t => onlyRegs s t []) ∧
      (c.val ≠ 0 → k.arm = true → Gives (.clkSet id c n v) s fun t => total t = set % (2 ^ 48 * 1000000000) ∧
        (t.clock c).arm = false ∧ (t.clock c).slew = 0 ∧ regsKept s t (regKey page 0x010 :: ks) ∧ clocks t) ∧
      (c.val ≠ 0 → k.arm = false → (k.slew + d).natAbs ≤ s.jumpMax → Gives (.clkSet id c n v) s fun t =>
        t.time = (s.setClock c { k with slew := k.slew + d }).time ∧ regsKept s t ks ∧
          { t with regs := s.regs, bus := s.bus, time := s.time } = s)) ∧
    (priv (clkOff c + 0x1C) →
      Gives (.jumpArm id c) s (fun t => t = { s.setClock c { k with arm := true } with bus := ⟨0, 0⟩ }) ∧
      Gives (.disarm id c) s (fun t => t = { s.setClock c { k with arm := false } with bus := ⟨0, 0⟩ })) ∧
    (mayWrite s id page (clkOff c + 0x0C) → s.tuPriv id = false →
      Gives (.clkAdj id c n) s fun t => busEnded s t id page 3) ∧
    (priv 0x120 → Gives (.tuSourceWrite id v) s fun t =>
      t.calSource 1 = (if fld v.toNat 1 0 = 3 then s.calSource 1 else fld v.toNat 1 0) ∧
      t.calSource 2 = (if 2 ≤ fld v.toNat 3 2 then s.calSource 2 else fld v.toNat 3 2) ∧
      (∀ j, j = 1 ∨ j = 2 → (t.clock j).state = if t.calSource j = s.calSource j then (s.clock j).state else if t.calSource j = 0 then 0 else 1) ∧
      regsKept s t [regKey page 0x120, regKey page 0x010] ∧ { t with regs := s.regs, bus := s.bus, time := s.time } = s) ∧
    (0 < k.slew → Gives (.slewPoint c) s fun t => t = s.setClock c { k with slew := k.slew - 1, halves := k.halves + 2 }) ∧
    (k.slew < 0 → Gives (.slewPoint c) s fun t => t = s.setClock c { k with slew := k.slew + 1, halves := k.halves - 2 }) ∧
    (mayRead s id page (clkOff c + 0x20) → c.val ≠ 0 → Gives (.clkNsRead id c) s fun t => t.bus = ⟨0, BitVec.ofNat 32 k.ns⟩ ∧
      NMap.find t.latch (regKey page (clkOff c + 0x28)) = some (BitVec.ofNat 32 k.sec) ∧
      NMap.find t.latch (regKey page (clkOff c + 0x2C)) = some (BitVec.ofNat 32 (k.sec / 2 ^ 32)) ∧
      { t with bus := s.bus, latch := s.latch } = s)

/-- R521, R524, R525, R527-R529: a PTP measurement is kept and its correction requested, with LOCKED or HOLDOVER; a lost master and a lost
GENLOCK reference give HOLDOVER; a GENLOCK edge is rejected as a glitch, or stamped, and when usable makes the first correction of the loop
or steers its rate within 100 ppm; a timestamp channel queues a corrected stamp, or drops it at 16 entries, and POP removes the oldest;
with one-step enabled a transmitted Sync carries its calendar time and a Pdelay_Resp the turnaround (R526). -/
def Obligations.TimeUnitEvents : Prop :=
  ∀ (id : Ident) (c : Fin 3) (o : Int) (ch : Fin 12) (info : Nat) (s : State),
    let page := timePage
    let k := s.clock 1
    let T := k.t
    let e := s.glError T
    let rest (t : State) : Prop := { t with regs := s.regs, time := s.time, launches := s.launches, free := s.free } = s
    let glitch : Prop := ∃ l, s.time.glLast = some l ∧ l ≤ T ∧ 4 * s.glND.1 * (T - l) < 1000000000 * s.glND.2
    let usable : Prop := e.natAbs ≤ s.rf page 0x21C 19 0 ∨ (s.calSource 1 = 2 ∧ k.state = 1)
    (s.calSource c = 1 →
      Gives (.ptpMeasurement c o) s (fun t => t.rd page (clkOff c + 0x38) = toField 32 (clampI (-(2 ^ 31)) (2 ^ 31 - 1) o) ∧
        (t.clock c).state = (if s.adjust c (-o) = .refused then 3 else 2) ∧
        (s.adjust c (-o) = .accepted → (t.clock c).slew = (s.clock c).slew - o) ∧
        (s.adjust c (-o) = .stepped → (t.clock c).slew = 0 ∧ (t.clock c).arm = false) ∧
        (s.adjust c (-o) = .refused → (t.clock c) = { s.clock c with state := 3 }) ∧
        regsKept s t ([regKey page (clkOff c + 0x38), regKey page 0x010] ++ tallyKeys page) ∧ rest t) ∧
      Gives (.announceTimeout c) s (fun t => t.time = (s.setClock c { s.clock c with state := 3 }).time ∧ regsKept s t [regKey page 0x010] ∧
        { t with regs := s.regs, time := s.time } = s)) ∧
    (glitch → Gives (.genlockEdge) s fun t => t.rd page 0x218 = min 0xFFFFFFFF (s.rd page 0x218 + 1) ∧
      regsKept s t ([regKey page 0x210, regKey page 0x218] ++ tallyKeys page) ∧ { t with regs := s.regs } = s) ∧
    (¬ glitch → Gives (.genlockEdge) s fun t => t.rd page 0x214 = toField 32 (clampI (-(2 ^ 31)) (2 ^ 31 - 1) e) ∧
      t.rd64 page 0x220 = s.reading ∧ t.time.glLast = some T ∧ rest t ∧
      (¬ usable ∨ s.calSource 1 ≠ 2 → t.time = { s.time with glLast := some T }) ∧
      (usable → s.calSource 1 = 2 →
        (s.time.glFirst = true ∨ k.state ≠ 2 →
          (s.adjust 1 (-e) = .refused → (t.clock 1).state = 3 ∧ t.rb page 0x210 4 = true) ∧
          (s.adjust 1 (-e) ≠ .refused → (t.clock 1).state = 2 ∧ t.rb page 0x210 2 = false ∧ t.rb page 0x010 11 = true)) ∧
        (s.time.glFirst = false → k.state = 2 → 2 ^ 32 - 429496 ≤ t.rate 1 ∧ t.rate 1 ≤ 2 ^ 32 + 429496 ∧ t.clock 1 = k))) ∧
    Gives (.refLost) s (fun t => t.rb page 0x210 2 = true ∧ t.rb page 0x010 10 = true ∧
      (s.calSource 1 = 2 → (t.clock 1).state = 3) ∧ (s.calSource 1 ≠ 2 → t.time = s.time) ∧
      regsKept s t ([regKey page 0x210, regKey page 0x010] ++ tallyKeys page) ∧ { t with regs := s.regs, time := s.time } = s) ∧
    (Gives (.tsCapture ch info) s fun t => ∃ x : TsEntry,
      t.tsQueue ch = (if (s.tsQueue ch).length < 16 then s.tsQueue ch ++ [x] else s.tsQueue ch) ∧
      t.rb (tsPage ch) 0x010 (if (s.tsQueue ch).length < 16 then 8 else 9) = true ∧
      (x.reading : Int) = ((s.reading : Int) + s.tsCorrection ch) % 2 ^ 64 ∧ x.info = info &&& 0xFFFFFF0F ∧
      (∀ j, s.tsCalendar (ch.val / 2) (fld info 15 8) = some j →
        ((x.calSec * 1000000000 + x.calNs : Nat) : Int) =
          ((((s.clock j).sec * 1000000000 + (s.clock j).ns : Nat) : Int) + s.tsCorrection ch) % (2 ^ 48 * 1000000000)) ∧
      (ch.val % 2 = 0 → info % 16 = 2 → NMap.find t.time.pdelay (ch.val / 2) = some x) ∧
      (ch.val % 2 = 1 ∨ info % 16 ≠ 2 → t.time.pdelay = s.time.pdelay) ∧
      (s.oneStep ch info = true → info % 16 = 0 → t.out = s.out ++ [.sync (ch.val / 2) x.info x.calSec x.calNs]) ∧
      (∀ q, s.oneStep ch info = true → info % 16 = 3 → NMap.find s.time.pdelay (ch.val / 2) = some q → q.info / 256 = x.info / 256 →
        t.out = s.out ++ [.pdelayResp (ch.val / 2) x.info ((x.reading + 2 ^ 64 - q.reading) % 2 ^ 64)]) ∧
      (s.oneStep ch info = false ∨ (info % 16 ≠ 0 ∧ info % 16 ≠ 3) → t.out = s.out) ∧
      regsKept s t (regKey (tsPage ch) 0x010 :: tallyKeys (tsPage ch)) ∧
      { t with regs := s.regs, out := s.out, free := s.free, time := s.time } = s ∧
      { t.time with ts := s.time.ts, pdelay := s.time.pdelay } = s.time ∧
      (∀ j, j ≠ ch.val → t.tsQueue j = s.tsQueue j)) ∧
    (mayWrite s id (tsPage ch) 0x124 → Gives (.tsPop id ch) s fun t => t = { s.setTsQueue ch (s.tsQueue ch).tail with bus := ⟨0, 0⟩ })

/-! ### Adit ports, the Adpor protocol and net boot -/

/-- R541-R544: a request that passes its checks is executed when its number follows LAST, which takes it, and its reply is kept; a repeated
number sends the kept reply again and executes nothing; any other number, and a wrong tag, changes only counters. R552: a frame that arrives
while the device is busy waits in the receive queue, which both ports share; one that finds 32 frames there is dropped, counted and raised. -/
def Obligations.AdporRequests : Prop :=
  ∀ (p : Fin 2) (b : List Byte) (d : Dgram) (type seq : Nat) (sess : Fin 8) (k : List Byte) (s : State),
    (rxTaken s p b →
      (s.rxq.length < 32 → Gives (.adporDatagram p ⟨b, true⟩) s fun t =>
        t.rxq = s.rxq ++ [⟨p, b, s.rd (aditPage p) 0x110, s.rf (aditPage p) 0x114 15 0⟩] ∧
        t.rd64 (aditPage p) 0x118 = (s.rd64 (aditPage p) 0x118 + 1) % 2 ^ 64 ∧ regsKept s t (rxKeys p) ∧
        { t with regs := s.regs, rxq := s.rxq } = s) ∧
      (32 ≤ s.rxq.length → Gives (.adporDatagram p ⟨b, true⟩) s fun t =>
        t.rd (aditPage p) 0x120 = min 0xFFFFFFFF (s.rd (aditPage p) 0x120 + 1) ∧ t.rb (aditPage p) 0x010 9 = true ∧
        regsKept s t ([regKey (aditPage p) 0x120, regKey (aditPage p) 0x010] ++ tallyKeys (aditPage p)) ∧ { t with regs := s.regs } = s)) ∧
    (adporArrives s p b d → adporHeader s p d type sess seq k →
    let page := aditPage 0
    let diff := (seq + 2 ^ 32 - s.rd page (sessOff sess)) % 2 ^ 32
    let kept (t : State) : Option (List Byte) := (NMap.get ({} : Session) t.sess sess).kept
    let q := s.rf page (sessOff sess + 8) 16 16
    (¬ tagged d k → Gives (.adporDatagram p ⟨b, false⟩) s fun t => t.rd (aditPage p) 0x124 = min 0xFFFFFFFF (s.rd (aditPage p) 0x124 + 1) ∧
      t.rb (aditPage p) 0x010 8 = true ∧ regsKept s t ([regKey (aditPage p) 0x124, regKey (aditPage p) 0x010] ++ rxKeys p) ∧
      { t with regs := s.regs } = s) ∧
    (tagged d k → type = 1 →
      (1 ≤ diff → diff < 2 ^ 31 → Gives (.adporDatagram p ⟨b, false⟩) s fun t => (s.boot.window = false ∧ t.boot.window = true) ∨
        (t.rd page (sessOff sess) = seq ∧ t.rd page (sessOff sess + 4) = d.src ∧
          t.rd page (sessOff sess + 8) = d.sport + 65536 * p.val ∧ (kept t).isSome = true)) ∧
      (∀ f, diff = 0 → kept s = some f → Gives (.adporDatagram p ⟨b, false⟩) s fun t =>
        regsKept s t (rxKeys p ++ tallyKeys (aditPage q)) ∧ { t with regs := s.regs, out := s.out, adits := s.adits } = s ∧
        (sendsAtOnce s q → t.adits = s.adits ∧
          t.out = s.out ++ [.frame q (s.rd page (sessOff sess + 4)) (s.rf page (sessOff sess + 8) 15 0) f])) ∧
      ((2 ^ 31 ≤ diff ∨ (diff = 0 ∧ kept s = none)) → Gives (.adporDatagram p ⟨b, false⟩) s fun t =>
        regsKept s t (rxKeys p) ∧ { t with regs := s.regs } = s)))

/-- R545-R549, R32: a register record answers what the access of identity 8 + s answers; a burst reads and writes the words of device memory
in order, most significant byte first; a byte count that is not listed is BAD_RECORD, and a burst out of a page BURST_RANGE; WINZE_SEND
leaves its message in a free channel, and one to a full channel writes nothing; WINZE_ACK answers CHAN_STAT and the message and frees the
channel; STREAM_CTRL takes the selection. (Writes: the input record is off.) -/
def Obligations.AdporRecords : Prop :=
  ∀ (id : Ident) (x : Fin 8) (a n : Nat) (v : Word) (data : List Byte) (c : Chan) (ws : List Word) (s u : State),
    id.val = 8 + x.val →
    let answers (op st det : Nat) (body : List Byte) : List Out := [.answer x op st det body]
    let st (y : State) : Nat := if y.bus.cause = 0 then 0 else 1
    let dram : Prop := a + n ≤ dramSize ∧ ∀ k < n / 4, s.memErr id 1 (a + 4 * k) 4 = 0 ∧ s.memErr id 2 (a + 4 * k) 4 = 0
    let quiet : Prop := s.rb cagePage 0x600 0 = false
    let w := winzePage c
    (s.ueIn a 4 = none → exec (.lowWordRead id a 4) s = .next u → Gives (.regRead x a) s fun t =>
      t = { u with out := u.out ++ answers 1 (st u) u.bus.cause (if u.bus.cause = 0 then beBytes 4 u.bus.data.toNat else []) }) ∧
    (quiet → exec (.registerWrite id a 4 v.toNat) s = .next u → u.rb cagePage 0x600 0 = false → Gives (.regWrite x a v) s fun t =>
      t = { u with out := u.out ++ answers 2 (st u) u.bus.cause [] }) ∧
    (burstLen n = true → dram → noErrors s → Gives (.burstRead x a n) s fun t =>
      t.out = s.out ++ answers 3 0 0 ((List.range (n / 4)).flatMap fun k => beBytes 4 (s.ld (a + 4 * k) 4)) ∧
      { t with out := s.out, bus := s.bus } = s) ∧
    (burstLen n = false → Gives (.burstRead x a n) s fun t => t = { s with out := s.out ++ answers 3 2 0 [] }) ∧
    (burstLen n = true → regionOf a = .control → 4096 < a % 4096 + n → Gives (.burstRead x a n) s fun t =>
      t.out = s.out ++ answers 3 1 6 [] ∧ { t with out := s.out, regs := s.regs, bus := s.bus } = s) ∧
    (burstLen n = true → data.length = n → dram → noErrors s → memoryGood s → quiet → Gives (.burstWrite x a data) s fun t =>
      (∀ k < n / 4, t.ld (a + 4 * k) 4 = beAt data (4 * k) 4) ∧ memKept s t a n ∧ t.out = s.out ++ answers 4 0 0 [] ∧
      { t with out := s.out, bus := s.bus, mem := s.mem } = s) ∧
    (s.rb w 0x150 16 = true → (c.val < 56 → s.rf w 0x150 5 0 = id.val) → (∀ k ≤ 16, mayWrite s id w (0x100 + 4 * k)) → 1 ≤ ws.length → ws.length ≤ 16 → quiet →
      (s.rb w 0x148 0 = false → s.quiet w = false → (∀ e, coreDomain (s.rf w 0x150 13 8) = some e → s.domOn e = true) →
        Gives (.winzeSend x c ws) s fun t => (∀ k < ws.length, t.rd w (0x100 + 4 * k) = (nth 0 ws k).toNat) ∧
          t.rd w 0x148 = 1 + 256 * ((s.rf w 0x148 15 8 + 1) % 256) + 65536 * ws.length ∧ t.rd w 0x14C = id.val ∧
          t.out = s.out ++ [.wake (s.rf w 0x150 13 8) c] ++ answers 5 0 0 [] ∧
          t.power = { s.power with woken := t.power.woken } ∧ { t with out := s.out, bus := s.bus, regs := s.regs, power := s.power } = s) ∧
      (s.rb w 0x148 0 = true → Gives (.winzeSend x c ws) s fun t => regsKept s t (tallyKeys w) ∧
        t.out = s.out ++ answers 5 1 4 [] ∧ { t with out := s.out, bus := s.bus, regs := s.regs } = s)) ∧
    (s.rb w 0x150 16 = true → s.rf w 0x150 13 8 = id.val → (∀ o, o = 0x144 ∨ o = 0x148 ∨ (∃ k < 16, o = 0x100 + 4 * k) → mayRead s id w o) →
      NMap.find s.latch (regKey w 0x148) = none → s.rb w 0x148 0 = true → Gives (.winzeAck x c) s fun t =>
        t.out = s.out ++ answers 6 0 0 (beBytes 4 (s.rd w 0x148) ++
          (List.range (min 16 (s.rf w 0x148 20 16))).flatMap fun k => beBytes 4 (s.rd w (0x100 + 4 * k))) ∧
        t.rb w 0x148 0 = false ∧ t.rb w 0x010 8 = true ∧ regsKept s t [regKey w 0x148, regKey w 0x010] ∧
        { t with out := s.out, bus := s.bus, regs := s.regs } = s) ∧
    (data.length = 8 → beAt data 0 4 < 8 → 1 ≤ beAt data 4 2 → beAt data 4 2 ≤ 1000 → s.boot.window = false → Gives (.streamCtrl x data) s fun t =>
      (NMap.get ({} : Session) t.sess x).mask = beAt data 0 4 ∧ (NMap.get ({} : Session) t.sess x).rep = beAt data 4 2 ∧
      (NMap.get ({} : Session) t.sess x).kept = (NMap.get ({} : Session) s.sess x).kept ∧
      t.out = s.out ++ answers 7 0 0 [] ∧ { t with out := s.out, sess := s.sess } = s)

/-- R536, R537, R539, R550, R551, R556: a selected condition that stands is told in an event frame with the session's next number, and told
again the same way; a commit makes the staging list pending, or is discarded, and the list becomes the operating one; frames leave when the
gates let them; a stream of the recovery function is freed; a port shows its link. -/
def Obligations.AditEventsAndGates : Prop :=
  ∀ (id : Ident) (p : Fin 2) (up : Bool) (i : Fin 8) (cond : Nat) (k : List Byte) (s : State),
    let page := aditPage 0
    let q := s.rf page (sessOff i + 8) 16 16
    let rs := s.eventRecords i cond
    let n := (s.rd page (sessOff i + 0xC) + 1) % 2 ^ 32
    let told (t : State) : Prop := t.rd page (sessOff i + 0xC) = n ∧ regsKept s t [regKey page (sessOff i + 0xC)] ∧
      t.out = s.out ++ [.frame q (s.rd page (sessOff i + 4)) (NMap.get ({} : Session) s.sess i).dport (taggedFrame k 3 i n rs.flatten)] ∧
      { t with regs := s.regs, out := s.out } = s
    (cond < 3 → bit (NMap.get ({} : Session) s.sess i).mask cond = true → s.sessOpen i 1 = true → s.sessKey i = some k → sendsAtOnce s q →
      rs ≠ [] → rs.length ≤ 90 → Gives (.adporEventSend i cond) s told ∧ Gives (.adporEventRepeat i cond) s told) ∧
    (mayWrite s id (aditPage p) 0x138 →
      let len := s.rf (aditPage p) 0x134 6 0
      let cycle := s.rf (aditPage p) 0x130 29 0
      let rows := (List.range len).map fun j => (s.rf (aditPage p) (0x200 + 4 * j) 7 0, s.rf (aditPage p) (0x200 + 4 * j) 31 8)
      (1 ≤ len → len ≤ 64 → 1000 ≤ cycle → cycle ≤ 1000000000 → (∀ r ∈ rows, r.2 ≠ 0) → Gives (.qbvCommit id p) s fun t =>
        (∃ g, (t.adit p).pending = some (⟨s.rd64 (aditPage p) 0x128, cycle, rows⟩, g) ∧ s.time.c2.t + 1000 ≤ g ∧
          (g = s.rd64 (aditPage p) 0x128 ∨ g < s.time.c2.t + 1000 + cycle) ∧ ∃ j, g = s.rd64 (aditPage p) 0x128 + j * cycle) ∧
        (t.adit p).oper = (s.adit p).oper ∧ { t with adits := s.adits, bus := s.bus } = s) ∧
      ((len = 0 ∨ 64 < len ∨ cycle < 1000 ∨ 1000000000 < cycle ∨ ∃ r ∈ rows, r.2 = 0) → Gives (.qbvCommit id p) s fun t => onlyRegs s t [])) ∧
    (∀ l g, (s.adit p).pending = some (l, g) → Gives (.qbvChange p) s fun t => (t.adit p).oper = some l ∧ (t.adit p).pending = none ∧
      t.rb (aditPage p) 0x010 10 = true ∧ regsKept s t [regKey (aditPage p) 0x010] ∧
      { t with regs := s.regs, adits := s.adits, out := s.out } = s) ∧
    Gives (.qbvGateEntry p) s (fun t => t.regs = s.regs ∧ { t with adits := s.adits, out := s.out } = s ∧
      (s.rb (aditPage p) 0x100 19 = false → (∀ e ∈ (s.adit p).queue, e.1 < 8) →
        (t.adit p).queue = [] ∧ t.out.length = s.out.length + (s.adit p).queue.length)) ∧
    (NMap.rising s.cb = true → Gives (.cbStreamReset i) s fun t => NMap.find t.cb i = none ∧
      (∀ j, j ≠ i.val → NMap.find t.cb j = NMap.find s.cb j) ∧ { t with cb := s.cb } = s) ∧
    Gives (.aditLinkChange p up) s (fun t => t.rb (aditPage p) 0x104 0 = up ∧
      (s.rb (aditPage p) 0x104 0 ≠ up → t.rb (aditPage p) 0x010 11 = true) ∧
      onlyRegs s t [regKey (aditPage p) 0x104, regKey (aditPage p) 0x010])

/-- R553, R554, R594, R595: the boot ROM requests on alternating ports; an offer starts the reads; data of the outstanding read are stored in
the firmware region and acknowledged by the next read; a read unanswered is sent again eight times; a provisioning record sets K_P; an
announcement goes out on both ports while a session owes its first request. (The ports send at once.) -/
def Obligations.NetBoot : Prop :=
  ∀ (p : Fin 2) (b : List Byte) (d : Dgram) (k : List Byte) (s : State), s.sessKey 0 = some k → s.boot.testLow = false →
    sendsAtOnce s 0 → sendsAtOnce s 1 → s.boot.net.port < 2 →
    let x := s.boot.net
    let rec' := sliceL d.payload 8 (d.payload.length - 24)
    let body := rec'.drop 4
    let boots (op : Nat) : Prop := adporArrives s p b d ∧ adporHeader s p d 4 0 x.seq k ∧ tagged d k ∧ s.boot.window = true ∧
      leAt rec' 0 1 = op ∧ leAt rec' 1 1 = 0 ∧ body.length = beAt rec' 2 2
    let read (t : State) (port ip udp seq off n : Nat) : Prop :=
      t.out = s.out ++ [.frame port ip udp (taggedFrame k 4 0 seq (bootRecord 0x12 (beBytes 4 off ++ beBytes 4 n)))]
    (x.phase = 1 → Gives .bootReq s fun t => t.boot.net = { x with attempt := x.attempt + 1, seq := 1 } ∧
      t.out = s.out ++ [.frame (x.attempt % 2) (2 ^ 32 - 1) 47120 (taggedFrame k 4 0 1
        (bootRecord 0x10 (leBytes 1 0xB0 ++ leBytes 3 0 ++ beBytes 8 Config.serial.toNat ++ beBytes 4 ((x.attempt + 1) % 2 ^ 32))))] ∧
      t.mem = s.mem) ∧
    (boots 0x11 → x.phase = 1 → s.boot.step ≠ 4 → body.length = 4 → 1 ≤ beNat body → beNat body ≤ 0x4000000 →
      Gives (.bootOffer p b) s fun t => t.boot.net.phase = 2 ∧ t.boot.net.len = beNat body ∧ t.boot.net.off = 0 ∧
        t.boot.net.seq = x.seq + 1 ∧ read t p d.src d.sport (x.seq + 1) 0 (min 1024 (beNat body)) ∧ t.mem = s.mem) ∧
    (boots 0x13 → x.phase = 2 → beAt body 0 4 = x.off → body.length = 4 + min 1024 (x.len - x.off) → memoryGood s → noErrors s →
      Gives (.bootData p b) s fun t => t.ldBytes (fwBase + x.off) (body.length - 4) = body.drop 4 ∧
        memKept s t (fwBase + x.off) (body.length - 4) ∧ t.boot.net.off = x.off + min 1024 (x.len - x.off) ∧
        (x.off + 1024 < x.len → t.boot.net.phase = 2 ∧ read t x.port x.ip x.udp (x.seq + 1) (x.off + 1024) (min 1024 (x.len - (x.off + 1024)))) ∧
        (x.len ≤ x.off + 1024 → t.boot.net.phase = 3 ∧ t.out = s.out)) ∧
    (boots 0x15 → s.boot.step = 4 → body.length = 32 → Gives (.bootProvision p b) s fun t =>
      t.boot.nvKey = some (BitVec.ofNat 256 (beNat body)) ∧ t.boot.step = 5 ∧
      t.boot.keys = some (BitVec.ofNat 256 (beNat body), s.boot.nvResetCount) ∧ t.mem = s.mem) ∧
    (x.phase = 2 → x.again < 8 → Gives .bootReadTimeout s fun t => t.boot.net = { x with again := x.again + 1, seq := x.seq + 1 } ∧
      read t x.port x.ip x.udp (x.seq + 1) x.off (min 1024 (x.len - x.off)) ∧ t.mem = s.mem) ∧
    (x.phase = 2 → 8 ≤ x.again → Gives .bootReadTimeout s fun t => t.boot.net.phase = 1 ∧ t.out = s.out) ∧
    (s.boot.step = 4 → Gives .provisionTimeout s fun t => t.boot.step = 5 ∧ t.boot.keys = s.boot.keys ∧ t.boot.nvKey = s.boot.nvKey) ∧
    (s.boot.window = false → (∃ i < 8, s.rb bootPage 0x180 i = true ∧ s.boot.announced.contains i = false) →
      Gives .bootAnnounce s fun t =>
        let f := taggedFrame k 4 0 1 (bootRecord 0x14 (beBytes 8 Config.serial.toNat ++ beBytes 8 s.boot.nvResetCount))
        t = { s with out := s.out ++ [.frame 0 (2 ^ 32 - 1) 47120 f, .frame 1 (2 ^ 32 - 1) 47120 f] })

/-! ### Crosscut links, walls and pairs -/

/-- R557, R559, R561, R562, R569, R570: a port that is enabled trains; training leaves it DOWN, MISMATCH, PEER_RESET or UP, and an UP port
sends again what it holds; a retrained port keeps what it holds, and RESYNC discards it; a NAK replays the flits from the one that it names;
a flit that fails is answered with NAK; heartbeats are sent, taken and missed. -/
def Obligations.CrosscutLinks : Prop :=
  ∀ (id : Ident) (p : Fin 4) (peer seq k : Nat) (crc : Bool) (f : List Byte) (s : State),
    let pg := xcPage p
    let x := s.port p
    let link := [regKey pg 0x104, regKey pg 0x010]
    let n := fld peer 63 32
    (mayWrite s id pg 0x008 → s.en pg = false → s.xcRole p ≠ 0 →
      Gives (.xcEnable id p) s fun t => t.en pg = true ∧ t.xcState p = 1 ∧ onlyRegs s t (regKey pg 0x008 :: link)) ∧
    (s.xcState p = 1 → s.en pg = true → s.pageOn pg = true →
      (bit peer 11 = true → Gives (.xcTrainingDone p peer) s fun t => t.xcState p = 0 ∧ t.rb pg 0x010 8 = true ∧ onlyRegs s t link) ∧
      (bit peer 11 = false → s.peerFits p peer = false → Gives (.xcTrainingDone p peer) s fun t => t.xcState p = 3 ∧ onlyRegs s t link) ∧
      (∀ m, bit peer 11 = false → s.peerFits p peer = true → x.peerReset = some m → m ≠ n →
        Gives (.xcTrainingDone p peer) s fun t => t.xcState p = 4 ∧ onlyRegs s t link) ∧
      (bit peer 11 = false → s.peerFits p peer = true → (x.peerReset = none ∨ x.peerReset = some n) → x.queue = [] →
        (∀ h, ∀ j ∈ s.hoist h, j.port ≠ some p.val) →
        Gives (.xcTrainingDone p peer) s fun t => t.xcState p = 2 ∧ t.port p = { x with peerReset := some n } ∧
          t.rf pg 0x104 17 16 = fld peer 1 0 ∧ t.out = s.out ++ x.held.map (fun g => .flit p g) ∧
          { t with regs := s.regs, xc := s.xc, out := s.out, frameSum := s.frameSum } = s)) ∧
    (s.xcUp p = true → s.xcRole p ≠ 0 → Gives (.xcLinkRetrain p) s fun t => t.xcState p = 1 ∧ t.port p = { x with replays := 0 } ∧
      regsKept s t link ∧ { t with regs := s.regs, xc := s.xc } = s) ∧
    (mayWrite s id pg 0x108 → s.en pg = true → s.xcRole p ≠ 0 →
      Gives (.retrain id p) s (fun t => t.xcState p = 1 ∧ onlyRegs s t link) ∧
      Gives (.resync id p) s (fun t => t.xcState p = 1 ∧
        t.port p = { x with txSeq := 0, rxSeq := 0, held := [], tags := [], replays := 0, peerReset := none } ∧
        regsKept s t link ∧ { t with regs := s.regs, xc := s.xc, bus := s.bus } = s)) ∧
    (s.xcUp p = true → x.queue = [] → k < x.held.length → (x.held.map flitSeq).idxOf (seq % 2 ^ 16) = k →
      Gives (.flitNak p seq) s fun t => (t.port p).held = x.held.drop k ∧ t.out = s.out ++ (x.held.drop k).map (fun g => .flit p g) ∧
        { t with regs := s.regs, xc := s.xc, out := s.out, frameSum := s.frameSum } = s) ∧
    (s.xcUp p = true → x.queue = [] → seq % 2 ^ 16 = x.txSeq → (∀ g ∈ x.held, flitSeq g ≠ x.txSeq) →
      Gives (.flitNak p seq) s fun t => t.port p = { x with held := [], replays := 0 } ∧ { t with xc := s.xc } = s) ∧
    (s.xcUp p = true → Gives (.flitDiscarded p crc) s fun t =>
      t.out = s.out ++ [.flit p (sealFlit (flitBody 0 true false 0 0 x.rxSeq 0 0 []))] ∧
      (let o := if crc then 0x110 else 0x10C
       t.rd pg o = min 0xFFFFFFFF (s.rd pg o + 1)) ∧ { t with regs := s.regs, out := s.out } = s) ∧
    ((List.range 4).filter s.xcUp = [p.val] → portReady s p → Gives .heartbeat s fun t =>
      sentFlit s t p 0xE 0 0 (leBytes 8 (s.gcount / 4 * 4) ++ leBytes 1 (b2n s.standby + 2 * b2n s.faultOut + 4 * b2n s.takeOut)) ∧
      regsKept s t (linkKeys p) ∧ { t with regs := s.regs, out := s.out, xc := s.xc } = s) ∧
    (flitTaken s p 0xE f →
      let g := leAt (flitPayload f) 0 8
      Gives (.heartbeatReceive p f) s fun t => t.rd64 pg 0x118 = g ∧ (t.port p).rxSeq = (x.rxSeq + 1) % 2 ^ 16 ∧
        (s.time.c2.t ≤ 1024 * g + 2048 → (t.port p).misses = 0 ∧ (t.port p).hbGot = some g) ∧
        (1024 * g + 2048 < s.time.c2.t → (t.port p).misses = x.misses ∧ (t.port p).hbGot = x.hbGot) ∧
        regsKept s t ([regKey pg 0x118, regKey pg 0x11C] ++ linkKeys p) ∧ { t with regs := s.regs, xc := s.xc } = s) ∧
    (s.en pg = true → x.peerReset.isSome = true → x.hbGot ≠ some (s.hbEdge 2) →
      Gives (.xcHbMiss p) s fun t => (t.port p).misses = min 3 (x.misses + 1) ∧ t.rd pg 0x114 = min 0xFFFFFFFF (s.rd pg 0x114 + 1) ∧
        t.rb pg 0x010 9 = true ∧
        t.takePend = (s.takePend || (decide (2 ≤ x.misses) && decide (s.xcRole p = 2) && s.pairEn && s.standby)) ∧
        regsKept s t ([regKey pg 0x114, regKey pg 0x010] ++ tallyKeys pg) ∧ { t with regs := s.regs, xc := s.xc, takePend := s.takePend } = s)

/-- R564-R568, R573, R583, R92: a write and a read through a window act on memory and are answered, with a STATUS alone when the grants
refuse; answers free their tag and reach their copy; a halo run that R92 accepts is written, and a strip that it refuses is rejected; chunks
and late notices are kept; a broadcast launch later than the last is applied as an ARM; a forwarded pose is kept or latched. (No other port
is UP, and the port sends at once.) -/
def Obligations.CrosscutTraffic : Prop :=
  ∀ (id : Ident) (p : Fin 4) (f : List Byte) (strict : Bool) (s : State), (∀ q < 4, q ≠ p.val → s.xcUp q = false) → noErrors s → memoryGood s →
    let pl := flitPayload f
    let off := fld (flitArg f) 39 0
    let tag := flitTag f
    let link (t : State) : Prop := regsKept s t (linkKeys p) ∧ { t with regs := s.regs, xc := s.xc, out := s.out, mem := s.mem } = s
    let armed (t : State) (page list g origin seed : Nat) (strict : Bool) (by' : Nat) : Prop :=
      NMap.find t.launches page = some { launchOf s page (s.activeFaces page) (some g) strict by' with
        list := list % 2 ^ 40 / 16 * 16, origin := origin, seed := seed }
    let may (who page : Nat) : Prop := launchable s page ∧ s.unitLocked page = false ∧
      ∀ o, o ∈ [0x058, 0x060, 0x068, 0x070, 0x080] → mayWrite s who page o
    (portReady s p →
      (flitTaken s p 1 f →
        (∀ a, s.remoteStatus p 2 off pl.length = 0 → windowRanges off pl.length = some [(a, pl.length)] →
          Gives (.memWr p f) s fun t => t.ldBytes a pl.length = pl ∧ memKept s t a pl.length ∧ sentFlit s t p 4 tag 0 [] ∧ link t) ∧
        (s.remoteStatus p 2 off pl.length ≠ 0 → Gives (.memWr p f) s fun t =>
          t.mem = s.mem ∧ sentFlit s t p 4 tag (s.remoteStatus p 2 off pl.length) [] ∧ link t)) ∧
      (flitTaken s p 2 f →
        let n := min 236 (fld (flitArg f) 55 40)
        (∀ a, s.remoteStatus p 1 off n = 0 → windowRanges off n = some [(a, n)] → Gives (.memRd p f) s fun t =>
          t.mem = s.mem ∧ sentFlit s t p 3 tag 0 (s.ldBytes a n) ∧ link t) ∧
        (s.remoteStatus p 1 off n ≠ 0 → Gives (.memRd p f) s fun t =>
          t.mem = s.mem ∧ sentFlit s t p 3 tag (s.remoteStatus p 1 off n) [] ∧ link t))) ∧
    (∀ (u : TagUse) (j : HoistJob), NMap.rising (s.port p).tags = true → NMap.find (s.port p).tags tag = some u →
      (s.hoist u.hoist).find? (fun i => i.id == u.job) = some j → j.todo = [] →
      (∀ h, ∀ i ∈ s.hoist h, i.port = some p.val → i.todo = []) → fld (flitArg f) 7 0 = 0 →
      let after (t : State) (y : HoistJob) : Prop := NMap.find (t.port p).tags tag = none ∧
        (t.hoist u.hoist).find? (fun i => i.id == u.job) = some y ∧ t.out = s.out ∧ t.mem = s.mem ∧
        { t with regs := s.regs, xc := s.xc, hoists := s.hoists } = s
      (flitTaken s p 3 f → j.reading = true → 2 ≤ j.waiting → Gives (.memRsp p f) s fun t =>
        after t { j with waiting := j.waiting - 1, got := NMap.put j.got u.piece pl }) ∧
      (flitTaken s p 4 f → j.reading = false → (j.through = false ∨ 2 ≤ j.waiting) → Gives (.memAck p f) s fun t => after t { j with waiting := j.waiting - 1 })) ∧
    (∀ a q, flitTaken s p 5 f →
      let bs := pl.drop 16
      let accepts := s.haloOk q (leAt pl 0 4) (leAt pl 8 4)
      windowRanges off bs.length = some [(a, bs.length)] → s.stripAt a = some q →
      (accepts = true → s.hFrame (s.slotHdr q.g false q.i) = leAt pl 0 4 → flitLast f = false →
        Gives (.halo p f) s fun t => t.ldBytes a bs.length = bs ∧ memKept s t a bs.length ∧ t.out = s.out ∧ link t) ∧
      (accepts = false → flitLast f = true → Gives (.halo p f) s fun t => t.mem = s.mem ∧ t.rb cagePage 0x010 13 = true ∧
        regsKept s t (regKey cagePage 0x010 :: (tallyKeys cagePage ++ linkKeys p)) ∧ { t with regs := s.regs, xc := s.xc } = s)) ∧
    (flitTaken s p 6 f → s.red = none → (∀ g ∈ s.adGroups, (s.ad g).mismatch = false) → Gives (.reduce p f) s fun t =>
      t.redWait = s.redWait ++ [(p.val + 4 * b2n (flitLast f), pl)] ∧ regsKept s t (linkKeys p) ∧
      { t with regs := s.regs, xc := s.xc, redWait := s.redWait } = s) ∧
    (flitTaken s p 7 f →
      (leAt pl 0 1 = 2 → s.adGroups = [] → NMap.find s.lateSeen (leAt pl 2 4) = none → s.replay = false →
        (∀ g < 4, leAt pl 2 4 ∉ (s.ad g).commits) → Gives (.bcastLate p f) s fun t =>
          t.lateSeen = NMap.put s.lateSeen (leAt pl 2 4) true ∧ regsKept s t (linkKeys p) ∧
          { t with regs := s.regs, xc := s.xc, lateSeen := s.lateSeen } = s) ∧
      (leAt pl 0 1 = 2 → (s.replay = true ∨ (NMap.find s.lateSeen (leAt pl 2 4)).isSome = true) → Gives (.bcastLate p f) s fun t =>
        regsKept s t (linkKeys p) ∧ { t with regs := s.regs, xc := s.xc } = s) ∧
      (leAt pl 0 1 = 1 →
        let o := leAt pl 1 1 % 64
        let page := leAt pl 4 2
        let earlier (b : Bool) : Prop := ∀ m, NMap.find s.bcastLast o = some m → laterNumber (leAt pl 2 2) m = b
        (earlier true → may (s.xcIdent p) page → s.gcount < leAt pl 14 8 → Gives (.bcastLaunch p f) s fun t =>
          NMap.find t.bcastLast o = some (leAt pl 2 2) ∧
          armed t page (leAt pl 6 8) (leAt pl 14 8) (leAt pl 22 8) (leAt pl 30 8) (leAt pl 38 1 % 2 == 1) (s.xcIdent p) ∧ t.mem = s.mem) ∧
        (earlier false → (NMap.find s.bcastLast o).isSome = true → Gives (.bcastLaunch p f) s fun t =>
          regsKept s t (linkKeys p) ∧ { t with regs := s.regs, xc := s.xc } = s))) ∧
    (flitTaken s p 8 f → s.standby = true → 72 ≤ pl.length →
      let g := leAt pl 0 1 % 4
      let b := leAt pl 1 1
      let k := bandKey g (leAt pl 4 4) b
      ((s.band k).poseWait = false → (s.band k).latched = false → Gives (.pose p f) s fun t =>
        NMap.find t.fwdPoses k = some (sliceL pl 8 64) ∧ regsKept s t (linkKeys p) ∧
        { t with regs := s.regs, xc := s.xc, fwdPoses := s.fwdPoses } = s) ∧
      ((s.band k).poseWait = true → s.rb cagePage 0x600 0 = false → Gives (.pose p f) s fun t =>
        (t.band k).latched = true ∧ (t.band k).poseWait = false ∧
        t.ldBytes (s.hgBlock g (s.bandIdx g b) + 0x80) 64 = sliceL pl 8 64 ∧ memKept s t (s.hgBlock g (s.bandIdx g b) + 0x80) 64)) ∧
    (mayWrite s id (xcPage 0) 0x238 → s.xcUp p = false →
      let page := s.rf (xcPage 0) 0x210 15 0
      let n := (s.rf (xcPage 0) 0x23C 31 16 + 1) % 2 ^ 16
      may id page → s.gcount < s.rd64 (xcPage 0) 0x220 → Gives (.bcSend id strict) s fun t =>
        t.rf (xcPage 0) 0x23C 31 16 = n ∧ NMap.find t.bcastLast s.wallByte = some n ∧
        armed t page (s.rd64 (xcPage 0) 0x218) (s.rd64 (xcPage 0) 0x220) (s.rd64 (xcPage 0) 0x228) (s.rd64 (xcPage 0) 0x230) strict id ∧
        t.mem = s.mem ∧ t.out = s.out)

/-- R575-R577, R579, R583: setting PAIR_CFG.EN deasserts FAULT_OUT unless an unrepairable fault has been detected; an event of R577 on an
enabled STANDBY device is followed, at the next line start, by the takeover: the heads of PAIR_CFG.HEADS are unmuted, TAKE_OUT is asserted
and ROLE is ACTIVE; TAKE_CLR undoes it, and does nothing otherwise; FAULT_SET asserts FAULT_OUT. -/
def Obligations.PairTakeover : Prop :=
  ∀ (id : Ident) (v : Word) (s : State),
    let pg := xcPage 0
    let heads (h : Nat) : Bool := s.rb pg 0x200 (4 + h)
    (mayWrite s id pg 0x200 →
      (s.pairEn = false → Gives (.pairEnable id v) s fun t => t.pairEn = true ∧ t.standby = bit v.toNat 1 ∧
        regsKept s t [regKey pg 0x200] ∧ { t with regs := s.regs, bus := s.bus, out := s.out, faultOut := s.faultOut } = s ∧
        (s.faultOut = true → s.unrepairable = false → t.faultOut = false ∧ t.out = s.out ++ [.pin "FAULT_OUT" false]) ∧
        ((s.faultOut = false ∨ s.unrepairable = true) → t.faultOut = s.faultOut ∧ t.out = s.out)) ∧
      (s.pairEn = true → Gives (.pairEnable id v) s fun t => onlyRegs s t [])) ∧
    (s.peerFault = false → Gives (.peerFault true) s fun t => t.peerFault = true ∧ t.rb pg 0x010 11 = true ∧
      t.takePend = (s.takePend || (s.pairEn && s.standby)) ∧ regsKept s t [regKey pg 0x010] ∧
      { t with regs := s.regs, peerFault := s.peerFault, takePend := s.takePend } = s) ∧
    Gives (.peerFault false) s (fun t => t = { s with peerFault := false }) ∧
    (s.takePend = true → s.pairEn = true → s.standby = true → Gives .takeover s fun t =>
      t.takeOut = true ∧ t.standby = false ∧ t.takePend = false ∧ t.rb pg 0x010 10 = true ∧ t.out = s.out ++ [.pin "TAKE_OUT" true] ∧
      (∀ h < 4, (heads h = true → (t.head h).mute = false ∧ t.rb (headPage h) 0x104 1 = false) ∧ (heads h = false → t.head h = s.head h)) ∧
      t.mem = s.mem ∧ t.ctxs = s.ctxs ∧ t.faces = s.faces) ∧
    (mayWrite s id pg 0x208 →
      Gives (.take id) s (fun t => t.takePend = (s.takePend || (s.pairEn && s.standby)) ∧
        { t with bus := s.bus, takePend := s.takePend } = s) ∧
      (s.takeOut = true → Gives (.takeClr id) s fun t => t.takeOut = false ∧ t.standby = true ∧ t.out = s.out ++ [.pin "TAKE_OUT" false] ∧
        (∀ h < 4, heads h = true → t.rb (headPage h) 0x104 1 = true) ∧
        regsKept s t (regKey pg 0x200 :: (List.range 4).map fun h => regKey (headPage h) 0x104) ∧
        { t with regs := s.regs, bus := s.bus, takeOut := s.takeOut, out := s.out } = s) ∧
      (s.takeOut = false → Gives (.takeClr id) s fun t => onlyRegs s t []) ∧
      (s.faultOut = false → Gives (.faultSet id) s fun t => t.faultOut = true ∧ t.unrepairable = true ∧ t.out = s.out ++ [.pin "FAULT_OUT" true] ∧
        { t with bus := s.bus, faultOut := s.faultOut, unrepairable := s.unrepairable, out := s.out } = s))

/-! ### Boot, installs, calibration and attestation -/

/-- R50, R589, R593, R596-R598, R601-R604, R606, R607: the steps of boot that read the fuses, count the reset, derive the keys, and find the flash
unreadable; BOOT_LOCK from the boot agent closes the window, measures the protection set-up and starts the cores, each of which is told of
the channels that are FULL for it (R50); a COMMIT while no image has passed
changes nothing (log entry 38); the net-boot address; an install is checked and ends with its RESULT; RESTORE_FACTORY and the
calibration change; a report is requested and written. -/
def Obligations.BootAndSecurity : Prop :=
  ∀ (id : Ident) (n : Nat) (v : Word) (s : State),
    let b := s.boot
    let page := bootPage
    let onlyBoot (t : State) : Prop := { t with bus := s.bus, boot := s.boot } = s
    (s.power.aligned = true →
      (b.step = 1 → Gives (.bootStepComplete n) s fun t => t.boot.step = (if Config.fusesGood then 2 else 0) ∧ t.mem = s.mem ∧
        (s.rf page 0x01C 15 0 = 0 → t.rf page 0x01C 15 0 = if Config.fusesGood then 0 else 0xF001)) ∧
      (b.step = 2 → Gives (.bootStepComplete n) s fun t => t = { s with boot := { b with step := 3, nvResetCount := (b.nvResetCount + 1) % 2 ^ 64 } }) ∧
      (∀ key, b.step = 3 → b.nvKey = some key → Gives (.bootStepComplete n) s fun t => t.boot.step = (if b.provN then 5 else 4) ∧
        t.boot.keys = some (key, b.nvResetCount) ∧ { t with boot := s.boot } = s) ∧
      (b.step = 7 → n ≠ 0 → Gives (.bootStepComplete n) s fun t => t.boot.step = 8 ∧ t.rf page 0x100 15 8 = 7 ∧ t.boot.net.phase = 1 ∧
        t.mem = s.mem)) ∧
    (id.val = 0 → mayWrite s id page 0x104 → b.window = true → Gives (.bootLock id) s fun t => t.boot.window = false ∧ t.rd page 0x104 = 1 ∧
      t.rf page 0x100 2 0 = 4 ∧ (∀ k < 8, t.rd page (0x160 + 4 * k) = leAt s.bindDigest (4 * k) 4) ∧
      regsKept s t ([regKey page 0x104, regKey page 0x100] ++ (List.range 8).map fun k => regKey page (0x160 + 4 * k)) ∧
      (∀ i c, i ∈ allCores → i ≠ 1 → t.coreAlive i = true → wakesFor t i c → Out.wake i c ∈ t.out) ∧
      { t with regs := s.regs, bus := s.bus, boot := s.boot, power := s.power, out := s.out } = s) ∧
    (id.val ≠ 0 → b.window = true → Gives (.bootLock id) s fun t => busEnded s t id page 3) ∧
    (mayWrite s id page 0x224 → b.imageOk = false → Gives (.svnCommit id) s fun t => onlyRegs s t []) ∧
    (mayWrite s id page 0x184 → Gives (.nvIpv4Write id v) s fun t => t.boot = { b with nvIpv4 := v.toNat } ∧ onlyBoot t) ∧
    (mayWrite s id page 0x188 → s.quiet page = false → 1 ≤ n → n ≤ 3 →
      let r := s.installCheck id n
      (b.install = none → b.calPending = none → noErrors s → Gives (.install id n) s fun t =>
        t.boot.install = some (n, r.1, if r.1 = 0 then r.2 else []) ∧ (r.1 ≠ 0 → t.boot.flash = b.flash) ∧ onlyBoot t) ∧
      ((b.install.isSome = true ∨ b.calPending.isSome = true) → Gives (.install id n) s fun t =>
        t.rf page 0x18C 15 8 = 1 ∧ onlyRegs s t [regKey page 0x18C])) ∧
    (∀ kind r bytes, b.install = some (kind, r, bytes) → r < 256 → Gives .instDone s fun t => t.boot.install = none ∧ t.rf page 0x18C 15 8 = r ∧
      t.rb page 0x010 8 = true ∧ t.mem = s.mem ∧ (r = 0 → kind = 3 → t.boot.calPending = some true) ∧ (r ≠ 0 → t.boot.flash = b.flash) ∧
      (r ≠ 0 → s.rf page 0x01C 15 0 = 0 → t.rf page 0x01C 15 0 = 0xF006)) ∧
    (mayWrite s id page 0x19C → Gives (.restoreFactory id) s fun t => t.boot.calPending = some false ∧
      (∀ bytes, b.install = some (3, 0, bytes) → t.boot.install = some (3, 6, [])) ∧ onlyBoot t) ∧
    (b.calPending = some false → s.calBoundary = true → Gives .calApplied s fun t => t.boot = { b with calPending := none, overlay := [] } ∧ t.rb page 0x010 10 = true ∧
      regsKept s t [regKey page 0x010] ∧ { t with regs := s.regs, boot := s.boot } = s) ∧
    (mayWrite s id page 0x1A4 → s.quiet page = false → b.att = none → b.window = false → Gives (.attGo id) s fun t => t.boot = { b with att := some id.val } ∧
      t.rf page 0x1A8 15 8 = 1 ∧ regsKept s t [regKey page 0x1A8] ∧ { t with regs := s.regs, bus := s.bus, boot := s.boot } = s) ∧
    (∀ i, b.att = some i → s.rb cagePage 0x654 0 = true →
      let a := s.rd64 page 0x1B0
      let h := s.attHead b.leafNext
      (b.leafNext < 1048576 → s.memOk i 2 a 4096 = true → memoryGood s → noErrors s → Gives .attDone s fun t =>
        t.boot = { b with att := none, leafNext := b.leafNext + 1,
                          nvLeafLimit := if b.leafNext = b.nvLeafLimit then b.nvLeafLimit + 64 else b.nvLeafLimit } ∧
        t.ldBytes a h.length = h ∧ memKept s t a (h.length + 3840) ∧ t.rf page 0x1A8 15 8 = 0 ∧ t.rb page 0x010 9 = true) ∧
      (b.leafNext < 1048576 → s.memOk i 2 a 4096 = false → Gives .attDone s fun t => t.boot = { b with att := none } ∧ t.mem = s.mem ∧
        t.rf page 0x1A8 15 8 = 2 ∧ t.rb page 0x010 9 = true) ∧
      (1048576 ≤ b.leafNext → Gives .attDone s fun t => t.boot = { b with att := none } ∧ t.mem = s.mem ∧ t.rf page 0x1A8 15 8 = 3 ∧
        t.rb page 0x010 9 = true))

/-! ### Resets, power and thermal -/

/-- R598: COMMIT raises SVN_FLOOR to the SVN of the running image (0 to 32), and has no effect where it is that high already. Afterwards an
image of a lower SVN does not pass, and one that fails no other check fails check 0x04. -/
def Obligations.SvnCommitRaisesTheFloor : Prop :=
  ∀ (id : Ident) (s : State), mayWrite s id bootPage 0x224 → s.boot.imageOk = true → s.rd bootPage 0x118 ≤ 32 →
    Gives (.svnCommit id) s fun t =>
      (s.boot.svnFloor < s.rd bootPage 0x118 → t.boot.svnFloor = s.rd bootPage 0x118) ∧
      (s.rd bootPage 0x118 ≤ s.boot.svnFloor → t.boot.svnFloor = s.boot.svnFloor) ∧
      { t with bus := s.bus, boot := { t.boot with svnFloor := s.boot.svnFloor } } = s ∧
      ∀ img, leAt img 0x10 4 < s.rd bootPage 0x118 →
        imageError t.boot.svnFloor img ≠ 0 ∧ (imageError 0 img = 0 → imageError t.boot.svnFloor img = 4)

/-- R611-R615: a power-on reset clears every register and store and keeps the fuses, the non-volatile store and the flash; a warm reset keeps
DRAM, the always-on domain, the clocks and the sump, and gives every other register its reset value; both assert FAULT_OUT and open the boot
window; the alignment edge is noted. -/
def Obligations.Resets : Prop :=
  ∀ (id : Ident) (straps : Nat) (s : State),
    let nv (t : State) : Prop := t.boot.nvKey = s.boot.nvKey ∧ t.boot.nvResetCount = s.boot.nvResetCount ∧
      t.boot.nvLeafLimit = s.boot.nvLeafLimit ∧ t.boot.nvIpv4 = s.boot.nvIpv4 ∧ t.boot.svnFloor = s.boot.svnFloor ∧
      t.boot.flash = s.boot.flash ∧ t.boot.leafNext = s.boot.nvLeafLimit
    let opened (t : State) : Prop := t.boot.window = true ∧ t.faultOut = true ∧ t.takeOut = false ∧ t.unrepairable = false ∧
      t.pending = s.pending ∧ t.ctxs = [] ∧ t.faces = [] ∧ t.heads = [] ∧ t.launches = [] ∧ t.gflags = [] ∧ t.rxq = []
    let cold (t : State) : Prop := nv t ∧ opened t ∧ t.regs = [] ∧ t.mem = [] ∧ t.sump = [] ∧ t.time = {}
    let warm (t : State) (cause : Nat) : Prop := nv t ∧ opened t ∧ t.sump = s.sump ∧
      { t.time with c1 := s.time.c1, c2 := s.time.c2 } = s.time ∧
      (∀ c, c = 1 ∨ c = 2 → { t.clock c with state := 0 } = { s.clock c with state := 0 } ∧
        (t.clock c).state = if s.calSource c = 1 ∧ (s.clock c).state = 2 then 3 else (s.clock c).state) ∧
      (∀ a, a < dramSize → Memory.read t.mem a = Memory.read s.mem a) ∧ (∀ a, dramSize ≤ a → a < 2 ^ 40 → Memory.read t.mem a = 0) ∧
      (∀ p o, o < 4096 → pageDomain p ≠ 0 → t.rd p o = (regReset (regKey p o)).toNat) ∧
      (∀ o, 0x100 ≤ o → o < 4096 → t.rd timePage o = s.rd timePage o) ∧ t.rd pwrPage 0x118 = cause + 16 * b2n s.power.crit
    Gives (.powerOnReset straps) s (fun t => cold t ∧ t.boot.provN = bit straps 0 ∧ t.boot.bootNetN = bit straps 1 ∧
      t.boot.step = if bit straps 2 then 1 else 0) ∧
    Gives .aonUndervoltage s cold ∧
    Gives .warmReset s (fun t => warm t 2) ∧
    (mayWrite s id pwrPage 0x114 → Gives (.rstCmdWarm id) s fun t => warm t 4) ∧
    Gives .alignmentEdge s (fun t => t = { s with power := { s.power with aligned := true } })

/-- R50, R617-R619, R622, R623: a request of a device state that meets its conditions turns off exactly the domains outside the state, and is
done when the others are up; a request that does not is refused with its code and changes nothing; DOM_REQ starts domains, and turns one
off, or says why not; a domain comes up with its registers at reset, RWL registers excepted, and its cores are told of the channels that are
FULL for them (R50). -/
def Obligations.PowerStates : Prop :=
  ∀ (id : Ident) (d : Fin 28) (v : Word) (s : State),
    let page := pwrPage
    let said (t : State) (code : Nat) : Prop := t.rf page 0x104 15 8 = code ∧ t.rb page 0x010 9 = true
    let refused (t : State) (code : Nat) : Prop := said t code ∧ onlyRegs s t [regKey page 0x104, regKey page 0x010]
    (∀ e ∈ ([(.pwrStateRun id, 0), (.pwrStateIdle id, 1), (.pwrStateStandby id, 2)] : List (Instr × Nat)), mayWrite s id page 0x100 →
      let ds := s.stateDomains e.2
      let off := offOrder.filter fun k => s.domOn k && !ds.contains k
      (s.power.change = none → s.power.crit = false → s.stateOk e.2 = true → offRefusal s off s.onList = none → Gives e.1 s fun t =>
        t.power.change = some e.2 ∧ t.rf page 0x100 1 0 = e.2 ∧ t.rb page 0x104 2 = true ∧
        (∀ k < 28, k ≠ 0 → k ∉ ds → t.domOn k = false) ∧ (∀ k < 28, k ∈ ds → t.domOn k = s.domOn k)) ∧
      (s.power.change.isSome = true → Gives e.1 s fun t => refused t 6) ∧
      (s.power.change = none → (s.power.crit = true ∨ s.stateOk e.2 = false) → Gives e.1 s fun t => refused t 5) ∧
      (∀ r, s.power.change = none → s.power.crit = false → s.stateOk e.2 = true → offRefusal s off s.onList = some r →
        Gives e.1 s fun t => refused t r.1)) ∧
    (∀ st, st < 3 → s.power.change = some st → s.power.rising = [] → Gives .stateDone s fun t => t.rf page 0x104 1 0 = st ∧
      t.rb page 0x104 2 = false ∧ t.rb page 0x010 8 = true ∧ t.power = { s.power with change := none } ∧
      regsKept s t [regKey page 0x104, regKey page 0x010] ∧ { t with regs := s.regs, power := s.power } = s) ∧
    (mayWrite s id page 0x108 → s.power.crit = false → d.val ≠ 0 → d.val ≠ 12 → d.val ≠ 13 → (∀ e < 28, e ≠ d.val → s.domOn e = true → bit v.toNat e = true) →
      (s.domOn d = false → bit v.toNat d = true → Gives (.domReqWrite id v) s fun t => d.val ∈ t.power.rising ∧ t.domOn d = false ∧ t.mem = s.mem) ∧
      (s.domOn d = true → bit v.toNat d = false →
        let code := s.offError (s.onList.filter fun k => k != d.val) d
        (code = 0 → Gives (.domReqWrite id v) s fun t => t.domOn d = false ∧ ∀ k < 28, k ≠ d.val → t.domOn k = s.domOn k) ∧
        (code ≠ 0 → Gives (.domReqWrite id v) s fun t => said t code ∧ t.rf page 0x104 20 16 = d ∧ t.domOn d = true ∧ t.mem = s.mem))) ∧
    (d.val ≠ 0 → s.power.rising.contains d.val = true → ((domParent d).map s.domOn).getD true = true → Gives (.domainPowerup d) s fun t =>
      t.domOn d = true ∧ d.val ∉ t.power.rising ∧
      (∀ p o, o < 4096 → o % 4 = 0 → pageDomain p = d.val → t.rd p o = if isRwl p o then s.rd p o else (regReset (regKey p o)).toNat) ∧
      (∀ p o, o < 4096 → o % 4 = 0 → pageDomain p ≠ d.val → p ≠ page → p ≠ cagePage → t.rd p o = s.rd p o) ∧
      ∀ i c, coreDomain i = some d.val → t.coreAlive i = true → wakesFor t i c → Out.wake i c ∈ t.out)

/-- R627-R629, R650: a sample sets the readings of the sensors; at the lower threshold of its step the throttle goes one step down, with a
pause of the fabric clock; at 125 °C THERMAL_CRIT asserts FAULT_OUT and turns off every domain but AON and SEC; the clock resumes at the new
step. -/
def Obligations.ThermalThrottle : Prop :=
  ∀ (ws : List Word) (s : State), ws.length = 16 →
    let rs := ws.map (·.toNat)
    let u := ((List.range 16).zip rs).foldl (fun t e => sensorSample e.1 e.2 t) s
    let k := s.power.thermal
    Gives (.thermalSample ws) s (fun t => ∀ i < 16, t.rf monPage (0x100 + 4 * i) 16 0 = fld (nth 0 rs i) 16 0) ∧
    (∀ T, 8 ≤ u.goodSensors.length → u.tMax = some T →
      (k < 3 → s.thrDown k ≤ T → T < 125 * 256 → Gives (.thermalSample ws) s fun t => t.power.thermal = k + 1 ∧ t.power.cool = 0 ∧ t.mem = s.mem ∧
        t.faultOut = s.faultOut ∧
        (s.power.paused = false → max (k + 1) (s.rf clkPage 0x204 1 0) ≠ s.thrStep →
          t.power.paused = true ∧ t.power.next = max (k + 1) (s.rf clkPage 0x204 1 0))) ∧
      (125 * 256 ≤ T → s.power.crit = false → Gives (.thermalSample ws) s fun t => t.power.crit = true ∧ t.faultOut = true ∧
        t.unrepairable = true ∧ t.rb pwrPage 0x118 4 = true ∧ ∀ d < 28, d ≠ 0 → d ≠ 26 → t.domOn d = false)) ∧
    (s.power.paused = true → s.rb cagePage 0x600 1 = false → Gives .throttleResume s fun t =>
      t.power.paused = false ∧ t.thrStep = s.power.next % 4 ∧ t.rf clkPage 0x200 13 4 = stepMhz s.power.next ∧
      t.rd clkPage 0x208 = (s.rd clkPage 0x208 + 1) % 2 ^ 32 ∧ t.rb clkPage 0x010 8 = true ∧
      regsKept s t ([regKey clkPage 0x200, regKey clkPage 0x208, regKey clkPage 0x010] ++ tallyKeys clkPage) ∧
      { t with regs := s.regs, power := s.power } = s)

/-! ### Device health -/

/-- R50, R634, R637, R640, R643, R644, R646-R648, R651: a face fault takes the spare of its stope and tears down the running context, or, without
a spare, retires the stope and asserts FAULT_OUT; a fault of an idle spare marks it bad; canaries are kicked, expire into a restart or a warm
reset, and cores run again; supply deviations are warned of and recorded; a sump entry is copied out. -/
def Obligations.DeviceHealth : Prop :=
  ∀ (id : Ident) (x : Phys) (st : Fin 32) (k : Fin 24) (v : Word) (s : State),
    let fp := facePage x
    let sp := stopePage (x / 17)
    let core := coreDomain id
    let due := NMap.get 0 s.power.kicks id + 1000 * s.canaryTo id
    let first (t : State) (p code : Nat) : Prop := s.rf p 0x01C 15 0 = 0 → t.rf p 0x01C 15 0 = code
    (s.pageOn fp = true →
      (s.logicalOf x = none → x.val % 17 = 16 → Gives (.faceHw x) s fun t => t.rb sp 0x100 5 = true ∧ first t fp 0x0007 ∧
        t.mem = s.mem ∧ t.ctxs = s.ctxs ∧ t.faultOut = s.faultOut) ∧
      (∀ f, s.logicalOf x = some f → s.partOf (x / 17) = none → s.rb cagePage 0x600 1 = false →
        let bad := s.spareUsed (x / 17) || s.rb sp 0x100 5 || s.stopeRetired (x / 17)
        (bad = false → Gives (.faceHw x) s fun t => t.rb sp 0x100 0 = true ∧ t.rf sp 0x100 4 1 = f % 16 ∧
          (∀ o ∈ [0x108, 0x10C, 0x110], t.rd (facePage (17 * (x / 17) + 16)) o = s.rd fp o) ∧
          (∀ a, fsAddr f 0 ≤ a → a < fsAddr f 0 + fsSize → Memory.read t.mem a = 0) ∧
          (∀ a, a < fsAddr f 0 ∨ fsAddr f 0 + fsSize ≤ a → Memory.read t.mem a = Memory.read s.mem a) ∧ t.faultOut = s.faultOut) ∧
        (bad = true → Gives (.faceHw x) s fun t => t.rb sp 0x100 6 = true ∧ t.faultOut = true ∧ t.unrepairable = true ∧ t.mem = s.mem)) ∧
      (∀ f q h, s.logicalOf x = some f → s.partOf (x / 17) = some q → (s.part q).held = false → (s.part q).switching = false →
        (s.part q).running = some h → (s.part q).outgoing = none → (s.part q).incoming = none → (s.part q).relaunch = [] → noErrors s →
        (∀ g ∈ (s.run h).faces, (s.face g).issued = [] ∧ (s.face g).hold ≠ .xld) → s.resident h = true → (s.ctx h).cls = 0 → (s.ctx h).state ≠ 0 → (s.ctx h).state ≠ 6 →
        Gives (.faceHw x) s fun t => (t.ctx h).state = 6 ∧ (t.ctx h).fault = 0x0005)) ∧
    (let pg := facePage (17 * st + 16)
     s.boot.window = false → s.pageOn pg = true → s.spareUsed st = false → s.logicalOf (17 * st + 16) = none → s.rf pg 0x138 9 8 ≠ 3 →
      Gives (.spareTestTimer st) s fun t => t.rf pg 0x138 9 8 = 3 ∧ onlyRegs s t [regKey pg 0x138]) ∧
    (s.coreAlive id = true → Gives (.canaryKick id) s fun t => t = { s with power := { s.power with kicks := NMap.put s.power.kicks id s.reading } }) ∧
    (s.coreAlive id = true → due ≤ s.reading →
      (id.val = 1 → s.rb canPage 0x100 20 = false → Gives (.canaryExpiry id) s fun t => t.faultOut = true ∧ t.unrepairable = true ∧
        1 ∈ t.power.restarting ∧ first t canPage 0x000A ∧ t.mem = s.mem ∧ t.ctxs = s.ctxs) ∧
      (id.val = 1 → s.rb canPage 0x100 20 = true → Gives (.canaryExpiry id) s fun t => t.boot.window = true ∧ t.faultOut = true ∧
        t.rd pwrPage 0x118 = 8 + 16 * b2n s.power.crit ∧ t.ctxs = []) ∧
      (∀ j, id.val = 0x20 + j → s.partOf j = none → Gives (.canaryExpiry id) s fun t => first t canPage 0x0008 ∧ t.mem = s.mem ∧
        let n := ((NMap.get [] s.power.expiries id).filter fun e => decide (s.reading < e + 10000000000)).length
        (n < s.rf canPage 0x100 19 16 → id.val ∈ t.power.restarting ∧ t.faultOut = s.faultOut) ∧
        (s.rf canPage 0x100 19 16 ≤ n → t.rb canPage 0x10C j = true ∧ t.rb (stopePage j) 0x100 6 = true ∧ t.faultOut = true))) ∧
    (s.coreAlive id = true → s.reading < due → Gives (.canaryExpiry id) s fun t => t = s) ∧
    (core.isSome = true → s.power.restarting.contains id.val = true → (∀ j, id.val = 0x20 + j → s.partOf j = none) →
      Gives (.coreRestartDone id) s fun t => id.val ∉ t.power.restarting ∧ t.rd canPage 0x110 = (s.rd canPage 0x110 + 1) % 2 ^ 32 ∧
        t.rd canPage 0x114 = id ∧ t.rb canPage 0x010 8 = true ∧
        (∀ c, wakesFor s id c → Out.wake id c ∈ t.out) ∧
        regsKept s t ([regKey canPage 0x110, regKey canPage 0x114, regKey canPage 0x010] ++ tallyKeys canPage) ∧
        { t with regs := s.regs, power := s.power, out := s.out } = s) ∧
    (s.rb monPage (supOff k) 16 = false → Gives (.supplyWarn k) s fun t => t.rb monPage (supOff k) 16 = true ∧ t.rb monPage 0x010 8 = true ∧
      onlyRegs s t ([regKey monPage (supOff k), regKey monPage 0x010] ++ tallyKeys monPage)) ∧
    Gives (.supplyWarnClear k) s (fun t => t.rb monPage (supOff k) 16 = false ∧ onlyRegs s t [regKey monPage (supOff k)]) ∧
    (k.val ≠ 0 → s.rb monPage (supOff k) 17 = false → Gives (.supplyUv k) s fun t => t.rb monPage (supOff k) 17 = true ∧ first t monPage 0x0002 ∧
      t.faultOut = true ∧ t.unrepairable = true ∧ t.mem = s.mem ∧ t.ctxs = s.ctxs ∧ t.faces = s.faces) ∧
    (s.rb monPage (supOff k) 18 = false → Gives (.supplyOv k) s fun t => t.rb monPage (supOff k) 18 = true ∧ first t monPage 0x0003 ∧
      t.faultOut = true ∧ t.unrepairable = true ∧ t.mem = s.mem ∧ t.ctxs = s.ctxs ∧ t.faces = s.faces) ∧
    (mayWrite s id sumpPage 0x10C → Gives (.sumpIdx id v) s fun t =>
      (∀ j < 8, t.rd sumpPage (0x120 + 4 * j) = (((NMap.find s.sump (v.toNat % 4096)).map fun e => e.word j).getD 0) % 2 ^ 32) ∧
      onlyRegs s t ((List.range 8).map fun j => regKey sumpPage (0x120 + 4 * j)))

/-! ### The whole machine -/

/-- R507, R511, R512, R530, R555, R575, R589, R599, R607, R612, R630, R649: what a power-on reset leaves: no command waits, memory is in its
canonical form, the boot window is open, FAULT_OUT is asserted, the clocks stand at 0 with their nominal rate, and the registers named read
the reset values of their tables. -/
def Obligations.ResetState : Prop :=
  let s := State.reset
  s.pending = [] ∧ memoryGood s ∧ s.boot.window = true ∧ s.boot.step = 1 ∧ s.faultOut = true ∧ s.takeOut = false ∧
  s.time.count = 0 ∧ s.reading = 0 ∧ s.gcount = 0 ∧ (∀ c < 3, s.rate c = 2 ^ 32 ∧ (s.clock c).sec = 0 ∧ (s.clock c).ns = 0) ∧
  s.rd timePage 0x110 = 0x3E8 ∧ s.rd timePage 0x124 = 0x7F ∧ s.rd timePage 0x21C = 0x2710 ∧
  (∀ p < 2, s.rd (aditPage p) 0x114 = 0xB810 ∧ s.rd (aditPage p) 0x130 = 0xF4240) ∧ s.rd (aditPage 0) 0x380 = 0x03E81000 ∧
  s.rd bootPage 0x180 = 1 ∧ (∀ c < 16, s.rd64 bootPage (0x300 + 8 * c) = 0xFFFFFFFF0000FF0F ∧ s.rd64 bootPage (0x380 + 8 * c) = 0xFFFFFFFF0000FF0F) ∧
  s.rd pwrPage 0x108 = 0x04004FFF ∧ s.rd pwrPage 0x10C = 0x04004FFF ∧ s.rd pwrPage 0x118 = 1 ∧ s.rd pwrPage 0x180 = 0x0FFFFFFF ∧
  s.rd pwrPage 0x184 = 0x0407F801 ∧ s.rd pwrPage 0x188 = 0x0069645F ∧ s.rd pwrPage 0x18C = 0x6405 ∧
  s.rd canPage 0x100 = 0x00131405 ∧ s.rd canPage 0x114 = 7

/-- The memory keeps its canonical form: whatever command a step runs (and on the tick of an empty queue), from every state whose memory is in
canonical form (addresses strictly rising, no byte listed that equals what an unlisted address reads as), the memory after it is. (The form
is the model's own.) -/
def Obligations.MemoryStaysCanonical : Prop :=
  ∀ s t : State, memoryGood s → step s = .next t → memoryGood t
end

