-- ==== Sys2Proof/Laws/NMap.lean ====
section
/-! SUPPORT. Laws of the sparse maps and of the byte memory: reading after placing or removing an entry, and that every
operation keeps the keys rising and the memory in its canonical form. -/
namespace Sys2Proof.Machine

/-! ### Finding after an update -/

@[simp] theorem NMap.find_nil {α : Type} (k : Nat) : NMap.find ([] : NMap α) k = none := rfl

@[simp] theorem NMap.find_put_self {α : Type} (m : NMap α) (k : Nat) (v : α) : NMap.find (NMap.put m k v) k = some v := by
  induction m with
  | nil => simp [NMap.put, NMap.find]
  | cons e m ih =>
    obtain ⟨j, w⟩ := e
    simp only [NMap.put]
    split
    · simp [NMap.find]
    · split
      · simp [NMap.find]
      · rename_i h1 h2
        simp [NMap.find, ih]; omega

theorem NMap.find_put_ne {α : Type} (m : NMap α) {k j : Nat} (v : α) (h : j ≠ k) :
    NMap.find (NMap.put m k v) j = NMap.find m j := by
  induction m with
  | nil => simp [NMap.put, NMap.find, Ne.symm h]
  | cons e m ih =>
    obtain ⟨i, w⟩ := e
    simp only [NMap.put]
    split
    · simp [NMap.find, Ne.symm h]
    · split
      · rename_i h1 h2; subst h2; simp [NMap.find, Ne.symm h]
      · simp [NMap.find, ih]

theorem NMap.find_put {α : Type} (m : NMap α) (k j : Nat) (v : α) :
    NMap.find (NMap.put m k v) j = if j = k then some v else NMap.find m j := by
  split
  · subst_vars; simp
  · exact NMap.find_put_ne m v ‹_›

theorem NMap.find_del_ne {α : Type} (m : NMap α) {k j : Nat} (h : j ≠ k) : NMap.find (NMap.del m k) j = NMap.find m j := by
  induction m with
  | nil => rfl
  | cons e m ih =>
    obtain ⟨i, w⟩ := e
    simp only [NMap.del]
    split
    · subst_vars; simp [NMap.find, Ne.symm h]
    · simp [NMap.find, ih]

@[simp] theorem NMap.get_put_self {α : Type} (d : α) (m : NMap α) (k : Nat) (v : α) : NMap.get d (NMap.put m k v) k = v := by
  simp [NMap.get]

theorem NMap.get_put_ne {α : Type} (d : α) (m : NMap α) {k j : Nat} (v : α) (h : j ≠ k) :
    NMap.get d (NMap.put m k v) j = NMap.get d m j := by
  simp [NMap.get, NMap.find_put_ne m v h]

/-! ### Rising keys -/

/-- Every key of a map is greater than a bound. -/
def NMap.above {α : Type} (b : Nat) (m : NMap α) : Prop := ∀ e ∈ m, b < e.1

theorem NMap.above_mono {α : Type} {b c : Nat} {m : NMap α} (h : c ≤ b) (hm : NMap.above b m) : NMap.above c m :=
  fun e he => Nat.lt_of_le_of_lt h (hm e he)

theorem NMap.rising_cons {α : Type} (k : Nat) (v : α) (m : NMap α) :
    NMap.rising ((k, v) :: m) = true ↔ NMap.above k m ∧ NMap.rising m = true := by
  induction m generalizing k v with
  | nil => simp [NMap.rising, NMap.above]
  | cons e m ih =>
    obtain ⟨j, w⟩ := e
    simp only [NMap.rising, Bool.and_eq_true, decide_eq_true_eq]
    constructor
    · rintro ⟨hk, hr⟩
      refine ⟨fun e he => ?_, hr⟩
      rcases List.mem_cons.1 he with rfl | he
      · exact hk
      · exact Nat.lt_trans hk (((ih j w).1 hr).1 e he)
    · rintro ⟨ha, hr⟩
      exact ⟨ha (j, w) (by simp), hr⟩

theorem NMap.find_above {α : Type} {b k : Nat} {m : NMap α} (hm : NMap.above b m) (h : k ≤ b) : NMap.find m k = none := by
  induction m with
  | nil => rfl
  | cons e m ih =>
    obtain ⟨j, w⟩ := e
    have hj : b < j := hm (j, w) (by simp)
    simp only [NMap.find]
    rw [if_neg (by omega)]
    exact ih fun x hx => hm x (by simp [hx])

theorem NMap.above_put {α : Type} {b k : Nat} {m : NMap α} (v : α) (hm : NMap.above b m) (h : b < k) :
    NMap.above b (NMap.put m k v) := by
  induction m with
  | nil => simpa [NMap.put, NMap.above] using h
  | cons e m ih =>
    obtain ⟨j, w⟩ := e
    have hj : b < j := hm (j, w) (by simp)
    have ht : NMap.above b m := fun x hx => hm x (by simp [hx])
    simp only [NMap.put]
    split
    · intro x hx; rcases List.mem_cons.1 hx with rfl | hx
      · exact h
      · exact hm x hx
    · split
      · intro x hx; rcases List.mem_cons.1 hx with rfl | hx
        · exact h
        · exact ht x hx
      · intro x hx; rcases List.mem_cons.1 hx with rfl | hx
        · exact hj
        · exact ih ht x hx

theorem NMap.above_del {α : Type} {b : Nat} {m : NMap α} (k : Nat) (hm : NMap.above b m) : NMap.above b (NMap.del m k) := by
  induction m with
  | nil => simpa [NMap.del] using hm
  | cons e m ih =>
    obtain ⟨j, w⟩ := e
    have ht : NMap.above b m := fun x hx => hm x (by simp [hx])
    simp only [NMap.del]
    split
    · exact ht
    · intro x hx; rcases List.mem_cons.1 hx with rfl | hx
      · exact hm _ (by simp)
      · exact ih ht x hx

theorem NMap.rising_put {α : Type} (m : NMap α) (k : Nat) (v : α) (h : NMap.rising m = true) : NMap.rising (NMap.put m k v) = true := by
  induction m with
  | nil => rfl
  | cons e m ih =>
    obtain ⟨j, w⟩ := e
    obtain ⟨ha, hr⟩ := (NMap.rising_cons j w m).1 h
    simp only [NMap.put]
    split
    · rename_i hk
      refine (NMap.rising_cons _ _ _).2 ⟨fun x hx => ?_, h⟩
      rcases List.mem_cons.1 hx with rfl | hx
      · exact hk
      · exact Nat.lt_trans hk (ha x hx)
    · split
      · subst_vars; exact (NMap.rising_cons _ _ _).2 ⟨ha, hr⟩
      · exact (NMap.rising_cons _ _ _).2 ⟨NMap.above_put v ha (by omega), ih hr⟩

theorem NMap.rising_del {α : Type} (m : NMap α) (k : Nat) (h : NMap.rising m = true) : NMap.rising (NMap.del m k) = true := by
  induction m with
  | nil => rfl
  | cons e m ih =>
    obtain ⟨j, w⟩ := e
    obtain ⟨ha, hr⟩ := (NMap.rising_cons j w m).1 h
    simp only [NMap.del]
    split
    · exact hr
    · exact (NMap.rising_cons _ _ _).2 ⟨NMap.above_del k ha, ih hr⟩

theorem NMap.rising_filter {α : Type} (m : NMap α) (f : Nat × α → Bool) (h : NMap.rising m = true) :
    NMap.rising (m.filter f) = true := by
  induction m with
  | nil => rfl
  | cons e m ih =>
    obtain ⟨j, w⟩ := e
    obtain ⟨ha, hr⟩ := (NMap.rising_cons j w m).1 h
    simp only [List.filter_cons]
    split
    · exact (NMap.rising_cons _ _ _).2 ⟨fun x hx => ha x (List.mem_filter.1 hx).1, ih hr⟩
    · exact ih hr

theorem NMap.find_del_self {α : Type} (m : NMap α) (k : Nat) (h : NMap.rising m = true) : NMap.find (NMap.del m k) k = none := by
  induction m with
  | nil => rfl
  | cons e m ih =>
    obtain ⟨j, w⟩ := e
    obtain ⟨ha, hr⟩ := (NMap.rising_cons j w m).1 h
    simp only [NMap.del]
    split
    · subst_vars; exact NMap.find_above ha (Nat.le_refl _)
    · simp [NMap.find, *]

theorem NMap.find_delRange {α : Type} (m : NMap α) (lo hi k : Nat) :
    NMap.find (NMap.delRange m lo hi) k = if lo ≤ k ∧ k < hi then none else NMap.find m k := by
  unfold NMap.delRange
  induction m with
  | nil => simp
  | cons e m ih =>
    obtain ⟨j, w⟩ := e
    simp only [List.filter_cons, Bool.or_eq_true, decide_eq_true_eq, NMap.find]
    by_cases hj : j < lo ∨ hi ≤ j
    · rw [if_pos hj]; simp only [NMap.find, ih]
      by_cases hk : j = k
      · rw [if_pos hk, if_neg (by omega), if_pos hk]
      · rw [if_neg hk, if_neg hk]
    · rw [if_neg hj, ih]
      by_cases hk : j = k
      · rw [if_pos (by omega), if_pos (by omega)]
      · rw [if_neg hk]

/-! ### Byte memory -/

theorem Memory.wf_iff (m : Memory) : Memory.wf m = true ↔ NMap.rising m = true ∧ ∀ e ∈ m, e.2 ≠ 0 := by
  simp [Memory.wf]

theorem NMap.mem_put {α : Type} {m : NMap α} {k : Nat} {v : α} {e : Nat × α} (h : e ∈ NMap.put m k v) : e = (k, v) ∨ e ∈ m := by
  induction m with
  | nil => simpa [NMap.put] using h
  | cons x m ih =>
    obtain ⟨j, w⟩ := x
    simp only [NMap.put] at h
    split at h
    · exact List.mem_cons.1 h
    · split at h
      · rcases List.mem_cons.1 h with h | h
        · exact .inl h
        · exact .inr (by simp [h])
      · rcases List.mem_cons.1 h with h | h
        · exact .inr (by simp [h])
        · rcases ih h with h | h
          · exact .inl h
          · exact .inr (by simp [h])

theorem NMap.mem_del {α : Type} {m : NMap α} {k : Nat} {e : Nat × α} (h : e ∈ NMap.del m k) : e ∈ m := by
  induction m with
  | nil => exact h
  | cons x m ih =>
    obtain ⟨j, w⟩ := x
    simp only [NMap.del] at h
    split at h
    · simp [h]
    · rcases List.mem_cons.1 h with h | h
      · simp [h]
      · simp [ih h]

theorem Memory.wf_write (m : Memory) (a : Nat) (b : Byte) (h : Memory.wf m = true) : Memory.wf (Memory.write m a b) = true := by
  obtain ⟨hr, hz⟩ := (Memory.wf_iff m).1 h
  refine (Memory.wf_iff _).2 ?_
  unfold Memory.write NMap.putD
  split
  · exact ⟨NMap.rising_del m a hr, fun e he => hz e (NMap.mem_del he)⟩
  · refine ⟨NMap.rising_put m a b hr, fun e he => ?_⟩
    rcases NMap.mem_put he with rfl | he
    · assumption
    · exact hz e he

theorem Memory.wf_writeBytes (m : Memory) (a : Nat) (bs : List Byte) (h : Memory.wf m = true) :
    Memory.wf (Memory.writeBytes m a bs) = true := by
  induction bs generalizing m a with
  | nil => exact h
  | cons b bs ih => exact ih _ _ (Memory.wf_write m a b h)

theorem Memory.wf_writeLe (m : Memory) (a n v : Nat) (h : Memory.wf m = true) : Memory.wf (Memory.writeLe m a n v) = true :=
  Memory.wf_writeBytes m a _ h

theorem Memory.wf_zeroRange (m : Memory) (lo hi : Nat) (h : Memory.wf m = true) : Memory.wf (Memory.zeroRange m lo hi) = true := by
  obtain ⟨hr, hz⟩ := (Memory.wf_iff m).1 h
  exact (Memory.wf_iff _).2 ⟨NMap.rising_filter m _ hr, fun e he => hz e (List.mem_filter.1 he).1⟩

/-- A fold over memory keeps the canonical form where each step does. -/
theorem Memory.wf_foldl {α : Type} (f : Memory → α → Memory) (xs : List α) (m : Memory)
    (hf : ∀ m x, Memory.wf m = true → Memory.wf (f m x) = true) (h : Memory.wf m = true) : Memory.wf (xs.foldl f m) = true := by
  induction xs generalizing m with
  | nil => exact h
  | cons x xs ih => exact ih _ (hf m x h)

theorem Memory.read_write_self (m : Memory) (a : Nat) (b : Byte) (h : Memory.wf m = true) : Memory.read (Memory.write m a b) a = b := by
  unfold Memory.read Memory.write NMap.putD
  split
  · simp [NMap.get, NMap.find_del_self m a ((Memory.wf_iff m).1 h).1, *]
  · simp

theorem Memory.read_write_ne (m : Memory) {a c : Nat} (b : Byte) (h : c ≠ a) : Memory.read (Memory.write m a b) c = Memory.read m c := by
  unfold Memory.read Memory.write NMap.putD
  split
  · simp [NMap.get, NMap.find_del_ne m h]
  · exact NMap.get_put_ne 0 m b h

theorem Memory.read_zeroRange (m : Memory) (lo hi a : Nat) :
    Memory.read (Memory.zeroRange m lo hi) a = if lo ≤ a ∧ a < hi then 0 else Memory.read m a := by
  unfold Memory.read Memory.zeroRange NMap.get
  rw [NMap.find_delRange]
  split <;> rfl

theorem Memory.read_writeBytes_out (m : Memory) (a : Nat) (bs : List Byte) (c : Nat) (h : c < a ∨ a + bs.length ≤ c) :
    Memory.read (Memory.writeBytes m a bs) c = Memory.read m c := by
  induction bs generalizing m a with
  | nil => rfl
  | cons b bs ih =>
    simp only [List.length_cons] at h
    simp only [Memory.writeBytes]
    rw [ih _ _ (by omega), Memory.read_write_ne m b (by omega)]

@[simp] theorem Memory.readBytes_length (m : Memory) (a n : Nat) : (Memory.readBytes m a n).length = n := by
  induction n generalizing a with
  | zero => rfl
  | succ n ih => simp [Memory.readBytes, ih]

theorem Memory.readBytes_congr (m m' : Memory) (a n : Nat) (h : ∀ c, a ≤ c → c < a + n → Memory.read m' c = Memory.read m c) :
    Memory.readBytes m' a n = Memory.readBytes m a n := by
  induction n generalizing a with
  | zero => rfl
  | succ n ih =>
    simp only [Memory.readBytes]
    rw [h a (by omega) (by omega), ih (a + 1) fun c h1 h2 => h c (by omega) (by omega)]

/-- What is written is read back. -/
theorem Memory.readBytes_writeBytes (m : Memory) (a : Nat) (bs : List Byte) (h : Memory.wf m = true) :
    Memory.readBytes (Memory.writeBytes m a bs) a bs.length = bs := by
  induction bs generalizing m a with
  | nil => rfl
  | cons b bs ih =>
    simp only [Memory.writeBytes, List.length_cons, Memory.readBytes]
    rw [ih _ _ (Memory.wf_write m a b h), Memory.read_writeBytes_out _ _ _ _ (by omega), Memory.read_write_self m a b h]

end Sys2Proof.Machine
end

