-- ==== Sys2Proof/Laws/State.lean ====
section
/-! SUPPORT. One lemma per field for each operation that replaces one field of State: every other field is as before. -/
namespace Sys2Proof.Machine

/-! ### wr changes regs -/
@[simp] theorem State.wr_pending (s : State) (p o v : Nat) : (s.wr p o v).pending = s.pending := rfl
@[simp] theorem State.wr_held (s : State) (p o v : Nat) : (s.wr p o v).held = s.held := rfl
@[simp] theorem State.wr_latch (s : State) (p o v : Nat) : (s.wr p o v).latch = s.latch := rfl
@[simp] theorem State.wr_bus (s : State) (p o v : Nat) : (s.wr p o v).bus = s.bus := rfl
@[simp] theorem State.wr_mem (s : State) (p o v : Nat) : (s.wr p o v).mem = s.mem := rfl
@[simp] theorem State.wr_eccBad (s : State) (p o v : Nat) : (s.wr p o v).eccBad = s.eccBad := rfl
@[simp] theorem State.wr_eccOne (s : State) (p o v : Nat) : (s.wr p o v).eccOne = s.eccOne := rfl
@[simp] theorem State.wr_gflags (s : State) (p o v : Nat) : (s.wr p o v).gflags = s.gflags := rfl
@[simp] theorem State.wr_sflags (s : State) (p o v : Nat) : (s.wr p o v).sflags = s.sflags := rfl
@[simp] theorem State.wr_sump (s : State) (p o v : Nat) : (s.wr p o v).sump = s.sump := rfl
@[simp] theorem State.wr_faultOut (s : State) (p o v : Nat) : (s.wr p o v).faultOut = s.faultOut := rfl
@[simp] theorem State.wr_takeOut (s : State) (p o v : Nat) : (s.wr p o v).takeOut = s.takeOut := rfl
@[simp] theorem State.wr_unrepairable (s : State) (p o v : Nat) : (s.wr p o v).unrepairable = s.unrepairable := rfl
@[simp] theorem State.wr_time (s : State) (p o v : Nat) : (s.wr p o v).time = s.time := rfl
@[simp] theorem State.wr_boot (s : State) (p o v : Nat) : (s.wr p o v).boot = s.boot := rfl
@[simp] theorem State.wr_power (s : State) (p o v : Nat) : (s.wr p o v).power = s.power := rfl
@[simp] theorem State.wr_faces (s : State) (p o v : Nat) : (s.wr p o v).faces = s.faces := rfl
@[simp] theorem State.wr_ctxs (s : State) (p o v : Nat) : (s.wr p o v).ctxs = s.ctxs := rfl
@[simp] theorem State.wr_runs (s : State) (p o v : Nat) : (s.wr p o v).runs = s.runs := rfl
@[simp] theorem State.wr_slotLast (s : State) (p o v : Nat) : (s.wr p o v).slotLast = s.slotLast := rfl
@[simp] theorem State.wr_parts (s : State) (p o v : Nat) : (s.wr p o v).parts = s.parts := rfl
@[simp] theorem State.wr_launches (s : State) (p o v : Nat) : (s.wr p o v).launches = s.launches := rfl
@[simp] theorem State.wr_windows (s : State) (p o v : Nat) : (s.wr p o v).windows = s.windows := rfl
@[simp] theorem State.wr_ctxCmd (s : State) (p o v : Nat) : (s.wr p o v).ctxCmd = s.ctxCmd := rfl
@[simp] theorem State.wr_batchReqs (s : State) (p o v : Nat) : (s.wr p o v).batchReqs = s.batchReqs := rfl
@[simp] theorem State.wr_members (s : State) (p o v : Nat) : (s.wr p o v).members = s.members := rfl
@[simp] theorem State.wr_hoists (s : State) (p o v : Nat) : (s.wr p o v).hoists = s.hoists := rfl
@[simp] theorem State.wr_bands (s : State) (p o v : Nat) : (s.wr p o v).bands = s.bands := rfl
@[simp] theorem State.wr_groups (s : State) (p o v : Nat) : (s.wr p o v).groups = s.groups := rfl
@[simp] theorem State.wr_sched (s : State) (p o v : Nat) : (s.wr p o v).sched = s.sched := rfl
@[simp] theorem State.wr_slotLoading (s : State) (p o v : Nat) : (s.wr p o v).slotLoading = s.slotLoading := rfl
@[simp] theorem State.wr_fwdPoses (s : State) (p o v : Nat) : (s.wr p o v).fwdPoses = s.fwdPoses := rfl
@[simp] theorem State.wr_adapt (s : State) (p o v : Nat) : (s.wr p o v).adapt = s.adapt := rfl
@[simp] theorem State.wr_lateSeen (s : State) (p o v : Nat) : (s.wr p o v).lateSeen = s.lateSeen := rfl
@[simp] theorem State.wr_red (s : State) (p o v : Nat) : (s.wr p o v).red = s.red := rfl
@[simp] theorem State.wr_redWait (s : State) (p o v : Nat) : (s.wr p o v).redWait = s.redWait := rfl
@[simp] theorem State.wr_doneWatch (s : State) (p o v : Nat) : (s.wr p o v).doneWatch = s.doneWatch := rfl
@[simp] theorem State.wr_heads (s : State) (p o v : Nat) : (s.wr p o v).heads = s.heads := rfl
@[simp] theorem State.wr_frameSum (s : State) (p o v : Nat) : (s.wr p o v).frameSum = s.frameSum := rfl
@[simp] theorem State.wr_recGap (s : State) (p o v : Nat) : (s.wr p o v).recGap = s.recGap := rfl
@[simp] theorem State.wr_trecSeq (s : State) (p o v : Nat) : (s.wr p o v).trecSeq = s.trecSeq := rfl
@[simp] theorem State.wr_haloGot (s : State) (p o v : Nat) : (s.wr p o v).haloGot = s.haloGot := rfl
@[simp] theorem State.wr_slots (s : State) (p o v : Nat) : (s.wr p o v).slots = s.slots := rfl
@[simp] theorem State.wr_slotDesc (s : State) (p o v : Nat) : (s.wr p o v).slotDesc = s.slotDesc := rfl
@[simp] theorem State.wr_xc (s : State) (p o v : Nat) : (s.wr p o v).xc = s.xc := rfl
@[simp] theorem State.wr_bcastLast (s : State) (p o v : Nat) : (s.wr p o v).bcastLast = s.bcastLast := rfl
@[simp] theorem State.wr_peerFault (s : State) (p o v : Nat) : (s.wr p o v).peerFault = s.peerFault := rfl
@[simp] theorem State.wr_takePend (s : State) (p o v : Nat) : (s.wr p o v).takePend = s.takePend := rfl
@[simp] theorem State.wr_sess (s : State) (p o v : Nat) : (s.wr p o v).sess = s.sess := rfl
@[simp] theorem State.wr_adits (s : State) (p o v : Nat) : (s.wr p o v).adits = s.adits := rfl
@[simp] theorem State.wr_rxq (s : State) (p o v : Nat) : (s.wr p o v).rxq = s.rxq := rfl
@[simp] theorem State.wr_cb (s : State) (p o v : Nat) : (s.wr p o v).cb = s.cb := rfl
@[simp] theorem State.wr_jobSeq (s : State) (p o v : Nat) : (s.wr p o v).jobSeq = s.jobSeq := rfl
@[simp] theorem State.wr_tilers (s : State) (p o v : Nat) : (s.wr p o v).tilers = s.tilers := rfl
@[simp] theorem State.wr_sorters (s : State) (p o v : Nat) : (s.wr p o v).sorters = s.sorters := rfl
@[simp] theorem State.wr_assay (s : State) (p o v : Nat) : (s.wr p o v).assay = s.assay := rfl
@[simp] theorem State.wr_mf (s : State) (p o v : Nat) : (s.wr p o v).mf = s.mf := rfl
@[simp] theorem State.wr_cams (s : State) (p o v : Nat) : (s.wr p o v).cams = s.cams := rfl
@[simp] theorem State.wr_flows (s : State) (p o v : Nat) : (s.wr p o v).flows = s.flows := rfl
@[simp] theorem State.wr_spis (s : State) (p o v : Nat) : (s.wr p o v).spis = s.spis := rfl
@[simp] theorem State.wr_replayStop (s : State) (p o v : Nat) : (s.wr p o v).replayStop = s.replayStop := rfl
@[simp] theorem State.wr_out (s : State) (p o v : Nat) : (s.wr p o v).out = s.out := rfl
@[simp] theorem State.wr_free (s : State) (p o v : Nat) : (s.wr p o v).free = s.free := rfl

/-! ### reply changes bus -/
@[simp] theorem State.reply_pending (s : State) (v : Nat) : (s.reply v).pending = s.pending := rfl
@[simp] theorem State.reply_regs (s : State) (v : Nat) : (s.reply v).regs = s.regs := rfl
@[simp] theorem State.reply_held (s : State) (v : Nat) : (s.reply v).held = s.held := rfl
@[simp] theorem State.reply_latch (s : State) (v : Nat) : (s.reply v).latch = s.latch := rfl
@[simp] theorem State.reply_mem (s : State) (v : Nat) : (s.reply v).mem = s.mem := rfl
@[simp] theorem State.reply_eccBad (s : State) (v : Nat) : (s.reply v).eccBad = s.eccBad := rfl
@[simp] theorem State.reply_eccOne (s : State) (v : Nat) : (s.reply v).eccOne = s.eccOne := rfl
@[simp] theorem State.reply_gflags (s : State) (v : Nat) : (s.reply v).gflags = s.gflags := rfl
@[simp] theorem State.reply_sflags (s : State) (v : Nat) : (s.reply v).sflags = s.sflags := rfl
@[simp] theorem State.reply_sump (s : State) (v : Nat) : (s.reply v).sump = s.sump := rfl
@[simp] theorem State.reply_faultOut (s : State) (v : Nat) : (s.reply v).faultOut = s.faultOut := rfl
@[simp] theorem State.reply_takeOut (s : State) (v : Nat) : (s.reply v).takeOut = s.takeOut := rfl
@[simp] theorem State.reply_unrepairable (s : State) (v : Nat) : (s.reply v).unrepairable = s.unrepairable := rfl
@[simp] theorem State.reply_time (s : State) (v : Nat) : (s.reply v).time = s.time := rfl
@[simp] theorem State.reply_boot (s : State) (v : Nat) : (s.reply v).boot = s.boot := rfl
@[simp] theorem State.reply_power (s : State) (v : Nat) : (s.reply v).power = s.power := rfl
@[simp] theorem State.reply_faces (s : State) (v : Nat) : (s.reply v).faces = s.faces := rfl
@[simp] theorem State.reply_ctxs (s : State) (v : Nat) : (s.reply v).ctxs = s.ctxs := rfl
@[simp] theorem State.reply_runs (s : State) (v : Nat) : (s.reply v).runs = s.runs := rfl
@[simp] theorem State.reply_slotLast (s : State) (v : Nat) : (s.reply v).slotLast = s.slotLast := rfl
@[simp] theorem State.reply_parts (s : State) (v : Nat) : (s.reply v).parts = s.parts := rfl
@[simp] theorem State.reply_launches (s : State) (v : Nat) : (s.reply v).launches = s.launches := rfl
@[simp] theorem State.reply_windows (s : State) (v : Nat) : (s.reply v).windows = s.windows := rfl
@[simp] theorem State.reply_ctxCmd (s : State) (v : Nat) : (s.reply v).ctxCmd = s.ctxCmd := rfl
@[simp] theorem State.reply_batchReqs (s : State) (v : Nat) : (s.reply v).batchReqs = s.batchReqs := rfl
@[simp] theorem State.reply_members (s : State) (v : Nat) : (s.reply v).members = s.members := rfl
@[simp] theorem State.reply_hoists (s : State) (v : Nat) : (s.reply v).hoists = s.hoists := rfl
@[simp] theorem State.reply_bands (s : State) (v : Nat) : (s.reply v).bands = s.bands := rfl
@[simp] theorem State.reply_groups (s : State) (v : Nat) : (s.reply v).groups = s.groups := rfl
@[simp] theorem State.reply_sched (s : State) (v : Nat) : (s.reply v).sched = s.sched := rfl
@[simp] theorem State.reply_slotLoading (s : State) (v : Nat) : (s.reply v).slotLoading = s.slotLoading := rfl
@[simp] theorem State.reply_fwdPoses (s : State) (v : Nat) : (s.reply v).fwdPoses = s.fwdPoses := rfl
@[simp] theorem State.reply_adapt (s : State) (v : Nat) : (s.reply v).adapt = s.adapt := rfl
@[simp] theorem State.reply_lateSeen (s : State) (v : Nat) : (s.reply v).lateSeen = s.lateSeen := rfl
@[simp] theorem State.reply_red (s : State) (v : Nat) : (s.reply v).red = s.red := rfl
@[simp] theorem State.reply_redWait (s : State) (v : Nat) : (s.reply v).redWait = s.redWait := rfl
@[simp] theorem State.reply_doneWatch (s : State) (v : Nat) : (s.reply v).doneWatch = s.doneWatch := rfl
@[simp] theorem State.reply_heads (s : State) (v : Nat) : (s.reply v).heads = s.heads := rfl
@[simp] theorem State.reply_frameSum (s : State) (v : Nat) : (s.reply v).frameSum = s.frameSum := rfl
@[simp] theorem State.reply_recGap (s : State) (v : Nat) : (s.reply v).recGap = s.recGap := rfl
@[simp] theorem State.reply_trecSeq (s : State) (v : Nat) : (s.reply v).trecSeq = s.trecSeq := rfl
@[simp] theorem State.reply_haloGot (s : State) (v : Nat) : (s.reply v).haloGot = s.haloGot := rfl
@[simp] theorem State.reply_slots (s : State) (v : Nat) : (s.reply v).slots = s.slots := rfl
@[simp] theorem State.reply_slotDesc (s : State) (v : Nat) : (s.reply v).slotDesc = s.slotDesc := rfl
@[simp] theorem State.reply_xc (s : State) (v : Nat) : (s.reply v).xc = s.xc := rfl
@[simp] theorem State.reply_bcastLast (s : State) (v : Nat) : (s.reply v).bcastLast = s.bcastLast := rfl
@[simp] theorem State.reply_peerFault (s : State) (v : Nat) : (s.reply v).peerFault = s.peerFault := rfl
@[simp] theorem State.reply_takePend (s : State) (v : Nat) : (s.reply v).takePend = s.takePend := rfl
@[simp] theorem State.reply_sess (s : State) (v : Nat) : (s.reply v).sess = s.sess := rfl
@[simp] theorem State.reply_adits (s : State) (v : Nat) : (s.reply v).adits = s.adits := rfl
@[simp] theorem State.reply_rxq (s : State) (v : Nat) : (s.reply v).rxq = s.rxq := rfl
@[simp] theorem State.reply_cb (s : State) (v : Nat) : (s.reply v).cb = s.cb := rfl
@[simp] theorem State.reply_jobSeq (s : State) (v : Nat) : (s.reply v).jobSeq = s.jobSeq := rfl
@[simp] theorem State.reply_tilers (s : State) (v : Nat) : (s.reply v).tilers = s.tilers := rfl
@[simp] theorem State.reply_sorters (s : State) (v : Nat) : (s.reply v).sorters = s.sorters := rfl
@[simp] theorem State.reply_assay (s : State) (v : Nat) : (s.reply v).assay = s.assay := rfl
@[simp] theorem State.reply_mf (s : State) (v : Nat) : (s.reply v).mf = s.mf := rfl
@[simp] theorem State.reply_cams (s : State) (v : Nat) : (s.reply v).cams = s.cams := rfl
@[simp] theorem State.reply_flows (s : State) (v : Nat) : (s.reply v).flows = s.flows := rfl
@[simp] theorem State.reply_spis (s : State) (v : Nat) : (s.reply v).spis = s.spis := rfl
@[simp] theorem State.reply_replayStop (s : State) (v : Nat) : (s.reply v).replayStop = s.replayStop := rfl
@[simp] theorem State.reply_out (s : State) (v : Nat) : (s.reply v).out = s.out := rfl
@[simp] theorem State.reply_free (s : State) (v : Nat) : (s.reply v).free = s.free := rfl

/-! ### send changes out -/
@[simp] theorem State.send_pending (s : State) (o : Out) : (s.send o).pending = s.pending := rfl
@[simp] theorem State.send_regs (s : State) (o : Out) : (s.send o).regs = s.regs := rfl
@[simp] theorem State.send_held (s : State) (o : Out) : (s.send o).held = s.held := rfl
@[simp] theorem State.send_latch (s : State) (o : Out) : (s.send o).latch = s.latch := rfl
@[simp] theorem State.send_bus (s : State) (o : Out) : (s.send o).bus = s.bus := rfl
@[simp] theorem State.send_mem (s : State) (o : Out) : (s.send o).mem = s.mem := rfl
@[simp] theorem State.send_eccBad (s : State) (o : Out) : (s.send o).eccBad = s.eccBad := rfl
@[simp] theorem State.send_eccOne (s : State) (o : Out) : (s.send o).eccOne = s.eccOne := rfl
@[simp] theorem State.send_gflags (s : State) (o : Out) : (s.send o).gflags = s.gflags := rfl
@[simp] theorem State.send_sflags (s : State) (o : Out) : (s.send o).sflags = s.sflags := rfl
@[simp] theorem State.send_sump (s : State) (o : Out) : (s.send o).sump = s.sump := rfl
@[simp] theorem State.send_faultOut (s : State) (o : Out) : (s.send o).faultOut = s.faultOut := rfl
@[simp] theorem State.send_takeOut (s : State) (o : Out) : (s.send o).takeOut = s.takeOut := rfl
@[simp] theorem State.send_unrepairable (s : State) (o : Out) : (s.send o).unrepairable = s.unrepairable := rfl
@[simp] theorem State.send_time (s : State) (o : Out) : (s.send o).time = s.time := rfl
@[simp] theorem State.send_boot (s : State) (o : Out) : (s.send o).boot = s.boot := rfl
@[simp] theorem State.send_power (s : State) (o : Out) : (s.send o).power = s.power := rfl
@[simp] theorem State.send_faces (s : State) (o : Out) : (s.send o).faces = s.faces := rfl
@[simp] theorem State.send_ctxs (s : State) (o : Out) : (s.send o).ctxs = s.ctxs := rfl
@[simp] theorem State.send_runs (s : State) (o : Out) : (s.send o).runs = s.runs := rfl
@[simp] theorem State.send_slotLast (s : State) (o : Out) : (s.send o).slotLast = s.slotLast := rfl
@[simp] theorem State.send_parts (s : State) (o : Out) : (s.send o).parts = s.parts := rfl
@[simp] theorem State.send_launches (s : State) (o : Out) : (s.send o).launches = s.launches := rfl
@[simp] theorem State.send_windows (s : State) (o : Out) : (s.send o).windows = s.windows := rfl
@[simp] theorem State.send_ctxCmd (s : State) (o : Out) : (s.send o).ctxCmd = s.ctxCmd := rfl
@[simp] theorem State.send_batchReqs (s : State) (o : Out) : (s.send o).batchReqs = s.batchReqs := rfl
@[simp] theorem State.send_members (s : State) (o : Out) : (s.send o).members = s.members := rfl
@[simp] theorem State.send_hoists (s : State) (o : Out) : (s.send o).hoists = s.hoists := rfl
@[simp] theorem State.send_bands (s : State) (o : Out) : (s.send o).bands = s.bands := rfl
@[simp] theorem State.send_groups (s : State) (o : Out) : (s.send o).groups = s.groups := rfl
@[simp] theorem State.send_sched (s : State) (o : Out) : (s.send o).sched = s.sched := rfl
@[simp] theorem State.send_slotLoading (s : State) (o : Out) : (s.send o).slotLoading = s.slotLoading := rfl
@[simp] theorem State.send_fwdPoses (s : State) (o : Out) : (s.send o).fwdPoses = s.fwdPoses := rfl
@[simp] theorem State.send_adapt (s : State) (o : Out) : (s.send o).adapt = s.adapt := rfl
@[simp] theorem State.send_lateSeen (s : State) (o : Out) : (s.send o).lateSeen = s.lateSeen := rfl
@[simp] theorem State.send_red (s : State) (o : Out) : (s.send o).red = s.red := rfl
@[simp] theorem State.send_redWait (s : State) (o : Out) : (s.send o).redWait = s.redWait := rfl
@[simp] theorem State.send_doneWatch (s : State) (o : Out) : (s.send o).doneWatch = s.doneWatch := rfl
@[simp] theorem State.send_heads (s : State) (o : Out) : (s.send o).heads = s.heads := rfl
@[simp] theorem State.send_frameSum (s : State) (o : Out) : (s.send o).frameSum = s.frameSum := rfl
@[simp] theorem State.send_recGap (s : State) (o : Out) : (s.send o).recGap = s.recGap := rfl
@[simp] theorem State.send_trecSeq (s : State) (o : Out) : (s.send o).trecSeq = s.trecSeq := rfl
@[simp] theorem State.send_haloGot (s : State) (o : Out) : (s.send o).haloGot = s.haloGot := rfl
@[simp] theorem State.send_slots (s : State) (o : Out) : (s.send o).slots = s.slots := rfl
@[simp] theorem State.send_slotDesc (s : State) (o : Out) : (s.send o).slotDesc = s.slotDesc := rfl
@[simp] theorem State.send_xc (s : State) (o : Out) : (s.send o).xc = s.xc := rfl
@[simp] theorem State.send_bcastLast (s : State) (o : Out) : (s.send o).bcastLast = s.bcastLast := rfl
@[simp] theorem State.send_peerFault (s : State) (o : Out) : (s.send o).peerFault = s.peerFault := rfl
@[simp] theorem State.send_takePend (s : State) (o : Out) : (s.send o).takePend = s.takePend := rfl
@[simp] theorem State.send_sess (s : State) (o : Out) : (s.send o).sess = s.sess := rfl
@[simp] theorem State.send_adits (s : State) (o : Out) : (s.send o).adits = s.adits := rfl
@[simp] theorem State.send_rxq (s : State) (o : Out) : (s.send o).rxq = s.rxq := rfl
@[simp] theorem State.send_cb (s : State) (o : Out) : (s.send o).cb = s.cb := rfl
@[simp] theorem State.send_jobSeq (s : State) (o : Out) : (s.send o).jobSeq = s.jobSeq := rfl
@[simp] theorem State.send_tilers (s : State) (o : Out) : (s.send o).tilers = s.tilers := rfl
@[simp] theorem State.send_sorters (s : State) (o : Out) : (s.send o).sorters = s.sorters := rfl
@[simp] theorem State.send_assay (s : State) (o : Out) : (s.send o).assay = s.assay := rfl
@[simp] theorem State.send_mf (s : State) (o : Out) : (s.send o).mf = s.mf := rfl
@[simp] theorem State.send_cams (s : State) (o : Out) : (s.send o).cams = s.cams := rfl
@[simp] theorem State.send_flows (s : State) (o : Out) : (s.send o).flows = s.flows := rfl
@[simp] theorem State.send_spis (s : State) (o : Out) : (s.send o).spis = s.spis := rfl
@[simp] theorem State.send_replayStop (s : State) (o : Out) : (s.send o).replayStop = s.replayStop := rfl
@[simp] theorem State.send_free (s : State) (o : Out) : (s.send o).free = s.free := rfl

/-! ### setFace changes faces -/
@[simp] theorem State.setFace_pending (s : State) (f : Nat) (x : FaceSt) : (s.setFace f x).pending = s.pending := rfl
@[simp] theorem State.setFace_regs (s : State) (f : Nat) (x : FaceSt) : (s.setFace f x).regs = s.regs := rfl
@[simp] theorem State.setFace_held (s : State) (f : Nat) (x : FaceSt) : (s.setFace f x).held = s.held := rfl
@[simp] theorem State.setFace_latch (s : State) (f : Nat) (x : FaceSt) : (s.setFace f x).latch = s.latch := rfl
@[simp] theorem State.setFace_bus (s : State) (f : Nat) (x : FaceSt) : (s.setFace f x).bus = s.bus := rfl
@[simp] theorem State.setFace_mem (s : State) (f : Nat) (x : FaceSt) : (s.setFace f x).mem = s.mem := rfl
@[simp] theorem State.setFace_eccBad (s : State) (f : Nat) (x : FaceSt) : (s.setFace f x).eccBad = s.eccBad := rfl
@[simp] theorem State.setFace_eccOne (s : State) (f : Nat) (x : FaceSt) : (s.setFace f x).eccOne = s.eccOne := rfl
@[simp] theorem State.setFace_gflags (s : State) (f : Nat) (x : FaceSt) : (s.setFace f x).gflags = s.gflags := rfl
@[simp] theorem State.setFace_sflags (s : State) (f : Nat) (x : FaceSt) : (s.setFace f x).sflags = s.sflags := rfl
@[simp] theorem State.setFace_sump (s : State) (f : Nat) (x : FaceSt) : (s.setFace f x).sump = s.sump := rfl
@[simp] theorem State.setFace_faultOut (s : State) (f : Nat) (x : FaceSt) : (s.setFace f x).faultOut = s.faultOut := rfl
@[simp] theorem State.setFace_takeOut (s : State) (f : Nat) (x : FaceSt) : (s.setFace f x).takeOut = s.takeOut := rfl
@[simp] theorem State.setFace_unrepairable (s : State) (f : Nat) (x : FaceSt) : (s.setFace f x).unrepairable = s.unrepairable := rfl
@[simp] theorem State.setFace_time (s : State) (f : Nat) (x : FaceSt) : (s.setFace f x).time = s.time := rfl
@[simp] theorem State.setFace_boot (s : State) (f : Nat) (x : FaceSt) : (s.setFace f x).boot = s.boot := rfl
@[simp] theorem State.setFace_power (s : State) (f : Nat) (x : FaceSt) : (s.setFace f x).power = s.power := rfl
@[simp] theorem State.setFace_ctxs (s : State) (f : Nat) (x : FaceSt) : (s.setFace f x).ctxs = s.ctxs := rfl
@[simp] theorem State.setFace_runs (s : State) (f : Nat) (x : FaceSt) : (s.setFace f x).runs = s.runs := rfl
@[simp] theorem State.setFace_slotLast (s : State) (f : Nat) (x : FaceSt) : (s.setFace f x).slotLast = s.slotLast := rfl
@[simp] theorem State.setFace_parts (s : State) (f : Nat) (x : FaceSt) : (s.setFace f x).parts = s.parts := rfl
@[simp] theorem State.setFace_launches (s : State) (f : Nat) (x : FaceSt) : (s.setFace f x).launches = s.launches := rfl
@[simp] theorem State.setFace_windows (s : State) (f : Nat) (x : FaceSt) : (s.setFace f x).windows = s.windows := rfl
@[simp] theorem State.setFace_ctxCmd (s : State) (f : Nat) (x : FaceSt) : (s.setFace f x).ctxCmd = s.ctxCmd := rfl
@[simp] theorem State.setFace_batchReqs (s : State) (f : Nat) (x : FaceSt) : (s.setFace f x).batchReqs = s.batchReqs := rfl
@[simp] theorem State.setFace_members (s : State) (f : Nat) (x : FaceSt) : (s.setFace f x).members = s.members := rfl
@[simp] theorem State.setFace_hoists (s : State) (f : Nat) (x : FaceSt) : (s.setFace f x).hoists = s.hoists := rfl
@[simp] theorem State.setFace_bands (s : State) (f : Nat) (x : FaceSt) : (s.setFace f x).bands = s.bands := rfl
@[simp] theorem State.setFace_groups (s : State) (f : Nat) (x : FaceSt) : (s.setFace f x).groups = s.groups := rfl
@[simp] theorem State.setFace_sched (s : State) (f : Nat) (x : FaceSt) : (s.setFace f x).sched = s.sched := rfl
@[simp] theorem State.setFace_slotLoading (s : State) (f : Nat) (x : FaceSt) : (s.setFace f x).slotLoading = s.slotLoading := rfl
@[simp] theorem State.setFace_fwdPoses (s : State) (f : Nat) (x : FaceSt) : (s.setFace f x).fwdPoses = s.fwdPoses := rfl
@[simp] theorem State.setFace_adapt (s : State) (f : Nat) (x : FaceSt) : (s.setFace f x).adapt = s.adapt := rfl
@[simp] theorem State.setFace_lateSeen (s : State) (f : Nat) (x : FaceSt) : (s.setFace f x).lateSeen = s.lateSeen := rfl
@[simp] theorem State.setFace_red (s : State) (f : Nat) (x : FaceSt) : (s.setFace f x).red = s.red := rfl
@[simp] theorem State.setFace_redWait (s : State) (f : Nat) (x : FaceSt) : (s.setFace f x).redWait = s.redWait := rfl
@[simp] theorem State.setFace_doneWatch (s : State) (f : Nat) (x : FaceSt) : (s.setFace f x).doneWatch = s.doneWatch := rfl
@[simp] theorem State.setFace_heads (s : State) (f : Nat) (x : FaceSt) : (s.setFace f x).heads = s.heads := rfl
@[simp] theorem State.setFace_frameSum (s : State) (f : Nat) (x : FaceSt) : (s.setFace f x).frameSum = s.frameSum := rfl
@[simp] theorem State.setFace_recGap (s : State) (f : Nat) (x : FaceSt) : (s.setFace f x).recGap = s.recGap := rfl
@[simp] theorem State.setFace_trecSeq (s : State) (f : Nat) (x : FaceSt) : (s.setFace f x).trecSeq = s.trecSeq := rfl
@[simp] theorem State.setFace_haloGot (s : State) (f : Nat) (x : FaceSt) : (s.setFace f x).haloGot = s.haloGot := rfl
@[simp] theorem State.setFace_slots (s : State) (f : Nat) (x : FaceSt) : (s.setFace f x).slots = s.slots := rfl
@[simp] theorem State.setFace_slotDesc (s : State) (f : Nat) (x : FaceSt) : (s.setFace f x).slotDesc = s.slotDesc := rfl
@[simp] theorem State.setFace_xc (s : State) (f : Nat) (x : FaceSt) : (s.setFace f x).xc = s.xc := rfl
@[simp] theorem State.setFace_bcastLast (s : State) (f : Nat) (x : FaceSt) : (s.setFace f x).bcastLast = s.bcastLast := rfl
@[simp] theorem State.setFace_peerFault (s : State) (f : Nat) (x : FaceSt) : (s.setFace f x).peerFault = s.peerFault := rfl
@[simp] theorem State.setFace_takePend (s : State) (f : Nat) (x : FaceSt) : (s.setFace f x).takePend = s.takePend := rfl
@[simp] theorem State.setFace_sess (s : State) (f : Nat) (x : FaceSt) : (s.setFace f x).sess = s.sess := rfl
@[simp] theorem State.setFace_adits (s : State) (f : Nat) (x : FaceSt) : (s.setFace f x).adits = s.adits := rfl
@[simp] theorem State.setFace_rxq (s : State) (f : Nat) (x : FaceSt) : (s.setFace f x).rxq = s.rxq := rfl
@[simp] theorem State.setFace_cb (s : State) (f : Nat) (x : FaceSt) : (s.setFace f x).cb = s.cb := rfl
@[simp] theorem State.setFace_jobSeq (s : State) (f : Nat) (x : FaceSt) : (s.setFace f x).jobSeq = s.jobSeq := rfl
@[simp] theorem State.setFace_tilers (s : State) (f : Nat) (x : FaceSt) : (s.setFace f x).tilers = s.tilers := rfl
@[simp] theorem State.setFace_sorters (s : State) (f : Nat) (x : FaceSt) : (s.setFace f x).sorters = s.sorters := rfl
@[simp] theorem State.setFace_assay (s : State) (f : Nat) (x : FaceSt) : (s.setFace f x).assay = s.assay := rfl
@[simp] theorem State.setFace_mf (s : State) (f : Nat) (x : FaceSt) : (s.setFace f x).mf = s.mf := rfl
@[simp] theorem State.setFace_cams (s : State) (f : Nat) (x : FaceSt) : (s.setFace f x).cams = s.cams := rfl
@[simp] theorem State.setFace_flows (s : State) (f : Nat) (x : FaceSt) : (s.setFace f x).flows = s.flows := rfl
@[simp] theorem State.setFace_spis (s : State) (f : Nat) (x : FaceSt) : (s.setFace f x).spis = s.spis := rfl
@[simp] theorem State.setFace_replayStop (s : State) (f : Nat) (x : FaceSt) : (s.setFace f x).replayStop = s.replayStop := rfl
@[simp] theorem State.setFace_out (s : State) (f : Nat) (x : FaceSt) : (s.setFace f x).out = s.out := rfl
@[simp] theorem State.setFace_free (s : State) (f : Nat) (x : FaceSt) : (s.setFace f x).free = s.free := rfl

/-! ### setRun changes runs -/
@[simp] theorem State.setRun_pending (s : State) (h : Nat) (r : Run) : (s.setRun h r).pending = s.pending := rfl
@[simp] theorem State.setRun_regs (s : State) (h : Nat) (r : Run) : (s.setRun h r).regs = s.regs := rfl
@[simp] theorem State.setRun_held (s : State) (h : Nat) (r : Run) : (s.setRun h r).held = s.held := rfl
@[simp] theorem State.setRun_latch (s : State) (h : Nat) (r : Run) : (s.setRun h r).latch = s.latch := rfl
@[simp] theorem State.setRun_bus (s : State) (h : Nat) (r : Run) : (s.setRun h r).bus = s.bus := rfl
@[simp] theorem State.setRun_mem (s : State) (h : Nat) (r : Run) : (s.setRun h r).mem = s.mem := rfl
@[simp] theorem State.setRun_eccBad (s : State) (h : Nat) (r : Run) : (s.setRun h r).eccBad = s.eccBad := rfl
@[simp] theorem State.setRun_eccOne (s : State) (h : Nat) (r : Run) : (s.setRun h r).eccOne = s.eccOne := rfl
@[simp] theorem State.setRun_gflags (s : State) (h : Nat) (r : Run) : (s.setRun h r).gflags = s.gflags := rfl
@[simp] theorem State.setRun_sflags (s : State) (h : Nat) (r : Run) : (s.setRun h r).sflags = s.sflags := rfl
@[simp] theorem State.setRun_sump (s : State) (h : Nat) (r : Run) : (s.setRun h r).sump = s.sump := rfl
@[simp] theorem State.setRun_faultOut (s : State) (h : Nat) (r : Run) : (s.setRun h r).faultOut = s.faultOut := rfl
@[simp] theorem State.setRun_takeOut (s : State) (h : Nat) (r : Run) : (s.setRun h r).takeOut = s.takeOut := rfl
@[simp] theorem State.setRun_unrepairable (s : State) (h : Nat) (r : Run) : (s.setRun h r).unrepairable = s.unrepairable := rfl
@[simp] theorem State.setRun_time (s : State) (h : Nat) (r : Run) : (s.setRun h r).time = s.time := rfl
@[simp] theorem State.setRun_boot (s : State) (h : Nat) (r : Run) : (s.setRun h r).boot = s.boot := rfl
@[simp] theorem State.setRun_power (s : State) (h : Nat) (r : Run) : (s.setRun h r).power = s.power := rfl
@[simp] theorem State.setRun_faces (s : State) (h : Nat) (r : Run) : (s.setRun h r).faces = s.faces := rfl
@[simp] theorem State.setRun_ctxs (s : State) (h : Nat) (r : Run) : (s.setRun h r).ctxs = s.ctxs := rfl
@[simp] theorem State.setRun_slotLast (s : State) (h : Nat) (r : Run) : (s.setRun h r).slotLast = s.slotLast := rfl
@[simp] theorem State.setRun_parts (s : State) (h : Nat) (r : Run) : (s.setRun h r).parts = s.parts := rfl
@[simp] theorem State.setRun_launches (s : State) (h : Nat) (r : Run) : (s.setRun h r).launches = s.launches := rfl
@[simp] theorem State.setRun_windows (s : State) (h : Nat) (r : Run) : (s.setRun h r).windows = s.windows := rfl
@[simp] theorem State.setRun_ctxCmd (s : State) (h : Nat) (r : Run) : (s.setRun h r).ctxCmd = s.ctxCmd := rfl
@[simp] theorem State.setRun_batchReqs (s : State) (h : Nat) (r : Run) : (s.setRun h r).batchReqs = s.batchReqs := rfl
@[simp] theorem State.setRun_members (s : State) (h : Nat) (r : Run) : (s.setRun h r).members = s.members := rfl
@[simp] theorem State.setRun_hoists (s : State) (h : Nat) (r : Run) : (s.setRun h r).hoists = s.hoists := rfl
@[simp] theorem State.setRun_bands (s : State) (h : Nat) (r : Run) : (s.setRun h r).bands = s.bands := rfl
@[simp] theorem State.setRun_groups (s : State) (h : Nat) (r : Run) : (s.setRun h r).groups = s.groups := rfl
@[simp] theorem State.setRun_sched (s : State) (h : Nat) (r : Run) : (s.setRun h r).sched = s.sched := rfl
@[simp] theorem State.setRun_slotLoading (s : State) (h : Nat) (r : Run) : (s.setRun h r).slotLoading = s.slotLoading := rfl
@[simp] theorem State.setRun_fwdPoses (s : State) (h : Nat) (r : Run) : (s.setRun h r).fwdPoses = s.fwdPoses := rfl
@[simp] theorem State.setRun_adapt (s : State) (h : Nat) (r : Run) : (s.setRun h r).adapt = s.adapt := rfl
@[simp] theorem State.setRun_lateSeen (s : State) (h : Nat) (r : Run) : (s.setRun h r).lateSeen = s.lateSeen := rfl
@[simp] theorem State.setRun_red (s : State) (h : Nat) (r : Run) : (s.setRun h r).red = s.red := rfl
@[simp] theorem State.setRun_redWait (s : State) (h : Nat) (r : Run) : (s.setRun h r).redWait = s.redWait := rfl
@[simp] theorem State.setRun_doneWatch (s : State) (h : Nat) (r : Run) : (s.setRun h r).doneWatch = s.doneWatch := rfl
@[simp] theorem State.setRun_heads (s : State) (h : Nat) (r : Run) : (s.setRun h r).heads = s.heads := rfl
@[simp] theorem State.setRun_frameSum (s : State) (h : Nat) (r : Run) : (s.setRun h r).frameSum = s.frameSum := rfl
@[simp] theorem State.setRun_recGap (s : State) (h : Nat) (r : Run) : (s.setRun h r).recGap = s.recGap := rfl
@[simp] theorem State.setRun_trecSeq (s : State) (h : Nat) (r : Run) : (s.setRun h r).trecSeq = s.trecSeq := rfl
@[simp] theorem State.setRun_haloGot (s : State) (h : Nat) (r : Run) : (s.setRun h r).haloGot = s.haloGot := rfl
@[simp] theorem State.setRun_slots (s : State) (h : Nat) (r : Run) : (s.setRun h r).slots = s.slots := rfl
@[simp] theorem State.setRun_slotDesc (s : State) (h : Nat) (r : Run) : (s.setRun h r).slotDesc = s.slotDesc := rfl
@[simp] theorem State.setRun_xc (s : State) (h : Nat) (r : Run) : (s.setRun h r).xc = s.xc := rfl
@[simp] theorem State.setRun_bcastLast (s : State) (h : Nat) (r : Run) : (s.setRun h r).bcastLast = s.bcastLast := rfl
@[simp] theorem State.setRun_peerFault (s : State) (h : Nat) (r : Run) : (s.setRun h r).peerFault = s.peerFault := rfl
@[simp] theorem State.setRun_takePend (s : State) (h : Nat) (r : Run) : (s.setRun h r).takePend = s.takePend := rfl
@[simp] theorem State.setRun_sess (s : State) (h : Nat) (r : Run) : (s.setRun h r).sess = s.sess := rfl
@[simp] theorem State.setRun_adits (s : State) (h : Nat) (r : Run) : (s.setRun h r).adits = s.adits := rfl
@[simp] theorem State.setRun_rxq (s : State) (h : Nat) (r : Run) : (s.setRun h r).rxq = s.rxq := rfl
@[simp] theorem State.setRun_cb (s : State) (h : Nat) (r : Run) : (s.setRun h r).cb = s.cb := rfl
@[simp] theorem State.setRun_jobSeq (s : State) (h : Nat) (r : Run) : (s.setRun h r).jobSeq = s.jobSeq := rfl
@[simp] theorem State.setRun_tilers (s : State) (h : Nat) (r : Run) : (s.setRun h r).tilers = s.tilers := rfl
@[simp] theorem State.setRun_sorters (s : State) (h : Nat) (r : Run) : (s.setRun h r).sorters = s.sorters := rfl
@[simp] theorem State.setRun_assay (s : State) (h : Nat) (r : Run) : (s.setRun h r).assay = s.assay := rfl
@[simp] theorem State.setRun_mf (s : State) (h : Nat) (r : Run) : (s.setRun h r).mf = s.mf := rfl
@[simp] theorem State.setRun_cams (s : State) (h : Nat) (r : Run) : (s.setRun h r).cams = s.cams := rfl
@[simp] theorem State.setRun_flows (s : State) (h : Nat) (r : Run) : (s.setRun h r).flows = s.flows := rfl
@[simp] theorem State.setRun_spis (s : State) (h : Nat) (r : Run) : (s.setRun h r).spis = s.spis := rfl
@[simp] theorem State.setRun_replayStop (s : State) (h : Nat) (r : Run) : (s.setRun h r).replayStop = s.replayStop := rfl
@[simp] theorem State.setRun_out (s : State) (h : Nat) (r : Run) : (s.setRun h r).out = s.out := rfl
@[simp] theorem State.setRun_free (s : State) (h : Nat) (r : Run) : (s.setRun h r).free = s.free := rfl

/-! ### setPart changes parts -/
@[simp] theorem State.setPart_pending (s : State) (p : Nat) (x : PartSt) : (s.setPart p x).pending = s.pending := rfl
@[simp] theorem State.setPart_regs (s : State) (p : Nat) (x : PartSt) : (s.setPart p x).regs = s.regs := rfl
@[simp] theorem State.setPart_held (s : State) (p : Nat) (x : PartSt) : (s.setPart p x).held = s.held := rfl
@[simp] theorem State.setPart_latch (s : State) (p : Nat) (x : PartSt) : (s.setPart p x).latch = s.latch := rfl
@[simp] theorem State.setPart_bus (s : State) (p : Nat) (x : PartSt) : (s.setPart p x).bus = s.bus := rfl
@[simp] theorem State.setPart_mem (s : State) (p : Nat) (x : PartSt) : (s.setPart p x).mem = s.mem := rfl
@[simp] theorem State.setPart_eccBad (s : State) (p : Nat) (x : PartSt) : (s.setPart p x).eccBad = s.eccBad := rfl
@[simp] theorem State.setPart_eccOne (s : State) (p : Nat) (x : PartSt) : (s.setPart p x).eccOne = s.eccOne := rfl
@[simp] theorem State.setPart_gflags (s : State) (p : Nat) (x : PartSt) : (s.setPart p x).gflags = s.gflags := rfl
@[simp] theorem State.setPart_sflags (s : State) (p : Nat) (x : PartSt) : (s.setPart p x).sflags = s.sflags := rfl
@[simp] theorem State.setPart_sump (s : State) (p : Nat) (x : PartSt) : (s.setPart p x).sump = s.sump := rfl
@[simp] theorem State.setPart_faultOut (s : State) (p : Nat) (x : PartSt) : (s.setPart p x).faultOut = s.faultOut := rfl
@[simp] theorem State.setPart_takeOut (s : State) (p : Nat) (x : PartSt) : (s.setPart p x).takeOut = s.takeOut := rfl
@[simp] theorem State.setPart_unrepairable (s : State) (p : Nat) (x : PartSt) : (s.setPart p x).unrepairable = s.unrepairable := rfl
@[simp] theorem State.setPart_time (s : State) (p : Nat) (x : PartSt) : (s.setPart p x).time = s.time := rfl
@[simp] theorem State.setPart_boot (s : State) (p : Nat) (x : PartSt) : (s.setPart p x).boot = s.boot := rfl
@[simp] theorem State.setPart_power (s : State) (p : Nat) (x : PartSt) : (s.setPart p x).power = s.power := rfl
@[simp] theorem State.setPart_faces (s : State) (p : Nat) (x : PartSt) : (s.setPart p x).faces = s.faces := rfl
@[simp] theorem State.setPart_ctxs (s : State) (p : Nat) (x : PartSt) : (s.setPart p x).ctxs = s.ctxs := rfl
@[simp] theorem State.setPart_runs (s : State) (p : Nat) (x : PartSt) : (s.setPart p x).runs = s.runs := rfl
@[simp] theorem State.setPart_slotLast (s : State) (p : Nat) (x : PartSt) : (s.setPart p x).slotLast = s.slotLast := rfl
@[simp] theorem State.setPart_launches (s : State) (p : Nat) (x : PartSt) : (s.setPart p x).launches = s.launches := rfl
@[simp] theorem State.setPart_windows (s : State) (p : Nat) (x : PartSt) : (s.setPart p x).windows = s.windows := rfl
@[simp] theorem State.setPart_ctxCmd (s : State) (p : Nat) (x : PartSt) : (s.setPart p x).ctxCmd = s.ctxCmd := rfl
@[simp] theorem State.setPart_batchReqs (s : State) (p : Nat) (x : PartSt) : (s.setPart p x).batchReqs = s.batchReqs := rfl
@[simp] theorem State.setPart_members (s : State) (p : Nat) (x : PartSt) : (s.setPart p x).members = s.members := rfl
@[simp] theorem State.setPart_hoists (s : State) (p : Nat) (x : PartSt) : (s.setPart p x).hoists = s.hoists := rfl
@[simp] theorem State.setPart_bands (s : State) (p : Nat) (x : PartSt) : (s.setPart p x).bands = s.bands := rfl
@[simp] theorem State.setPart_groups (s : State) (p : Nat) (x : PartSt) : (s.setPart p x).groups = s.groups := rfl
@[simp] theorem State.setPart_sched (s : State) (p : Nat) (x : PartSt) : (s.setPart p x).sched = s.sched := rfl
@[simp] theorem State.setPart_slotLoading (s : State) (p : Nat) (x : PartSt) : (s.setPart p x).slotLoading = s.slotLoading := rfl
@[simp] theorem State.setPart_fwdPoses (s : State) (p : Nat) (x : PartSt) : (s.setPart p x).fwdPoses = s.fwdPoses := rfl
@[simp] theorem State.setPart_adapt (s : State) (p : Nat) (x : PartSt) : (s.setPart p x).adapt = s.adapt := rfl
@[simp] theorem State.setPart_lateSeen (s : State) (p : Nat) (x : PartSt) : (s.setPart p x).lateSeen = s.lateSeen := rfl
@[simp] theorem State.setPart_red (s : State) (p : Nat) (x : PartSt) : (s.setPart p x).red = s.red := rfl
@[simp] theorem State.setPart_redWait (s : State) (p : Nat) (x : PartSt) : (s.setPart p x).redWait = s.redWait := rfl
@[simp] theorem State.setPart_doneWatch (s : State) (p : Nat) (x : PartSt) : (s.setPart p x).doneWatch = s.doneWatch := rfl
@[simp] theorem State.setPart_heads (s : State) (p : Nat) (x : PartSt) : (s.setPart p x).heads = s.heads := rfl
@[simp] theorem State.setPart_frameSum (s : State) (p : Nat) (x : PartSt) : (s.setPart p x).frameSum = s.frameSum := rfl
@[simp] theorem State.setPart_recGap (s : State) (p : Nat) (x : PartSt) : (s.setPart p x).recGap = s.recGap := rfl
@[simp] theorem State.setPart_trecSeq (s : State) (p : Nat) (x : PartSt) : (s.setPart p x).trecSeq = s.trecSeq := rfl
@[simp] theorem State.setPart_haloGot (s : State) (p : Nat) (x : PartSt) : (s.setPart p x).haloGot = s.haloGot := rfl
@[simp] theorem State.setPart_slots (s : State) (p : Nat) (x : PartSt) : (s.setPart p x).slots = s.slots := rfl
@[simp] theorem State.setPart_slotDesc (s : State) (p : Nat) (x : PartSt) : (s.setPart p x).slotDesc = s.slotDesc := rfl
@[simp] theorem State.setPart_xc (s : State) (p : Nat) (x : PartSt) : (s.setPart p x).xc = s.xc := rfl
@[simp] theorem State.setPart_bcastLast (s : State) (p : Nat) (x : PartSt) : (s.setPart p x).bcastLast = s.bcastLast := rfl
@[simp] theorem State.setPart_peerFault (s : State) (p : Nat) (x : PartSt) : (s.setPart p x).peerFault = s.peerFault := rfl
@[simp] theorem State.setPart_takePend (s : State) (p : Nat) (x : PartSt) : (s.setPart p x).takePend = s.takePend := rfl
@[simp] theorem State.setPart_sess (s : State) (p : Nat) (x : PartSt) : (s.setPart p x).sess = s.sess := rfl
@[simp] theorem State.setPart_adits (s : State) (p : Nat) (x : PartSt) : (s.setPart p x).adits = s.adits := rfl
@[simp] theorem State.setPart_rxq (s : State) (p : Nat) (x : PartSt) : (s.setPart p x).rxq = s.rxq := rfl
@[simp] theorem State.setPart_cb (s : State) (p : Nat) (x : PartSt) : (s.setPart p x).cb = s.cb := rfl
@[simp] theorem State.setPart_jobSeq (s : State) (p : Nat) (x : PartSt) : (s.setPart p x).jobSeq = s.jobSeq := rfl
@[simp] theorem State.setPart_tilers (s : State) (p : Nat) (x : PartSt) : (s.setPart p x).tilers = s.tilers := rfl
@[simp] theorem State.setPart_sorters (s : State) (p : Nat) (x : PartSt) : (s.setPart p x).sorters = s.sorters := rfl
@[simp] theorem State.setPart_assay (s : State) (p : Nat) (x : PartSt) : (s.setPart p x).assay = s.assay := rfl
@[simp] theorem State.setPart_mf (s : State) (p : Nat) (x : PartSt) : (s.setPart p x).mf = s.mf := rfl
@[simp] theorem State.setPart_cams (s : State) (p : Nat) (x : PartSt) : (s.setPart p x).cams = s.cams := rfl
@[simp] theorem State.setPart_flows (s : State) (p : Nat) (x : PartSt) : (s.setPart p x).flows = s.flows := rfl
@[simp] theorem State.setPart_spis (s : State) (p : Nat) (x : PartSt) : (s.setPart p x).spis = s.spis := rfl
@[simp] theorem State.setPart_replayStop (s : State) (p : Nat) (x : PartSt) : (s.setPart p x).replayStop = s.replayStop := rfl
@[simp] theorem State.setPart_out (s : State) (p : Nat) (x : PartSt) : (s.setPart p x).out = s.out := rfl
@[simp] theorem State.setPart_free (s : State) (p : Nat) (x : PartSt) : (s.setPart p x).free = s.free := rfl

/-! ### dropLaunch changes launches -/
@[simp] theorem State.dropLaunch_pending (s : State) (k : Nat) : (s.dropLaunch k).pending = s.pending := rfl
@[simp] theorem State.dropLaunch_regs (s : State) (k : Nat) : (s.dropLaunch k).regs = s.regs := rfl
@[simp] theorem State.dropLaunch_held (s : State) (k : Nat) : (s.dropLaunch k).held = s.held := rfl
@[simp] theorem State.dropLaunch_latch (s : State) (k : Nat) : (s.dropLaunch k).latch = s.latch := rfl
@[simp] theorem State.dropLaunch_bus (s : State) (k : Nat) : (s.dropLaunch k).bus = s.bus := rfl
@[simp] theorem State.dropLaunch_mem (s : State) (k : Nat) : (s.dropLaunch k).mem = s.mem := rfl
@[simp] theorem State.dropLaunch_eccBad (s : State) (k : Nat) : (s.dropLaunch k).eccBad = s.eccBad := rfl
@[simp] theorem State.dropLaunch_eccOne (s : State) (k : Nat) : (s.dropLaunch k).eccOne = s.eccOne := rfl
@[simp] theorem State.dropLaunch_gflags (s : State) (k : Nat) : (s.dropLaunch k).gflags = s.gflags := rfl
@[simp] theorem State.dropLaunch_sflags (s : State) (k : Nat) : (s.dropLaunch k).sflags = s.sflags := rfl
@[simp] theorem State.dropLaunch_sump (s : State) (k : Nat) : (s.dropLaunch k).sump = s.sump := rfl
@[simp] theorem State.dropLaunch_faultOut (s : State) (k : Nat) : (s.dropLaunch k).faultOut = s.faultOut := rfl
@[simp] theorem State.dropLaunch_takeOut (s : State) (k : Nat) : (s.dropLaunch k).takeOut = s.takeOut := rfl
@[simp] theorem State.dropLaunch_unrepairable (s : State) (k : Nat) : (s.dropLaunch k).unrepairable = s.unrepairable := rfl
@[simp] theorem State.dropLaunch_time (s : State) (k : Nat) : (s.dropLaunch k).time = s.time := rfl
@[simp] theorem State.dropLaunch_boot (s : State) (k : Nat) : (s.dropLaunch k).boot = s.boot := rfl
@[simp] theorem State.dropLaunch_power (s : State) (k : Nat) : (s.dropLaunch k).power = s.power := rfl
@[simp] theorem State.dropLaunch_faces (s : State) (k : Nat) : (s.dropLaunch k).faces = s.faces := rfl
@[simp] theorem State.dropLaunch_ctxs (s : State) (k : Nat) : (s.dropLaunch k).ctxs = s.ctxs := rfl
@[simp] theorem State.dropLaunch_runs (s : State) (k : Nat) : (s.dropLaunch k).runs = s.runs := rfl
@[simp] theorem State.dropLaunch_slotLast (s : State) (k : Nat) : (s.dropLaunch k).slotLast = s.slotLast := rfl
@[simp] theorem State.dropLaunch_parts (s : State) (k : Nat) : (s.dropLaunch k).parts = s.parts := rfl
@[simp] theorem State.dropLaunch_windows (s : State) (k : Nat) : (s.dropLaunch k).windows = s.windows := rfl
@[simp] theorem State.dropLaunch_ctxCmd (s : State) (k : Nat) : (s.dropLaunch k).ctxCmd = s.ctxCmd := rfl
@[simp] theorem State.dropLaunch_batchReqs (s : State) (k : Nat) : (s.dropLaunch k).batchReqs = s.batchReqs := rfl
@[simp] theorem State.dropLaunch_members (s : State) (k : Nat) : (s.dropLaunch k).members = s.members := rfl
@[simp] theorem State.dropLaunch_hoists (s : State) (k : Nat) : (s.dropLaunch k).hoists = s.hoists := rfl
@[simp] theorem State.dropLaunch_bands (s : State) (k : Nat) : (s.dropLaunch k).bands = s.bands := rfl
@[simp] theorem State.dropLaunch_groups (s : State) (k : Nat) : (s.dropLaunch k).groups = s.groups := rfl
@[simp] theorem State.dropLaunch_sched (s : State) (k : Nat) : (s.dropLaunch k).sched = s.sched := rfl
@[simp] theorem State.dropLaunch_slotLoading (s : State) (k : Nat) : (s.dropLaunch k).slotLoading = s.slotLoading := rfl
@[simp] theorem State.dropLaunch_fwdPoses (s : State) (k : Nat) : (s.dropLaunch k).fwdPoses = s.fwdPoses := rfl
@[simp] theorem State.dropLaunch_adapt (s : State) (k : Nat) : (s.dropLaunch k).adapt = s.adapt := rfl
@[simp] theorem State.dropLaunch_lateSeen (s : State) (k : Nat) : (s.dropLaunch k).lateSeen = s.lateSeen := rfl
@[simp] theorem State.dropLaunch_red (s : State) (k : Nat) : (s.dropLaunch k).red = s.red := rfl
@[simp] theorem State.dropLaunch_redWait (s : State) (k : Nat) : (s.dropLaunch k).redWait = s.redWait := rfl
@[simp] theorem State.dropLaunch_doneWatch (s : State) (k : Nat) : (s.dropLaunch k).doneWatch = s.doneWatch := rfl
@[simp] theorem State.dropLaunch_heads (s : State) (k : Nat) : (s.dropLaunch k).heads = s.heads := rfl
@[simp] theorem State.dropLaunch_frameSum (s : State) (k : Nat) : (s.dropLaunch k).frameSum = s.frameSum := rfl
@[simp] theorem State.dropLaunch_recGap (s : State) (k : Nat) : (s.dropLaunch k).recGap = s.recGap := rfl
@[simp] theorem State.dropLaunch_trecSeq (s : State) (k : Nat) : (s.dropLaunch k).trecSeq = s.trecSeq := rfl
@[simp] theorem State.dropLaunch_haloGot (s : State) (k : Nat) : (s.dropLaunch k).haloGot = s.haloGot := rfl
@[simp] theorem State.dropLaunch_slots (s : State) (k : Nat) : (s.dropLaunch k).slots = s.slots := rfl
@[simp] theorem State.dropLaunch_slotDesc (s : State) (k : Nat) : (s.dropLaunch k).slotDesc = s.slotDesc := rfl
@[simp] theorem State.dropLaunch_xc (s : State) (k : Nat) : (s.dropLaunch k).xc = s.xc := rfl
@[simp] theorem State.dropLaunch_bcastLast (s : State) (k : Nat) : (s.dropLaunch k).bcastLast = s.bcastLast := rfl
@[simp] theorem State.dropLaunch_peerFault (s : State) (k : Nat) : (s.dropLaunch k).peerFault = s.peerFault := rfl
@[simp] theorem State.dropLaunch_takePend (s : State) (k : Nat) : (s.dropLaunch k).takePend = s.takePend := rfl
@[simp] theorem State.dropLaunch_sess (s : State) (k : Nat) : (s.dropLaunch k).sess = s.sess := rfl
@[simp] theorem State.dropLaunch_adits (s : State) (k : Nat) : (s.dropLaunch k).adits = s.adits := rfl
@[simp] theorem State.dropLaunch_rxq (s : State) (k : Nat) : (s.dropLaunch k).rxq = s.rxq := rfl
@[simp] theorem State.dropLaunch_cb (s : State) (k : Nat) : (s.dropLaunch k).cb = s.cb := rfl
@[simp] theorem State.dropLaunch_jobSeq (s : State) (k : Nat) : (s.dropLaunch k).jobSeq = s.jobSeq := rfl
@[simp] theorem State.dropLaunch_tilers (s : State) (k : Nat) : (s.dropLaunch k).tilers = s.tilers := rfl
@[simp] theorem State.dropLaunch_sorters (s : State) (k : Nat) : (s.dropLaunch k).sorters = s.sorters := rfl
@[simp] theorem State.dropLaunch_assay (s : State) (k : Nat) : (s.dropLaunch k).assay = s.assay := rfl
@[simp] theorem State.dropLaunch_mf (s : State) (k : Nat) : (s.dropLaunch k).mf = s.mf := rfl
@[simp] theorem State.dropLaunch_cams (s : State) (k : Nat) : (s.dropLaunch k).cams = s.cams := rfl
@[simp] theorem State.dropLaunch_flows (s : State) (k : Nat) : (s.dropLaunch k).flows = s.flows := rfl
@[simp] theorem State.dropLaunch_spis (s : State) (k : Nat) : (s.dropLaunch k).spis = s.spis := rfl
@[simp] theorem State.dropLaunch_replayStop (s : State) (k : Nat) : (s.dropLaunch k).replayStop = s.replayStop := rfl
@[simp] theorem State.dropLaunch_out (s : State) (k : Nat) : (s.dropLaunch k).out = s.out := rfl
@[simp] theorem State.dropLaunch_free (s : State) (k : Nat) : (s.dropLaunch k).free = s.free := rfl

/-! ### setHoist changes hoists -/
@[simp] theorem State.setHoist_pending (s : State) (h : Nat) (q : List HoistJob) : (s.setHoist h q).pending = s.pending := rfl
@[simp] theorem State.setHoist_regs (s : State) (h : Nat) (q : List HoistJob) : (s.setHoist h q).regs = s.regs := rfl
@[simp] theorem State.setHoist_held (s : State) (h : Nat) (q : List HoistJob) : (s.setHoist h q).held = s.held := rfl
@[simp] theorem State.setHoist_latch (s : State) (h : Nat) (q : List HoistJob) : (s.setHoist h q).latch = s.latch := rfl
@[simp] theorem State.setHoist_bus (s : State) (h : Nat) (q : List HoistJob) : (s.setHoist h q).bus = s.bus := rfl
@[simp] theorem State.setHoist_mem (s : State) (h : Nat) (q : List HoistJob) : (s.setHoist h q).mem = s.mem := rfl
@[simp] theorem State.setHoist_eccBad (s : State) (h : Nat) (q : List HoistJob) : (s.setHoist h q).eccBad = s.eccBad := rfl
@[simp] theorem State.setHoist_eccOne (s : State) (h : Nat) (q : List HoistJob) : (s.setHoist h q).eccOne = s.eccOne := rfl
@[simp] theorem State.setHoist_gflags (s : State) (h : Nat) (q : List HoistJob) : (s.setHoist h q).gflags = s.gflags := rfl
@[simp] theorem State.setHoist_sflags (s : State) (h : Nat) (q : List HoistJob) : (s.setHoist h q).sflags = s.sflags := rfl
@[simp] theorem State.setHoist_sump (s : State) (h : Nat) (q : List HoistJob) : (s.setHoist h q).sump = s.sump := rfl
@[simp] theorem State.setHoist_faultOut (s : State) (h : Nat) (q : List HoistJob) : (s.setHoist h q).faultOut = s.faultOut := rfl
@[simp] theorem State.setHoist_takeOut (s : State) (h : Nat) (q : List HoistJob) : (s.setHoist h q).takeOut = s.takeOut := rfl
@[simp] theorem State.setHoist_unrepairable (s : State) (h : Nat) (q : List HoistJob) : (s.setHoist h q).unrepairable = s.unrepairable := rfl
@[simp] theorem State.setHoist_time (s : State) (h : Nat) (q : List HoistJob) : (s.setHoist h q).time = s.time := rfl
@[simp] theorem State.setHoist_boot (s : State) (h : Nat) (q : List HoistJob) : (s.setHoist h q).boot = s.boot := rfl
@[simp] theorem State.setHoist_power (s : State) (h : Nat) (q : List HoistJob) : (s.setHoist h q).power = s.power := rfl
@[simp] theorem State.setHoist_faces (s : State) (h : Nat) (q : List HoistJob) : (s.setHoist h q).faces = s.faces := rfl
@[simp] theorem State.setHoist_ctxs (s : State) (h : Nat) (q : List HoistJob) : (s.setHoist h q).ctxs = s.ctxs := rfl
@[simp] theorem State.setHoist_runs (s : State) (h : Nat) (q : List HoistJob) : (s.setHoist h q).runs = s.runs := rfl
@[simp] theorem State.setHoist_slotLast (s : State) (h : Nat) (q : List HoistJob) : (s.setHoist h q).slotLast = s.slotLast := rfl
@[simp] theorem State.setHoist_parts (s : State) (h : Nat) (q : List HoistJob) : (s.setHoist h q).parts = s.parts := rfl
@[simp] theorem State.setHoist_launches (s : State) (h : Nat) (q : List HoistJob) : (s.setHoist h q).launches = s.launches := rfl
@[simp] theorem State.setHoist_windows (s : State) (h : Nat) (q : List HoistJob) : (s.setHoist h q).windows = s.windows := rfl
@[simp] theorem State.setHoist_ctxCmd (s : State) (h : Nat) (q : List HoistJob) : (s.setHoist h q).ctxCmd = s.ctxCmd := rfl
@[simp] theorem State.setHoist_batchReqs (s : State) (h : Nat) (q : List HoistJob) : (s.setHoist h q).batchReqs = s.batchReqs := rfl
@[simp] theorem State.setHoist_members (s : State) (h : Nat) (q : List HoistJob) : (s.setHoist h q).members = s.members := rfl
@[simp] theorem State.setHoist_bands (s : State) (h : Nat) (q : List HoistJob) : (s.setHoist h q).bands = s.bands := rfl
@[simp] theorem State.setHoist_groups (s : State) (h : Nat) (q : List HoistJob) : (s.setHoist h q).groups = s.groups := rfl
@[simp] theorem State.setHoist_sched (s : State) (h : Nat) (q : List HoistJob) : (s.setHoist h q).sched = s.sched := rfl
@[simp] theorem State.setHoist_slotLoading (s : State) (h : Nat) (q : List HoistJob) : (s.setHoist h q).slotLoading = s.slotLoading := rfl
@[simp] theorem State.setHoist_fwdPoses (s : State) (h : Nat) (q : List HoistJob) : (s.setHoist h q).fwdPoses = s.fwdPoses := rfl
@[simp] theorem State.setHoist_adapt (s : State) (h : Nat) (q : List HoistJob) : (s.setHoist h q).adapt = s.adapt := rfl
@[simp] theorem State.setHoist_lateSeen (s : State) (h : Nat) (q : List HoistJob) : (s.setHoist h q).lateSeen = s.lateSeen := rfl
@[simp] theorem State.setHoist_red (s : State) (h : Nat) (q : List HoistJob) : (s.setHoist h q).red = s.red := rfl
@[simp] theorem State.setHoist_redWait (s : State) (h : Nat) (q : List HoistJob) : (s.setHoist h q).redWait = s.redWait := rfl
@[simp] theorem State.setHoist_doneWatch (s : State) (h : Nat) (q : List HoistJob) : (s.setHoist h q).doneWatch = s.doneWatch := rfl
@[simp] theorem State.setHoist_heads (s : State) (h : Nat) (q : List HoistJob) : (s.setHoist h q).heads = s.heads := rfl
@[simp] theorem State.setHoist_frameSum (s : State) (h : Nat) (q : List HoistJob) : (s.setHoist h q).frameSum = s.frameSum := rfl
@[simp] theorem State.setHoist_recGap (s : State) (h : Nat) (q : List HoistJob) : (s.setHoist h q).recGap = s.recGap := rfl
@[simp] theorem State.setHoist_trecSeq (s : State) (h : Nat) (q : List HoistJob) : (s.setHoist h q).trecSeq = s.trecSeq := rfl
@[simp] theorem State.setHoist_haloGot (s : State) (h : Nat) (q : List HoistJob) : (s.setHoist h q).haloGot = s.haloGot := rfl
@[simp] theorem State.setHoist_slots (s : State) (h : Nat) (q : List HoistJob) : (s.setHoist h q).slots = s.slots := rfl
@[simp] theorem State.setHoist_slotDesc (s : State) (h : Nat) (q : List HoistJob) : (s.setHoist h q).slotDesc = s.slotDesc := rfl
@[simp] theorem State.setHoist_xc (s : State) (h : Nat) (q : List HoistJob) : (s.setHoist h q).xc = s.xc := rfl
@[simp] theorem State.setHoist_bcastLast (s : State) (h : Nat) (q : List HoistJob) : (s.setHoist h q).bcastLast = s.bcastLast := rfl
@[simp] theorem State.setHoist_peerFault (s : State) (h : Nat) (q : List HoistJob) : (s.setHoist h q).peerFault = s.peerFault := rfl
@[simp] theorem State.setHoist_takePend (s : State) (h : Nat) (q : List HoistJob) : (s.setHoist h q).takePend = s.takePend := rfl
@[simp] theorem State.setHoist_sess (s : State) (h : Nat) (q : List HoistJob) : (s.setHoist h q).sess = s.sess := rfl
@[simp] theorem State.setHoist_adits (s : State) (h : Nat) (q : List HoistJob) : (s.setHoist h q).adits = s.adits := rfl
@[simp] theorem State.setHoist_rxq (s : State) (h : Nat) (q : List HoistJob) : (s.setHoist h q).rxq = s.rxq := rfl
@[simp] theorem State.setHoist_cb (s : State) (h : Nat) (q : List HoistJob) : (s.setHoist h q).cb = s.cb := rfl
@[simp] theorem State.setHoist_jobSeq (s : State) (h : Nat) (q : List HoistJob) : (s.setHoist h q).jobSeq = s.jobSeq := rfl
@[simp] theorem State.setHoist_tilers (s : State) (h : Nat) (q : List HoistJob) : (s.setHoist h q).tilers = s.tilers := rfl
@[simp] theorem State.setHoist_sorters (s : State) (h : Nat) (q : List HoistJob) : (s.setHoist h q).sorters = s.sorters := rfl
@[simp] theorem State.setHoist_assay (s : State) (h : Nat) (q : List HoistJob) : (s.setHoist h q).assay = s.assay := rfl
@[simp] theorem State.setHoist_mf (s : State) (h : Nat) (q : List HoistJob) : (s.setHoist h q).mf = s.mf := rfl
@[simp] theorem State.setHoist_cams (s : State) (h : Nat) (q : List HoistJob) : (s.setHoist h q).cams = s.cams := rfl
@[simp] theorem State.setHoist_flows (s : State) (h : Nat) (q : List HoistJob) : (s.setHoist h q).flows = s.flows := rfl
@[simp] theorem State.setHoist_spis (s : State) (h : Nat) (q : List HoistJob) : (s.setHoist h q).spis = s.spis := rfl
@[simp] theorem State.setHoist_replayStop (s : State) (h : Nat) (q : List HoistJob) : (s.setHoist h q).replayStop = s.replayStop := rfl
@[simp] theorem State.setHoist_out (s : State) (h : Nat) (q : List HoistJob) : (s.setHoist h q).out = s.out := rfl
@[simp] theorem State.setHoist_free (s : State) (h : Nat) (q : List HoistJob) : (s.setHoist h q).free = s.free := rfl

/-! ### modBand changes bands -/
@[simp] theorem State.modBand_pending (s : State) (k : Nat) (f : BandRun → BandRun) : (s.modBand k f).pending = s.pending := rfl
@[simp] theorem State.modBand_regs (s : State) (k : Nat) (f : BandRun → BandRun) : (s.modBand k f).regs = s.regs := rfl
@[simp] theorem State.modBand_held (s : State) (k : Nat) (f : BandRun → BandRun) : (s.modBand k f).held = s.held := rfl
@[simp] theorem State.modBand_latch (s : State) (k : Nat) (f : BandRun → BandRun) : (s.modBand k f).latch = s.latch := rfl
@[simp] theorem State.modBand_bus (s : State) (k : Nat) (f : BandRun → BandRun) : (s.modBand k f).bus = s.bus := rfl
@[simp] theorem State.modBand_mem (s : State) (k : Nat) (f : BandRun → BandRun) : (s.modBand k f).mem = s.mem := rfl
@[simp] theorem State.modBand_eccBad (s : State) (k : Nat) (f : BandRun → BandRun) : (s.modBand k f).eccBad = s.eccBad := rfl
@[simp] theorem State.modBand_eccOne (s : State) (k : Nat) (f : BandRun → BandRun) : (s.modBand k f).eccOne = s.eccOne := rfl
@[simp] theorem State.modBand_gflags (s : State) (k : Nat) (f : BandRun → BandRun) : (s.modBand k f).gflags = s.gflags := rfl
@[simp] theorem State.modBand_sflags (s : State) (k : Nat) (f : BandRun → BandRun) : (s.modBand k f).sflags = s.sflags := rfl
@[simp] theorem State.modBand_sump (s : State) (k : Nat) (f : BandRun → BandRun) : (s.modBand k f).sump = s.sump := rfl
@[simp] theorem State.modBand_faultOut (s : State) (k : Nat) (f : BandRun → BandRun) : (s.modBand k f).faultOut = s.faultOut := rfl
@[simp] theorem State.modBand_takeOut (s : State) (k : Nat) (f : BandRun → BandRun) : (s.modBand k f).takeOut = s.takeOut := rfl
@[simp] theorem State.modBand_unrepairable (s : State) (k : Nat) (f : BandRun → BandRun) : (s.modBand k f).unrepairable = s.unrepairable := rfl
@[simp] theorem State.modBand_time (s : State) (k : Nat) (f : BandRun → BandRun) : (s.modBand k f).time = s.time := rfl
@[simp] theorem State.modBand_boot (s : State) (k : Nat) (f : BandRun → BandRun) : (s.modBand k f).boot = s.boot := rfl
@[simp] theorem State.modBand_power (s : State) (k : Nat) (f : BandRun → BandRun) : (s.modBand k f).power = s.power := rfl
@[simp] theorem State.modBand_faces (s : State) (k : Nat) (f : BandRun → BandRun) : (s.modBand k f).faces = s.faces := rfl
@[simp] theorem State.modBand_ctxs (s : State) (k : Nat) (f : BandRun → BandRun) : (s.modBand k f).ctxs = s.ctxs := rfl
@[simp] theorem State.modBand_runs (s : State) (k : Nat) (f : BandRun → BandRun) : (s.modBand k f).runs = s.runs := rfl
@[simp] theorem State.modBand_slotLast (s : State) (k : Nat) (f : BandRun → BandRun) : (s.modBand k f).slotLast = s.slotLast := rfl
@[simp] theorem State.modBand_parts (s : State) (k : Nat) (f : BandRun → BandRun) : (s.modBand k f).parts = s.parts := rfl
@[simp] theorem State.modBand_launches (s : State) (k : Nat) (f : BandRun → BandRun) : (s.modBand k f).launches = s.launches := rfl
@[simp] theorem State.modBand_windows (s : State) (k : Nat) (f : BandRun → BandRun) : (s.modBand k f).windows = s.windows := rfl
@[simp] theorem State.modBand_ctxCmd (s : State) (k : Nat) (f : BandRun → BandRun) : (s.modBand k f).ctxCmd = s.ctxCmd := rfl
@[simp] theorem State.modBand_batchReqs (s : State) (k : Nat) (f : BandRun → BandRun) : (s.modBand k f).batchReqs = s.batchReqs := rfl
@[simp] theorem State.modBand_members (s : State) (k : Nat) (f : BandRun → BandRun) : (s.modBand k f).members = s.members := rfl
@[simp] theorem State.modBand_hoists (s : State) (k : Nat) (f : BandRun → BandRun) : (s.modBand k f).hoists = s.hoists := rfl
@[simp] theorem State.modBand_groups (s : State) (k : Nat) (f : BandRun → BandRun) : (s.modBand k f).groups = s.groups := rfl
@[simp] theorem State.modBand_sched (s : State) (k : Nat) (f : BandRun → BandRun) : (s.modBand k f).sched = s.sched := rfl
@[simp] theorem State.modBand_slotLoading (s : State) (k : Nat) (f : BandRun → BandRun) : (s.modBand k f).slotLoading = s.slotLoading := rfl
@[simp] theorem State.modBand_fwdPoses (s : State) (k : Nat) (f : BandRun → BandRun) : (s.modBand k f).fwdPoses = s.fwdPoses := rfl
@[simp] theorem State.modBand_adapt (s : State) (k : Nat) (f : BandRun → BandRun) : (s.modBand k f).adapt = s.adapt := rfl
@[simp] theorem State.modBand_lateSeen (s : State) (k : Nat) (f : BandRun → BandRun) : (s.modBand k f).lateSeen = s.lateSeen := rfl
@[simp] theorem State.modBand_red (s : State) (k : Nat) (f : BandRun → BandRun) : (s.modBand k f).red = s.red := rfl
@[simp] theorem State.modBand_redWait (s : State) (k : Nat) (f : BandRun → BandRun) : (s.modBand k f).redWait = s.redWait := rfl
@[simp] theorem State.modBand_doneWatch (s : State) (k : Nat) (f : BandRun → BandRun) : (s.modBand k f).doneWatch = s.doneWatch := rfl
@[simp] theorem State.modBand_heads (s : State) (k : Nat) (f : BandRun → BandRun) : (s.modBand k f).heads = s.heads := rfl
@[simp] theorem State.modBand_frameSum (s : State) (k : Nat) (f : BandRun → BandRun) : (s.modBand k f).frameSum = s.frameSum := rfl
@[simp] theorem State.modBand_recGap (s : State) (k : Nat) (f : BandRun → BandRun) : (s.modBand k f).recGap = s.recGap := rfl
@[simp] theorem State.modBand_trecSeq (s : State) (k : Nat) (f : BandRun → BandRun) : (s.modBand k f).trecSeq = s.trecSeq := rfl
@[simp] theorem State.modBand_haloGot (s : State) (k : Nat) (f : BandRun → BandRun) : (s.modBand k f).haloGot = s.haloGot := rfl
@[simp] theorem State.modBand_slots (s : State) (k : Nat) (f : BandRun → BandRun) : (s.modBand k f).slots = s.slots := rfl
@[simp] theorem State.modBand_slotDesc (s : State) (k : Nat) (f : BandRun → BandRun) : (s.modBand k f).slotDesc = s.slotDesc := rfl
@[simp] theorem State.modBand_xc (s : State) (k : Nat) (f : BandRun → BandRun) : (s.modBand k f).xc = s.xc := rfl
@[simp] theorem State.modBand_bcastLast (s : State) (k : Nat) (f : BandRun → BandRun) : (s.modBand k f).bcastLast = s.bcastLast := rfl
@[simp] theorem State.modBand_peerFault (s : State) (k : Nat) (f : BandRun → BandRun) : (s.modBand k f).peerFault = s.peerFault := rfl
@[simp] theorem State.modBand_takePend (s : State) (k : Nat) (f : BandRun → BandRun) : (s.modBand k f).takePend = s.takePend := rfl
@[simp] theorem State.modBand_sess (s : State) (k : Nat) (f : BandRun → BandRun) : (s.modBand k f).sess = s.sess := rfl
@[simp] theorem State.modBand_adits (s : State) (k : Nat) (f : BandRun → BandRun) : (s.modBand k f).adits = s.adits := rfl
@[simp] theorem State.modBand_rxq (s : State) (k : Nat) (f : BandRun → BandRun) : (s.modBand k f).rxq = s.rxq := rfl
@[simp] theorem State.modBand_cb (s : State) (k : Nat) (f : BandRun → BandRun) : (s.modBand k f).cb = s.cb := rfl
@[simp] theorem State.modBand_jobSeq (s : State) (k : Nat) (f : BandRun → BandRun) : (s.modBand k f).jobSeq = s.jobSeq := rfl
@[simp] theorem State.modBand_tilers (s : State) (k : Nat) (f : BandRun → BandRun) : (s.modBand k f).tilers = s.tilers := rfl
@[simp] theorem State.modBand_sorters (s : State) (k : Nat) (f : BandRun → BandRun) : (s.modBand k f).sorters = s.sorters := rfl
@[simp] theorem State.modBand_assay (s : State) (k : Nat) (f : BandRun → BandRun) : (s.modBand k f).assay = s.assay := rfl
@[simp] theorem State.modBand_mf (s : State) (k : Nat) (f : BandRun → BandRun) : (s.modBand k f).mf = s.mf := rfl
@[simp] theorem State.modBand_cams (s : State) (k : Nat) (f : BandRun → BandRun) : (s.modBand k f).cams = s.cams := rfl
@[simp] theorem State.modBand_flows (s : State) (k : Nat) (f : BandRun → BandRun) : (s.modBand k f).flows = s.flows := rfl
@[simp] theorem State.modBand_spis (s : State) (k : Nat) (f : BandRun → BandRun) : (s.modBand k f).spis = s.spis := rfl
@[simp] theorem State.modBand_replayStop (s : State) (k : Nat) (f : BandRun → BandRun) : (s.modBand k f).replayStop = s.replayStop := rfl
@[simp] theorem State.modBand_out (s : State) (k : Nat) (f : BandRun → BandRun) : (s.modBand k f).out = s.out := rfl
@[simp] theorem State.modBand_free (s : State) (k : Nat) (f : BandRun → BandRun) : (s.modBand k f).free = s.free := rfl

/-! ### modGroup changes groups -/
@[simp] theorem State.modGroup_pending (s : State) (g : Nat) (f : GroupSt → GroupSt) : (s.modGroup g f).pending = s.pending := rfl
@[simp] theorem State.modGroup_regs (s : State) (g : Nat) (f : GroupSt → GroupSt) : (s.modGroup g f).regs = s.regs := rfl
@[simp] theorem State.modGroup_held (s : State) (g : Nat) (f : GroupSt → GroupSt) : (s.modGroup g f).held = s.held := rfl
@[simp] theorem State.modGroup_latch (s : State) (g : Nat) (f : GroupSt → GroupSt) : (s.modGroup g f).latch = s.latch := rfl
@[simp] theorem State.modGroup_bus (s : State) (g : Nat) (f : GroupSt → GroupSt) : (s.modGroup g f).bus = s.bus := rfl
@[simp] theorem State.modGroup_mem (s : State) (g : Nat) (f : GroupSt → GroupSt) : (s.modGroup g f).mem = s.mem := rfl
@[simp] theorem State.modGroup_eccBad (s : State) (g : Nat) (f : GroupSt → GroupSt) : (s.modGroup g f).eccBad = s.eccBad := rfl
@[simp] theorem State.modGroup_eccOne (s : State) (g : Nat) (f : GroupSt → GroupSt) : (s.modGroup g f).eccOne = s.eccOne := rfl
@[simp] theorem State.modGroup_gflags (s : State) (g : Nat) (f : GroupSt → GroupSt) : (s.modGroup g f).gflags = s.gflags := rfl
@[simp] theorem State.modGroup_sflags (s : State) (g : Nat) (f : GroupSt → GroupSt) : (s.modGroup g f).sflags = s.sflags := rfl
@[simp] theorem State.modGroup_sump (s : State) (g : Nat) (f : GroupSt → GroupSt) : (s.modGroup g f).sump = s.sump := rfl
@[simp] theorem State.modGroup_faultOut (s : State) (g : Nat) (f : GroupSt → GroupSt) : (s.modGroup g f).faultOut = s.faultOut := rfl
@[simp] theorem State.modGroup_takeOut (s : State) (g : Nat) (f : GroupSt → GroupSt) : (s.modGroup g f).takeOut = s.takeOut := rfl
@[simp] theorem State.modGroup_unrepairable (s : State) (g : Nat) (f : GroupSt → GroupSt) : (s.modGroup g f).unrepairable = s.unrepairable := rfl
@[simp] theorem State.modGroup_time (s : State) (g : Nat) (f : GroupSt → GroupSt) : (s.modGroup g f).time = s.time := rfl
@[simp] theorem State.modGroup_boot (s : State) (g : Nat) (f : GroupSt → GroupSt) : (s.modGroup g f).boot = s.boot := rfl
@[simp] theorem State.modGroup_power (s : State) (g : Nat) (f : GroupSt → GroupSt) : (s.modGroup g f).power = s.power := rfl
@[simp] theorem State.modGroup_faces (s : State) (g : Nat) (f : GroupSt → GroupSt) : (s.modGroup g f).faces = s.faces := rfl
@[simp] theorem State.modGroup_ctxs (s : State) (g : Nat) (f : GroupSt → GroupSt) : (s.modGroup g f).ctxs = s.ctxs := rfl
@[simp] theorem State.modGroup_runs (s : State) (g : Nat) (f : GroupSt → GroupSt) : (s.modGroup g f).runs = s.runs := rfl
@[simp] theorem State.modGroup_slotLast (s : State) (g : Nat) (f : GroupSt → GroupSt) : (s.modGroup g f).slotLast = s.slotLast := rfl
@[simp] theorem State.modGroup_parts (s : State) (g : Nat) (f : GroupSt → GroupSt) : (s.modGroup g f).parts = s.parts := rfl
@[simp] theorem State.modGroup_launches (s : State) (g : Nat) (f : GroupSt → GroupSt) : (s.modGroup g f).launches = s.launches := rfl
@[simp] theorem State.modGroup_windows (s : State) (g : Nat) (f : GroupSt → GroupSt) : (s.modGroup g f).windows = s.windows := rfl
@[simp] theorem State.modGroup_ctxCmd (s : State) (g : Nat) (f : GroupSt → GroupSt) : (s.modGroup g f).ctxCmd = s.ctxCmd := rfl
@[simp] theorem State.modGroup_batchReqs (s : State) (g : Nat) (f : GroupSt → GroupSt) : (s.modGroup g f).batchReqs = s.batchReqs := rfl
@[simp] theorem State.modGroup_members (s : State) (g : Nat) (f : GroupSt → GroupSt) : (s.modGroup g f).members = s.members := rfl
@[simp] theorem State.modGroup_hoists (s : State) (g : Nat) (f : GroupSt → GroupSt) : (s.modGroup g f).hoists = s.hoists := rfl
@[simp] theorem State.modGroup_bands (s : State) (g : Nat) (f : GroupSt → GroupSt) : (s.modGroup g f).bands = s.bands := rfl
@[simp] theorem State.modGroup_sched (s : State) (g : Nat) (f : GroupSt → GroupSt) : (s.modGroup g f).sched = s.sched := rfl
@[simp] theorem State.modGroup_slotLoading (s : State) (g : Nat) (f : GroupSt → GroupSt) : (s.modGroup g f).slotLoading = s.slotLoading := rfl
@[simp] theorem State.modGroup_fwdPoses (s : State) (g : Nat) (f : GroupSt → GroupSt) : (s.modGroup g f).fwdPoses = s.fwdPoses := rfl
@[simp] theorem State.modGroup_adapt (s : State) (g : Nat) (f : GroupSt → GroupSt) : (s.modGroup g f).adapt = s.adapt := rfl
@[simp] theorem State.modGroup_lateSeen (s : State) (g : Nat) (f : GroupSt → GroupSt) : (s.modGroup g f).lateSeen = s.lateSeen := rfl
@[simp] theorem State.modGroup_red (s : State) (g : Nat) (f : GroupSt → GroupSt) : (s.modGroup g f).red = s.red := rfl
@[simp] theorem State.modGroup_redWait (s : State) (g : Nat) (f : GroupSt → GroupSt) : (s.modGroup g f).redWait = s.redWait := rfl
@[simp] theorem State.modGroup_doneWatch (s : State) (g : Nat) (f : GroupSt → GroupSt) : (s.modGroup g f).doneWatch = s.doneWatch := rfl
@[simp] theorem State.modGroup_heads (s : State) (g : Nat) (f : GroupSt → GroupSt) : (s.modGroup g f).heads = s.heads := rfl
@[simp] theorem State.modGroup_frameSum (s : State) (g : Nat) (f : GroupSt → GroupSt) : (s.modGroup g f).frameSum = s.frameSum := rfl
@[simp] theorem State.modGroup_recGap (s : State) (g : Nat) (f : GroupSt → GroupSt) : (s.modGroup g f).recGap = s.recGap := rfl
@[simp] theorem State.modGroup_trecSeq (s : State) (g : Nat) (f : GroupSt → GroupSt) : (s.modGroup g f).trecSeq = s.trecSeq := rfl
@[simp] theorem State.modGroup_haloGot (s : State) (g : Nat) (f : GroupSt → GroupSt) : (s.modGroup g f).haloGot = s.haloGot := rfl
@[simp] theorem State.modGroup_slots (s : State) (g : Nat) (f : GroupSt → GroupSt) : (s.modGroup g f).slots = s.slots := rfl
@[simp] theorem State.modGroup_slotDesc (s : State) (g : Nat) (f : GroupSt → GroupSt) : (s.modGroup g f).slotDesc = s.slotDesc := rfl
@[simp] theorem State.modGroup_xc (s : State) (g : Nat) (f : GroupSt → GroupSt) : (s.modGroup g f).xc = s.xc := rfl
@[simp] theorem State.modGroup_bcastLast (s : State) (g : Nat) (f : GroupSt → GroupSt) : (s.modGroup g f).bcastLast = s.bcastLast := rfl
@[simp] theorem State.modGroup_peerFault (s : State) (g : Nat) (f : GroupSt → GroupSt) : (s.modGroup g f).peerFault = s.peerFault := rfl
@[simp] theorem State.modGroup_takePend (s : State) (g : Nat) (f : GroupSt → GroupSt) : (s.modGroup g f).takePend = s.takePend := rfl
@[simp] theorem State.modGroup_sess (s : State) (g : Nat) (f : GroupSt → GroupSt) : (s.modGroup g f).sess = s.sess := rfl
@[simp] theorem State.modGroup_adits (s : State) (g : Nat) (f : GroupSt → GroupSt) : (s.modGroup g f).adits = s.adits := rfl
@[simp] theorem State.modGroup_rxq (s : State) (g : Nat) (f : GroupSt → GroupSt) : (s.modGroup g f).rxq = s.rxq := rfl
@[simp] theorem State.modGroup_cb (s : State) (g : Nat) (f : GroupSt → GroupSt) : (s.modGroup g f).cb = s.cb := rfl
@[simp] theorem State.modGroup_jobSeq (s : State) (g : Nat) (f : GroupSt → GroupSt) : (s.modGroup g f).jobSeq = s.jobSeq := rfl
@[simp] theorem State.modGroup_tilers (s : State) (g : Nat) (f : GroupSt → GroupSt) : (s.modGroup g f).tilers = s.tilers := rfl
@[simp] theorem State.modGroup_sorters (s : State) (g : Nat) (f : GroupSt → GroupSt) : (s.modGroup g f).sorters = s.sorters := rfl
@[simp] theorem State.modGroup_assay (s : State) (g : Nat) (f : GroupSt → GroupSt) : (s.modGroup g f).assay = s.assay := rfl
@[simp] theorem State.modGroup_mf (s : State) (g : Nat) (f : GroupSt → GroupSt) : (s.modGroup g f).mf = s.mf := rfl
@[simp] theorem State.modGroup_cams (s : State) (g : Nat) (f : GroupSt → GroupSt) : (s.modGroup g f).cams = s.cams := rfl
@[simp] theorem State.modGroup_flows (s : State) (g : Nat) (f : GroupSt → GroupSt) : (s.modGroup g f).flows = s.flows := rfl
@[simp] theorem State.modGroup_spis (s : State) (g : Nat) (f : GroupSt → GroupSt) : (s.modGroup g f).spis = s.spis := rfl
@[simp] theorem State.modGroup_replayStop (s : State) (g : Nat) (f : GroupSt → GroupSt) : (s.modGroup g f).replayStop = s.replayStop := rfl
@[simp] theorem State.modGroup_out (s : State) (g : Nat) (f : GroupSt → GroupSt) : (s.modGroup g f).out = s.out := rfl
@[simp] theorem State.modGroup_free (s : State) (g : Nat) (f : GroupSt → GroupSt) : (s.modGroup g f).free = s.free := rfl

/-! ### modAd changes adapt -/
@[simp] theorem State.modAd_pending (s : State) (g : Nat) (f : AdaptSt → AdaptSt) : (s.modAd g f).pending = s.pending := rfl
@[simp] theorem State.modAd_regs (s : State) (g : Nat) (f : AdaptSt → AdaptSt) : (s.modAd g f).regs = s.regs := rfl
@[simp] theorem State.modAd_held (s : State) (g : Nat) (f : AdaptSt → AdaptSt) : (s.modAd g f).held = s.held := rfl
@[simp] theorem State.modAd_latch (s : State) (g : Nat) (f : AdaptSt → AdaptSt) : (s.modAd g f).latch = s.latch := rfl
@[simp] theorem State.modAd_bus (s : State) (g : Nat) (f : AdaptSt → AdaptSt) : (s.modAd g f).bus = s.bus := rfl
@[simp] theorem State.modAd_mem (s : State) (g : Nat) (f : AdaptSt → AdaptSt) : (s.modAd g f).mem = s.mem := rfl
@[simp] theorem State.modAd_eccBad (s : State) (g : Nat) (f : AdaptSt → AdaptSt) : (s.modAd g f).eccBad = s.eccBad := rfl
@[simp] theorem State.modAd_eccOne (s : State) (g : Nat) (f : AdaptSt → AdaptSt) : (s.modAd g f).eccOne = s.eccOne := rfl
@[simp] theorem State.modAd_gflags (s : State) (g : Nat) (f : AdaptSt → AdaptSt) : (s.modAd g f).gflags = s.gflags := rfl
@[simp] theorem State.modAd_sflags (s : State) (g : Nat) (f : AdaptSt → AdaptSt) : (s.modAd g f).sflags = s.sflags := rfl
@[simp] theorem State.modAd_sump (s : State) (g : Nat) (f : AdaptSt → AdaptSt) : (s.modAd g f).sump = s.sump := rfl
@[simp] theorem State.modAd_faultOut (s : State) (g : Nat) (f : AdaptSt → AdaptSt) : (s.modAd g f).faultOut = s.faultOut := rfl
@[simp] theorem State.modAd_takeOut (s : State) (g : Nat) (f : AdaptSt → AdaptSt) : (s.modAd g f).takeOut = s.takeOut := rfl
@[simp] theorem State.modAd_unrepairable (s : State) (g : Nat) (f : AdaptSt → AdaptSt) : (s.modAd g f).unrepairable = s.unrepairable := rfl
@[simp] theorem State.modAd_time (s : State) (g : Nat) (f : AdaptSt → AdaptSt) : (s.modAd g f).time = s.time := rfl
@[simp] theorem State.modAd_boot (s : State) (g : Nat) (f : AdaptSt → AdaptSt) : (s.modAd g f).boot = s.boot := rfl
@[simp] theorem State.modAd_power (s : State) (g : Nat) (f : AdaptSt → AdaptSt) : (s.modAd g f).power = s.power := rfl
@[simp] theorem State.modAd_faces (s : State) (g : Nat) (f : AdaptSt → AdaptSt) : (s.modAd g f).faces = s.faces := rfl
@[simp] theorem State.modAd_ctxs (s : State) (g : Nat) (f : AdaptSt → AdaptSt) : (s.modAd g f).ctxs = s.ctxs := rfl
@[simp] theorem State.modAd_runs (s : State) (g : Nat) (f : AdaptSt → AdaptSt) : (s.modAd g f).runs = s.runs := rfl
@[simp] theorem State.modAd_slotLast (s : State) (g : Nat) (f : AdaptSt → AdaptSt) : (s.modAd g f).slotLast = s.slotLast := rfl
@[simp] theorem State.modAd_parts (s : State) (g : Nat) (f : AdaptSt → AdaptSt) : (s.modAd g f).parts = s.parts := rfl
@[simp] theorem State.modAd_launches (s : State) (g : Nat) (f : AdaptSt → AdaptSt) : (s.modAd g f).launches = s.launches := rfl
@[simp] theorem State.modAd_windows (s : State) (g : Nat) (f : AdaptSt → AdaptSt) : (s.modAd g f).windows = s.windows := rfl
@[simp] theorem State.modAd_ctxCmd (s : State) (g : Nat) (f : AdaptSt → AdaptSt) : (s.modAd g f).ctxCmd = s.ctxCmd := rfl
@[simp] theorem State.modAd_batchReqs (s : State) (g : Nat) (f : AdaptSt → AdaptSt) : (s.modAd g f).batchReqs = s.batchReqs := rfl
@[simp] theorem State.modAd_members (s : State) (g : Nat) (f : AdaptSt → AdaptSt) : (s.modAd g f).members = s.members := rfl
@[simp] theorem State.modAd_hoists (s : State) (g : Nat) (f : AdaptSt → AdaptSt) : (s.modAd g f).hoists = s.hoists := rfl
@[simp] theorem State.modAd_bands (s : State) (g : Nat) (f : AdaptSt → AdaptSt) : (s.modAd g f).bands = s.bands := rfl
@[simp] theorem State.modAd_groups (s : State) (g : Nat) (f : AdaptSt → AdaptSt) : (s.modAd g f).groups = s.groups := rfl
@[simp] theorem State.modAd_sched (s : State) (g : Nat) (f : AdaptSt → AdaptSt) : (s.modAd g f).sched = s.sched := rfl
@[simp] theorem State.modAd_slotLoading (s : State) (g : Nat) (f : AdaptSt → AdaptSt) : (s.modAd g f).slotLoading = s.slotLoading := rfl
@[simp] theorem State.modAd_fwdPoses (s : State) (g : Nat) (f : AdaptSt → AdaptSt) : (s.modAd g f).fwdPoses = s.fwdPoses := rfl
@[simp] theorem State.modAd_lateSeen (s : State) (g : Nat) (f : AdaptSt → AdaptSt) : (s.modAd g f).lateSeen = s.lateSeen := rfl
@[simp] theorem State.modAd_red (s : State) (g : Nat) (f : AdaptSt → AdaptSt) : (s.modAd g f).red = s.red := rfl
@[simp] theorem State.modAd_redWait (s : State) (g : Nat) (f : AdaptSt → AdaptSt) : (s.modAd g f).redWait = s.redWait := rfl
@[simp] theorem State.modAd_doneWatch (s : State) (g : Nat) (f : AdaptSt → AdaptSt) : (s.modAd g f).doneWatch = s.doneWatch := rfl
@[simp] theorem State.modAd_heads (s : State) (g : Nat) (f : AdaptSt → AdaptSt) : (s.modAd g f).heads = s.heads := rfl
@[simp] theorem State.modAd_frameSum (s : State) (g : Nat) (f : AdaptSt → AdaptSt) : (s.modAd g f).frameSum = s.frameSum := rfl
@[simp] theorem State.modAd_recGap (s : State) (g : Nat) (f : AdaptSt → AdaptSt) : (s.modAd g f).recGap = s.recGap := rfl
@[simp] theorem State.modAd_trecSeq (s : State) (g : Nat) (f : AdaptSt → AdaptSt) : (s.modAd g f).trecSeq = s.trecSeq := rfl
@[simp] theorem State.modAd_haloGot (s : State) (g : Nat) (f : AdaptSt → AdaptSt) : (s.modAd g f).haloGot = s.haloGot := rfl
@[simp] theorem State.modAd_slots (s : State) (g : Nat) (f : AdaptSt → AdaptSt) : (s.modAd g f).slots = s.slots := rfl
@[simp] theorem State.modAd_slotDesc (s : State) (g : Nat) (f : AdaptSt → AdaptSt) : (s.modAd g f).slotDesc = s.slotDesc := rfl
@[simp] theorem State.modAd_xc (s : State) (g : Nat) (f : AdaptSt → AdaptSt) : (s.modAd g f).xc = s.xc := rfl
@[simp] theorem State.modAd_bcastLast (s : State) (g : Nat) (f : AdaptSt → AdaptSt) : (s.modAd g f).bcastLast = s.bcastLast := rfl
@[simp] theorem State.modAd_peerFault (s : State) (g : Nat) (f : AdaptSt → AdaptSt) : (s.modAd g f).peerFault = s.peerFault := rfl
@[simp] theorem State.modAd_takePend (s : State) (g : Nat) (f : AdaptSt → AdaptSt) : (s.modAd g f).takePend = s.takePend := rfl
@[simp] theorem State.modAd_sess (s : State) (g : Nat) (f : AdaptSt → AdaptSt) : (s.modAd g f).sess = s.sess := rfl
@[simp] theorem State.modAd_adits (s : State) (g : Nat) (f : AdaptSt → AdaptSt) : (s.modAd g f).adits = s.adits := rfl
@[simp] theorem State.modAd_rxq (s : State) (g : Nat) (f : AdaptSt → AdaptSt) : (s.modAd g f).rxq = s.rxq := rfl
@[simp] theorem State.modAd_cb (s : State) (g : Nat) (f : AdaptSt → AdaptSt) : (s.modAd g f).cb = s.cb := rfl
@[simp] theorem State.modAd_jobSeq (s : State) (g : Nat) (f : AdaptSt → AdaptSt) : (s.modAd g f).jobSeq = s.jobSeq := rfl
@[simp] theorem State.modAd_tilers (s : State) (g : Nat) (f : AdaptSt → AdaptSt) : (s.modAd g f).tilers = s.tilers := rfl
@[simp] theorem State.modAd_sorters (s : State) (g : Nat) (f : AdaptSt → AdaptSt) : (s.modAd g f).sorters = s.sorters := rfl
@[simp] theorem State.modAd_assay (s : State) (g : Nat) (f : AdaptSt → AdaptSt) : (s.modAd g f).assay = s.assay := rfl
@[simp] theorem State.modAd_mf (s : State) (g : Nat) (f : AdaptSt → AdaptSt) : (s.modAd g f).mf = s.mf := rfl
@[simp] theorem State.modAd_cams (s : State) (g : Nat) (f : AdaptSt → AdaptSt) : (s.modAd g f).cams = s.cams := rfl
@[simp] theorem State.modAd_flows (s : State) (g : Nat) (f : AdaptSt → AdaptSt) : (s.modAd g f).flows = s.flows := rfl
@[simp] theorem State.modAd_spis (s : State) (g : Nat) (f : AdaptSt → AdaptSt) : (s.modAd g f).spis = s.spis := rfl
@[simp] theorem State.modAd_replayStop (s : State) (g : Nat) (f : AdaptSt → AdaptSt) : (s.modAd g f).replayStop = s.replayStop := rfl
@[simp] theorem State.modAd_out (s : State) (g : Nat) (f : AdaptSt → AdaptSt) : (s.modAd g f).out = s.out := rfl
@[simp] theorem State.modAd_free (s : State) (g : Nat) (f : AdaptSt → AdaptSt) : (s.modAd g f).free = s.free := rfl

/-! ### modHead changes heads -/
@[simp] theorem State.modHead_pending (s : State) (h : Nat) (f : HeadSt → HeadSt) : (s.modHead h f).pending = s.pending := rfl
@[simp] theorem State.modHead_regs (s : State) (h : Nat) (f : HeadSt → HeadSt) : (s.modHead h f).regs = s.regs := rfl
@[simp] theorem State.modHead_held (s : State) (h : Nat) (f : HeadSt → HeadSt) : (s.modHead h f).held = s.held := rfl
@[simp] theorem State.modHead_latch (s : State) (h : Nat) (f : HeadSt → HeadSt) : (s.modHead h f).latch = s.latch := rfl
@[simp] theorem State.modHead_bus (s : State) (h : Nat) (f : HeadSt → HeadSt) : (s.modHead h f).bus = s.bus := rfl
@[simp] theorem State.modHead_mem (s : State) (h : Nat) (f : HeadSt → HeadSt) : (s.modHead h f).mem = s.mem := rfl
@[simp] theorem State.modHead_eccBad (s : State) (h : Nat) (f : HeadSt → HeadSt) : (s.modHead h f).eccBad = s.eccBad := rfl
@[simp] theorem State.modHead_eccOne (s : State) (h : Nat) (f : HeadSt → HeadSt) : (s.modHead h f).eccOne = s.eccOne := rfl
@[simp] theorem State.modHead_gflags (s : State) (h : Nat) (f : HeadSt → HeadSt) : (s.modHead h f).gflags = s.gflags := rfl
@[simp] theorem State.modHead_sflags (s : State) (h : Nat) (f : HeadSt → HeadSt) : (s.modHead h f).sflags = s.sflags := rfl
@[simp] theorem State.modHead_sump (s : State) (h : Nat) (f : HeadSt → HeadSt) : (s.modHead h f).sump = s.sump := rfl
@[simp] theorem State.modHead_faultOut (s : State) (h : Nat) (f : HeadSt → HeadSt) : (s.modHead h f).faultOut = s.faultOut := rfl
@[simp] theorem State.modHead_takeOut (s : State) (h : Nat) (f : HeadSt → HeadSt) : (s.modHead h f).takeOut = s.takeOut := rfl
@[simp] theorem State.modHead_unrepairable (s : State) (h : Nat) (f : HeadSt → HeadSt) : (s.modHead h f).unrepairable = s.unrepairable := rfl
@[simp] theorem State.modHead_time (s : State) (h : Nat) (f : HeadSt → HeadSt) : (s.modHead h f).time = s.time := rfl
@[simp] theorem State.modHead_boot (s : State) (h : Nat) (f : HeadSt → HeadSt) : (s.modHead h f).boot = s.boot := rfl
@[simp] theorem State.modHead_power (s : State) (h : Nat) (f : HeadSt → HeadSt) : (s.modHead h f).power = s.power := rfl
@[simp] theorem State.modHead_faces (s : State) (h : Nat) (f : HeadSt → HeadSt) : (s.modHead h f).faces = s.faces := rfl
@[simp] theorem State.modHead_ctxs (s : State) (h : Nat) (f : HeadSt → HeadSt) : (s.modHead h f).ctxs = s.ctxs := rfl
@[simp] theorem State.modHead_runs (s : State) (h : Nat) (f : HeadSt → HeadSt) : (s.modHead h f).runs = s.runs := rfl
@[simp] theorem State.modHead_slotLast (s : State) (h : Nat) (f : HeadSt → HeadSt) : (s.modHead h f).slotLast = s.slotLast := rfl
@[simp] theorem State.modHead_parts (s : State) (h : Nat) (f : HeadSt → HeadSt) : (s.modHead h f).parts = s.parts := rfl
@[simp] theorem State.modHead_launches (s : State) (h : Nat) (f : HeadSt → HeadSt) : (s.modHead h f).launches = s.launches := rfl
@[simp] theorem State.modHead_windows (s : State) (h : Nat) (f : HeadSt → HeadSt) : (s.modHead h f).windows = s.windows := rfl
@[simp] theorem State.modHead_ctxCmd (s : State) (h : Nat) (f : HeadSt → HeadSt) : (s.modHead h f).ctxCmd = s.ctxCmd := rfl
@[simp] theorem State.modHead_batchReqs (s : State) (h : Nat) (f : HeadSt → HeadSt) : (s.modHead h f).batchReqs = s.batchReqs := rfl
@[simp] theorem State.modHead_members (s : State) (h : Nat) (f : HeadSt → HeadSt) : (s.modHead h f).members = s.members := rfl
@[simp] theorem State.modHead_hoists (s : State) (h : Nat) (f : HeadSt → HeadSt) : (s.modHead h f).hoists = s.hoists := rfl
@[simp] theorem State.modHead_bands (s : State) (h : Nat) (f : HeadSt → HeadSt) : (s.modHead h f).bands = s.bands := rfl
@[simp] theorem State.modHead_groups (s : State) (h : Nat) (f : HeadSt → HeadSt) : (s.modHead h f).groups = s.groups := rfl
@[simp] theorem State.modHead_sched (s : State) (h : Nat) (f : HeadSt → HeadSt) : (s.modHead h f).sched = s.sched := rfl
@[simp] theorem State.modHead_slotLoading (s : State) (h : Nat) (f : HeadSt → HeadSt) : (s.modHead h f).slotLoading = s.slotLoading := rfl
@[simp] theorem State.modHead_fwdPoses (s : State) (h : Nat) (f : HeadSt → HeadSt) : (s.modHead h f).fwdPoses = s.fwdPoses := rfl
@[simp] theorem State.modHead_adapt (s : State) (h : Nat) (f : HeadSt → HeadSt) : (s.modHead h f).adapt = s.adapt := rfl
@[simp] theorem State.modHead_lateSeen (s : State) (h : Nat) (f : HeadSt → HeadSt) : (s.modHead h f).lateSeen = s.lateSeen := rfl
@[simp] theorem State.modHead_red (s : State) (h : Nat) (f : HeadSt → HeadSt) : (s.modHead h f).red = s.red := rfl
@[simp] theorem State.modHead_redWait (s : State) (h : Nat) (f : HeadSt → HeadSt) : (s.modHead h f).redWait = s.redWait := rfl
@[simp] theorem State.modHead_doneWatch (s : State) (h : Nat) (f : HeadSt → HeadSt) : (s.modHead h f).doneWatch = s.doneWatch := rfl
@[simp] theorem State.modHead_frameSum (s : State) (h : Nat) (f : HeadSt → HeadSt) : (s.modHead h f).frameSum = s.frameSum := rfl
@[simp] theorem State.modHead_recGap (s : State) (h : Nat) (f : HeadSt → HeadSt) : (s.modHead h f).recGap = s.recGap := rfl
@[simp] theorem State.modHead_trecSeq (s : State) (h : Nat) (f : HeadSt → HeadSt) : (s.modHead h f).trecSeq = s.trecSeq := rfl
@[simp] theorem State.modHead_haloGot (s : State) (h : Nat) (f : HeadSt → HeadSt) : (s.modHead h f).haloGot = s.haloGot := rfl
@[simp] theorem State.modHead_slots (s : State) (h : Nat) (f : HeadSt → HeadSt) : (s.modHead h f).slots = s.slots := rfl
@[simp] theorem State.modHead_slotDesc (s : State) (h : Nat) (f : HeadSt → HeadSt) : (s.modHead h f).slotDesc = s.slotDesc := rfl
@[simp] theorem State.modHead_xc (s : State) (h : Nat) (f : HeadSt → HeadSt) : (s.modHead h f).xc = s.xc := rfl
@[simp] theorem State.modHead_bcastLast (s : State) (h : Nat) (f : HeadSt → HeadSt) : (s.modHead h f).bcastLast = s.bcastLast := rfl
@[simp] theorem State.modHead_peerFault (s : State) (h : Nat) (f : HeadSt → HeadSt) : (s.modHead h f).peerFault = s.peerFault := rfl
@[simp] theorem State.modHead_takePend (s : State) (h : Nat) (f : HeadSt → HeadSt) : (s.modHead h f).takePend = s.takePend := rfl
@[simp] theorem State.modHead_sess (s : State) (h : Nat) (f : HeadSt → HeadSt) : (s.modHead h f).sess = s.sess := rfl
@[simp] theorem State.modHead_adits (s : State) (h : Nat) (f : HeadSt → HeadSt) : (s.modHead h f).adits = s.adits := rfl
@[simp] theorem State.modHead_rxq (s : State) (h : Nat) (f : HeadSt → HeadSt) : (s.modHead h f).rxq = s.rxq := rfl
@[simp] theorem State.modHead_cb (s : State) (h : Nat) (f : HeadSt → HeadSt) : (s.modHead h f).cb = s.cb := rfl
@[simp] theorem State.modHead_jobSeq (s : State) (h : Nat) (f : HeadSt → HeadSt) : (s.modHead h f).jobSeq = s.jobSeq := rfl
@[simp] theorem State.modHead_tilers (s : State) (h : Nat) (f : HeadSt → HeadSt) : (s.modHead h f).tilers = s.tilers := rfl
@[simp] theorem State.modHead_sorters (s : State) (h : Nat) (f : HeadSt → HeadSt) : (s.modHead h f).sorters = s.sorters := rfl
@[simp] theorem State.modHead_assay (s : State) (h : Nat) (f : HeadSt → HeadSt) : (s.modHead h f).assay = s.assay := rfl
@[simp] theorem State.modHead_mf (s : State) (h : Nat) (f : HeadSt → HeadSt) : (s.modHead h f).mf = s.mf := rfl
@[simp] theorem State.modHead_cams (s : State) (h : Nat) (f : HeadSt → HeadSt) : (s.modHead h f).cams = s.cams := rfl
@[simp] theorem State.modHead_flows (s : State) (h : Nat) (f : HeadSt → HeadSt) : (s.modHead h f).flows = s.flows := rfl
@[simp] theorem State.modHead_spis (s : State) (h : Nat) (f : HeadSt → HeadSt) : (s.modHead h f).spis = s.spis := rfl
@[simp] theorem State.modHead_replayStop (s : State) (h : Nat) (f : HeadSt → HeadSt) : (s.modHead h f).replayStop = s.replayStop := rfl
@[simp] theorem State.modHead_out (s : State) (h : Nat) (f : HeadSt → HeadSt) : (s.modHead h f).out = s.out := rfl
@[simp] theorem State.modHead_free (s : State) (h : Nat) (f : HeadSt → HeadSt) : (s.modHead h f).free = s.free := rfl

/-! ### modSlot changes slots -/
@[simp] theorem State.modSlot_pending (s : State) (k : Nat) (f : SlotSt → SlotSt) : (s.modSlot k f).pending = s.pending := rfl
@[simp] theorem State.modSlot_regs (s : State) (k : Nat) (f : SlotSt → SlotSt) : (s.modSlot k f).regs = s.regs := rfl
@[simp] theorem State.modSlot_held (s : State) (k : Nat) (f : SlotSt → SlotSt) : (s.modSlot k f).held = s.held := rfl
@[simp] theorem State.modSlot_latch (s : State) (k : Nat) (f : SlotSt → SlotSt) : (s.modSlot k f).latch = s.latch := rfl
@[simp] theorem State.modSlot_bus (s : State) (k : Nat) (f : SlotSt → SlotSt) : (s.modSlot k f).bus = s.bus := rfl
@[simp] theorem State.modSlot_mem (s : State) (k : Nat) (f : SlotSt → SlotSt) : (s.modSlot k f).mem = s.mem := rfl
@[simp] theorem State.modSlot_eccBad (s : State) (k : Nat) (f : SlotSt → SlotSt) : (s.modSlot k f).eccBad = s.eccBad := rfl
@[simp] theorem State.modSlot_eccOne (s : State) (k : Nat) (f : SlotSt → SlotSt) : (s.modSlot k f).eccOne = s.eccOne := rfl
@[simp] theorem State.modSlot_gflags (s : State) (k : Nat) (f : SlotSt → SlotSt) : (s.modSlot k f).gflags = s.gflags := rfl
@[simp] theorem State.modSlot_sflags (s : State) (k : Nat) (f : SlotSt → SlotSt) : (s.modSlot k f).sflags = s.sflags := rfl
@[simp] theorem State.modSlot_sump (s : State) (k : Nat) (f : SlotSt → SlotSt) : (s.modSlot k f).sump = s.sump := rfl
@[simp] theorem State.modSlot_faultOut (s : State) (k : Nat) (f : SlotSt → SlotSt) : (s.modSlot k f).faultOut = s.faultOut := rfl
@[simp] theorem State.modSlot_takeOut (s : State) (k : Nat) (f : SlotSt → SlotSt) : (s.modSlot k f).takeOut = s.takeOut := rfl
@[simp] theorem State.modSlot_unrepairable (s : State) (k : Nat) (f : SlotSt → SlotSt) : (s.modSlot k f).unrepairable = s.unrepairable := rfl
@[simp] theorem State.modSlot_time (s : State) (k : Nat) (f : SlotSt → SlotSt) : (s.modSlot k f).time = s.time := rfl
@[simp] theorem State.modSlot_boot (s : State) (k : Nat) (f : SlotSt → SlotSt) : (s.modSlot k f).boot = s.boot := rfl
@[simp] theorem State.modSlot_power (s : State) (k : Nat) (f : SlotSt → SlotSt) : (s.modSlot k f).power = s.power := rfl
@[simp] theorem State.modSlot_faces (s : State) (k : Nat) (f : SlotSt → SlotSt) : (s.modSlot k f).faces = s.faces := rfl
@[simp] theorem State.modSlot_ctxs (s : State) (k : Nat) (f : SlotSt → SlotSt) : (s.modSlot k f).ctxs = s.ctxs := rfl
@[simp] theorem State.modSlot_runs (s : State) (k : Nat) (f : SlotSt → SlotSt) : (s.modSlot k f).runs = s.runs := rfl
@[simp] theorem State.modSlot_slotLast (s : State) (k : Nat) (f : SlotSt → SlotSt) : (s.modSlot k f).slotLast = s.slotLast := rfl
@[simp] theorem State.modSlot_parts (s : State) (k : Nat) (f : SlotSt → SlotSt) : (s.modSlot k f).parts = s.parts := rfl
@[simp] theorem State.modSlot_launches (s : State) (k : Nat) (f : SlotSt → SlotSt) : (s.modSlot k f).launches = s.launches := rfl
@[simp] theorem State.modSlot_windows (s : State) (k : Nat) (f : SlotSt → SlotSt) : (s.modSlot k f).windows = s.windows := rfl
@[simp] theorem State.modSlot_ctxCmd (s : State) (k : Nat) (f : SlotSt → SlotSt) : (s.modSlot k f).ctxCmd = s.ctxCmd := rfl
@[simp] theorem State.modSlot_batchReqs (s : State) (k : Nat) (f : SlotSt → SlotSt) : (s.modSlot k f).batchReqs = s.batchReqs := rfl
@[simp] theorem State.modSlot_members (s : State) (k : Nat) (f : SlotSt → SlotSt) : (s.modSlot k f).members = s.members := rfl
@[simp] theorem State.modSlot_hoists (s : State) (k : Nat) (f : SlotSt → SlotSt) : (s.modSlot k f).hoists = s.hoists := rfl
@[simp] theorem State.modSlot_bands (s : State) (k : Nat) (f : SlotSt → SlotSt) : (s.modSlot k f).bands = s.bands := rfl
@[simp] theorem State.modSlot_groups (s : State) (k : Nat) (f : SlotSt → SlotSt) : (s.modSlot k f).groups = s.groups := rfl
@[simp] theorem State.modSlot_sched (s : State) (k : Nat) (f : SlotSt → SlotSt) : (s.modSlot k f).sched = s.sched := rfl
@[simp] theorem State.modSlot_slotLoading (s : State) (k : Nat) (f : SlotSt → SlotSt) : (s.modSlot k f).slotLoading = s.slotLoading := rfl
@[simp] theorem State.modSlot_fwdPoses (s : State) (k : Nat) (f : SlotSt → SlotSt) : (s.modSlot k f).fwdPoses = s.fwdPoses := rfl
@[simp] theorem State.modSlot_adapt (s : State) (k : Nat) (f : SlotSt → SlotSt) : (s.modSlot k f).adapt = s.adapt := rfl
@[simp] theorem State.modSlot_lateSeen (s : State) (k : Nat) (f : SlotSt → SlotSt) : (s.modSlot k f).lateSeen = s.lateSeen := rfl
@[simp] theorem State.modSlot_red (s : State) (k : Nat) (f : SlotSt → SlotSt) : (s.modSlot k f).red = s.red := rfl
@[simp] theorem State.modSlot_redWait (s : State) (k : Nat) (f : SlotSt → SlotSt) : (s.modSlot k f).redWait = s.redWait := rfl
@[simp] theorem State.modSlot_doneWatch (s : State) (k : Nat) (f : SlotSt → SlotSt) : (s.modSlot k f).doneWatch = s.doneWatch := rfl
@[simp] theorem State.modSlot_heads (s : State) (k : Nat) (f : SlotSt → SlotSt) : (s.modSlot k f).heads = s.heads := rfl
@[simp] theorem State.modSlot_frameSum (s : State) (k : Nat) (f : SlotSt → SlotSt) : (s.modSlot k f).frameSum = s.frameSum := rfl
@[simp] theorem State.modSlot_recGap (s : State) (k : Nat) (f : SlotSt → SlotSt) : (s.modSlot k f).recGap = s.recGap := rfl
@[simp] theorem State.modSlot_trecSeq (s : State) (k : Nat) (f : SlotSt → SlotSt) : (s.modSlot k f).trecSeq = s.trecSeq := rfl
@[simp] theorem State.modSlot_haloGot (s : State) (k : Nat) (f : SlotSt → SlotSt) : (s.modSlot k f).haloGot = s.haloGot := rfl
@[simp] theorem State.modSlot_slotDesc (s : State) (k : Nat) (f : SlotSt → SlotSt) : (s.modSlot k f).slotDesc = s.slotDesc := rfl
@[simp] theorem State.modSlot_xc (s : State) (k : Nat) (f : SlotSt → SlotSt) : (s.modSlot k f).xc = s.xc := rfl
@[simp] theorem State.modSlot_bcastLast (s : State) (k : Nat) (f : SlotSt → SlotSt) : (s.modSlot k f).bcastLast = s.bcastLast := rfl
@[simp] theorem State.modSlot_peerFault (s : State) (k : Nat) (f : SlotSt → SlotSt) : (s.modSlot k f).peerFault = s.peerFault := rfl
@[simp] theorem State.modSlot_takePend (s : State) (k : Nat) (f : SlotSt → SlotSt) : (s.modSlot k f).takePend = s.takePend := rfl
@[simp] theorem State.modSlot_sess (s : State) (k : Nat) (f : SlotSt → SlotSt) : (s.modSlot k f).sess = s.sess := rfl
@[simp] theorem State.modSlot_adits (s : State) (k : Nat) (f : SlotSt → SlotSt) : (s.modSlot k f).adits = s.adits := rfl
@[simp] theorem State.modSlot_rxq (s : State) (k : Nat) (f : SlotSt → SlotSt) : (s.modSlot k f).rxq = s.rxq := rfl
@[simp] theorem State.modSlot_cb (s : State) (k : Nat) (f : SlotSt → SlotSt) : (s.modSlot k f).cb = s.cb := rfl
@[simp] theorem State.modSlot_jobSeq (s : State) (k : Nat) (f : SlotSt → SlotSt) : (s.modSlot k f).jobSeq = s.jobSeq := rfl
@[simp] theorem State.modSlot_tilers (s : State) (k : Nat) (f : SlotSt → SlotSt) : (s.modSlot k f).tilers = s.tilers := rfl
@[simp] theorem State.modSlot_sorters (s : State) (k : Nat) (f : SlotSt → SlotSt) : (s.modSlot k f).sorters = s.sorters := rfl
@[simp] theorem State.modSlot_assay (s : State) (k : Nat) (f : SlotSt → SlotSt) : (s.modSlot k f).assay = s.assay := rfl
@[simp] theorem State.modSlot_mf (s : State) (k : Nat) (f : SlotSt → SlotSt) : (s.modSlot k f).mf = s.mf := rfl
@[simp] theorem State.modSlot_cams (s : State) (k : Nat) (f : SlotSt → SlotSt) : (s.modSlot k f).cams = s.cams := rfl
@[simp] theorem State.modSlot_flows (s : State) (k : Nat) (f : SlotSt → SlotSt) : (s.modSlot k f).flows = s.flows := rfl
@[simp] theorem State.modSlot_spis (s : State) (k : Nat) (f : SlotSt → SlotSt) : (s.modSlot k f).spis = s.spis := rfl
@[simp] theorem State.modSlot_replayStop (s : State) (k : Nat) (f : SlotSt → SlotSt) : (s.modSlot k f).replayStop = s.replayStop := rfl
@[simp] theorem State.modSlot_out (s : State) (k : Nat) (f : SlotSt → SlotSt) : (s.modSlot k f).out = s.out := rfl
@[simp] theorem State.modSlot_free (s : State) (k : Nat) (f : SlotSt → SlotSt) : (s.modSlot k f).free = s.free := rfl

/-! ### modPort changes xc -/
@[simp] theorem State.modPort_pending (s : State) (p : Nat) (f : XcPort → XcPort) : (s.modPort p f).pending = s.pending := rfl
@[simp] theorem State.modPort_regs (s : State) (p : Nat) (f : XcPort → XcPort) : (s.modPort p f).regs = s.regs := rfl
@[simp] theorem State.modPort_held (s : State) (p : Nat) (f : XcPort → XcPort) : (s.modPort p f).held = s.held := rfl
@[simp] theorem State.modPort_latch (s : State) (p : Nat) (f : XcPort → XcPort) : (s.modPort p f).latch = s.latch := rfl
@[simp] theorem State.modPort_bus (s : State) (p : Nat) (f : XcPort → XcPort) : (s.modPort p f).bus = s.bus := rfl
@[simp] theorem State.modPort_mem (s : State) (p : Nat) (f : XcPort → XcPort) : (s.modPort p f).mem = s.mem := rfl
@[simp] theorem State.modPort_eccBad (s : State) (p : Nat) (f : XcPort → XcPort) : (s.modPort p f).eccBad = s.eccBad := rfl
@[simp] theorem State.modPort_eccOne (s : State) (p : Nat) (f : XcPort → XcPort) : (s.modPort p f).eccOne = s.eccOne := rfl
@[simp] theorem State.modPort_gflags (s : State) (p : Nat) (f : XcPort → XcPort) : (s.modPort p f).gflags = s.gflags := rfl
@[simp] theorem State.modPort_sflags (s : State) (p : Nat) (f : XcPort → XcPort) : (s.modPort p f).sflags = s.sflags := rfl
@[simp] theorem State.modPort_sump (s : State) (p : Nat) (f : XcPort → XcPort) : (s.modPort p f).sump = s.sump := rfl
@[simp] theorem State.modPort_faultOut (s : State) (p : Nat) (f : XcPort → XcPort) : (s.modPort p f).faultOut = s.faultOut := rfl
@[simp] theorem State.modPort_takeOut (s : State) (p : Nat) (f : XcPort → XcPort) : (s.modPort p f).takeOut = s.takeOut := rfl
@[simp] theorem State.modPort_unrepairable (s : State) (p : Nat) (f : XcPort → XcPort) : (s.modPort p f).unrepairable = s.unrepairable := rfl
@[simp] theorem State.modPort_time (s : State) (p : Nat) (f : XcPort → XcPort) : (s.modPort p f).time = s.time := rfl
@[simp] theorem State.modPort_boot (s : State) (p : Nat) (f : XcPort → XcPort) : (s.modPort p f).boot = s.boot := rfl
@[simp] theorem State.modPort_power (s : State) (p : Nat) (f : XcPort → XcPort) : (s.modPort p f).power = s.power := rfl
@[simp] theorem State.modPort_faces (s : State) (p : Nat) (f : XcPort → XcPort) : (s.modPort p f).faces = s.faces := rfl
@[simp] theorem State.modPort_ctxs (s : State) (p : Nat) (f : XcPort → XcPort) : (s.modPort p f).ctxs = s.ctxs := rfl
@[simp] theorem State.modPort_runs (s : State) (p : Nat) (f : XcPort → XcPort) : (s.modPort p f).runs = s.runs := rfl
@[simp] theorem State.modPort_slotLast (s : State) (p : Nat) (f : XcPort → XcPort) : (s.modPort p f).slotLast = s.slotLast := rfl
@[simp] theorem State.modPort_parts (s : State) (p : Nat) (f : XcPort → XcPort) : (s.modPort p f).parts = s.parts := rfl
@[simp] theorem State.modPort_launches (s : State) (p : Nat) (f : XcPort → XcPort) : (s.modPort p f).launches = s.launches := rfl
@[simp] theorem State.modPort_windows (s : State) (p : Nat) (f : XcPort → XcPort) : (s.modPort p f).windows = s.windows := rfl
@[simp] theorem State.modPort_ctxCmd (s : State) (p : Nat) (f : XcPort → XcPort) : (s.modPort p f).ctxCmd = s.ctxCmd := rfl
@[simp] theorem State.modPort_batchReqs (s : State) (p : Nat) (f : XcPort → XcPort) : (s.modPort p f).batchReqs = s.batchReqs := rfl
@[simp] theorem State.modPort_members (s : State) (p : Nat) (f : XcPort → XcPort) : (s.modPort p f).members = s.members := rfl
@[simp] theorem State.modPort_hoists (s : State) (p : Nat) (f : XcPort → XcPort) : (s.modPort p f).hoists = s.hoists := rfl
@[simp] theorem State.modPort_bands (s : State) (p : Nat) (f : XcPort → XcPort) : (s.modPort p f).bands = s.bands := rfl
@[simp] theorem State.modPort_groups (s : State) (p : Nat) (f : XcPort → XcPort) : (s.modPort p f).groups = s.groups := rfl
@[simp] theorem State.modPort_sched (s : State) (p : Nat) (f : XcPort → XcPort) : (s.modPort p f).sched = s.sched := rfl
@[simp] theorem State.modPort_slotLoading (s : State) (p : Nat) (f : XcPort → XcPort) : (s.modPort p f).slotLoading = s.slotLoading := rfl
@[simp] theorem State.modPort_fwdPoses (s : State) (p : Nat) (f : XcPort → XcPort) : (s.modPort p f).fwdPoses = s.fwdPoses := rfl
@[simp] theorem State.modPort_adapt (s : State) (p : Nat) (f : XcPort → XcPort) : (s.modPort p f).adapt = s.adapt := rfl
@[simp] theorem State.modPort_lateSeen (s : State) (p : Nat) (f : XcPort → XcPort) : (s.modPort p f).lateSeen = s.lateSeen := rfl
@[simp] theorem State.modPort_red (s : State) (p : Nat) (f : XcPort → XcPort) : (s.modPort p f).red = s.red := rfl
@[simp] theorem State.modPort_redWait (s : State) (p : Nat) (f : XcPort → XcPort) : (s.modPort p f).redWait = s.redWait := rfl
@[simp] theorem State.modPort_doneWatch (s : State) (p : Nat) (f : XcPort → XcPort) : (s.modPort p f).doneWatch = s.doneWatch := rfl
@[simp] theorem State.modPort_heads (s : State) (p : Nat) (f : XcPort → XcPort) : (s.modPort p f).heads = s.heads := rfl
@[simp] theorem State.modPort_frameSum (s : State) (p : Nat) (f : XcPort → XcPort) : (s.modPort p f).frameSum = s.frameSum := rfl
@[simp] theorem State.modPort_recGap (s : State) (p : Nat) (f : XcPort → XcPort) : (s.modPort p f).recGap = s.recGap := rfl
@[simp] theorem State.modPort_trecSeq (s : State) (p : Nat) (f : XcPort → XcPort) : (s.modPort p f).trecSeq = s.trecSeq := rfl
@[simp] theorem State.modPort_haloGot (s : State) (p : Nat) (f : XcPort → XcPort) : (s.modPort p f).haloGot = s.haloGot := rfl
@[simp] theorem State.modPort_slots (s : State) (p : Nat) (f : XcPort → XcPort) : (s.modPort p f).slots = s.slots := rfl
@[simp] theorem State.modPort_slotDesc (s : State) (p : Nat) (f : XcPort → XcPort) : (s.modPort p f).slotDesc = s.slotDesc := rfl
@[simp] theorem State.modPort_bcastLast (s : State) (p : Nat) (f : XcPort → XcPort) : (s.modPort p f).bcastLast = s.bcastLast := rfl
@[simp] theorem State.modPort_peerFault (s : State) (p : Nat) (f : XcPort → XcPort) : (s.modPort p f).peerFault = s.peerFault := rfl
@[simp] theorem State.modPort_takePend (s : State) (p : Nat) (f : XcPort → XcPort) : (s.modPort p f).takePend = s.takePend := rfl
@[simp] theorem State.modPort_sess (s : State) (p : Nat) (f : XcPort → XcPort) : (s.modPort p f).sess = s.sess := rfl
@[simp] theorem State.modPort_adits (s : State) (p : Nat) (f : XcPort → XcPort) : (s.modPort p f).adits = s.adits := rfl
@[simp] theorem State.modPort_rxq (s : State) (p : Nat) (f : XcPort → XcPort) : (s.modPort p f).rxq = s.rxq := rfl
@[simp] theorem State.modPort_cb (s : State) (p : Nat) (f : XcPort → XcPort) : (s.modPort p f).cb = s.cb := rfl
@[simp] theorem State.modPort_jobSeq (s : State) (p : Nat) (f : XcPort → XcPort) : (s.modPort p f).jobSeq = s.jobSeq := rfl
@[simp] theorem State.modPort_tilers (s : State) (p : Nat) (f : XcPort → XcPort) : (s.modPort p f).tilers = s.tilers := rfl
@[simp] theorem State.modPort_sorters (s : State) (p : Nat) (f : XcPort → XcPort) : (s.modPort p f).sorters = s.sorters := rfl
@[simp] theorem State.modPort_assay (s : State) (p : Nat) (f : XcPort → XcPort) : (s.modPort p f).assay = s.assay := rfl
@[simp] theorem State.modPort_mf (s : State) (p : Nat) (f : XcPort → XcPort) : (s.modPort p f).mf = s.mf := rfl
@[simp] theorem State.modPort_cams (s : State) (p : Nat) (f : XcPort → XcPort) : (s.modPort p f).cams = s.cams := rfl
@[simp] theorem State.modPort_flows (s : State) (p : Nat) (f : XcPort → XcPort) : (s.modPort p f).flows = s.flows := rfl
@[simp] theorem State.modPort_spis (s : State) (p : Nat) (f : XcPort → XcPort) : (s.modPort p f).spis = s.spis := rfl
@[simp] theorem State.modPort_replayStop (s : State) (p : Nat) (f : XcPort → XcPort) : (s.modPort p f).replayStop = s.replayStop := rfl
@[simp] theorem State.modPort_out (s : State) (p : Nat) (f : XcPort → XcPort) : (s.modPort p f).out = s.out := rfl
@[simp] theorem State.modPort_free (s : State) (p : Nat) (f : XcPort → XcPort) : (s.modPort p f).free = s.free := rfl

/-! ### modAdit changes adits -/
@[simp] theorem State.modAdit_pending (s : State) (p : Nat) (f : AditSt → AditSt) : (s.modAdit p f).pending = s.pending := rfl
@[simp] theorem State.modAdit_regs (s : State) (p : Nat) (f : AditSt → AditSt) : (s.modAdit p f).regs = s.regs := rfl
@[simp] theorem State.modAdit_held (s : State) (p : Nat) (f : AditSt → AditSt) : (s.modAdit p f).held = s.held := rfl
@[simp] theorem State.modAdit_latch (s : State) (p : Nat) (f : AditSt → AditSt) : (s.modAdit p f).latch = s.latch := rfl
@[simp] theorem State.modAdit_bus (s : State) (p : Nat) (f : AditSt → AditSt) : (s.modAdit p f).bus = s.bus := rfl
@[simp] theorem State.modAdit_mem (s : State) (p : Nat) (f : AditSt → AditSt) : (s.modAdit p f).mem = s.mem := rfl
@[simp] theorem State.modAdit_eccBad (s : State) (p : Nat) (f : AditSt → AditSt) : (s.modAdit p f).eccBad = s.eccBad := rfl
@[simp] theorem State.modAdit_eccOne (s : State) (p : Nat) (f : AditSt → AditSt) : (s.modAdit p f).eccOne = s.eccOne := rfl
@[simp] theorem State.modAdit_gflags (s : State) (p : Nat) (f : AditSt → AditSt) : (s.modAdit p f).gflags = s.gflags := rfl
@[simp] theorem State.modAdit_sflags (s : State) (p : Nat) (f : AditSt → AditSt) : (s.modAdit p f).sflags = s.sflags := rfl
@[simp] theorem State.modAdit_sump (s : State) (p : Nat) (f : AditSt → AditSt) : (s.modAdit p f).sump = s.sump := rfl
@[simp] theorem State.modAdit_faultOut (s : State) (p : Nat) (f : AditSt → AditSt) : (s.modAdit p f).faultOut = s.faultOut := rfl
@[simp] theorem State.modAdit_takeOut (s : State) (p : Nat) (f : AditSt → AditSt) : (s.modAdit p f).takeOut = s.takeOut := rfl
@[simp] theorem State.modAdit_unrepairable (s : State) (p : Nat) (f : AditSt → AditSt) : (s.modAdit p f).unrepairable = s.unrepairable := rfl
@[simp] theorem State.modAdit_time (s : State) (p : Nat) (f : AditSt → AditSt) : (s.modAdit p f).time = s.time := rfl
@[simp] theorem State.modAdit_boot (s : State) (p : Nat) (f : AditSt → AditSt) : (s.modAdit p f).boot = s.boot := rfl
@[simp] theorem State.modAdit_power (s : State) (p : Nat) (f : AditSt → AditSt) : (s.modAdit p f).power = s.power := rfl
@[simp] theorem State.modAdit_faces (s : State) (p : Nat) (f : AditSt → AditSt) : (s.modAdit p f).faces = s.faces := rfl
@[simp] theorem State.modAdit_ctxs (s : State) (p : Nat) (f : AditSt → AditSt) : (s.modAdit p f).ctxs = s.ctxs := rfl
@[simp] theorem State.modAdit_runs (s : State) (p : Nat) (f : AditSt → AditSt) : (s.modAdit p f).runs = s.runs := rfl
@[simp] theorem State.modAdit_slotLast (s : State) (p : Nat) (f : AditSt → AditSt) : (s.modAdit p f).slotLast = s.slotLast := rfl
@[simp] theorem State.modAdit_parts (s : State) (p : Nat) (f : AditSt → AditSt) : (s.modAdit p f).parts = s.parts := rfl
@[simp] theorem State.modAdit_launches (s : State) (p : Nat) (f : AditSt → AditSt) : (s.modAdit p f).launches = s.launches := rfl
@[simp] theorem State.modAdit_windows (s : State) (p : Nat) (f : AditSt → AditSt) : (s.modAdit p f).windows = s.windows := rfl
@[simp] theorem State.modAdit_ctxCmd (s : State) (p : Nat) (f : AditSt → AditSt) : (s.modAdit p f).ctxCmd = s.ctxCmd := rfl
@[simp] theorem State.modAdit_batchReqs (s : State) (p : Nat) (f : AditSt → AditSt) : (s.modAdit p f).batchReqs = s.batchReqs := rfl
@[simp] theorem State.modAdit_members (s : State) (p : Nat) (f : AditSt → AditSt) : (s.modAdit p f).members = s.members := rfl
@[simp] theorem State.modAdit_hoists (s : State) (p : Nat) (f : AditSt → AditSt) : (s.modAdit p f).hoists = s.hoists := rfl
@[simp] theorem State.modAdit_bands (s : State) (p : Nat) (f : AditSt → AditSt) : (s.modAdit p f).bands = s.bands := rfl
@[simp] theorem State.modAdit_groups (s : State) (p : Nat) (f : AditSt → AditSt) : (s.modAdit p f).groups = s.groups := rfl
@[simp] theorem State.modAdit_sched (s : State) (p : Nat) (f : AditSt → AditSt) : (s.modAdit p f).sched = s.sched := rfl
@[simp] theorem State.modAdit_slotLoading (s : State) (p : Nat) (f : AditSt → AditSt) : (s.modAdit p f).slotLoading = s.slotLoading := rfl
@[simp] theorem State.modAdit_fwdPoses (s : State) (p : Nat) (f : AditSt → AditSt) : (s.modAdit p f).fwdPoses = s.fwdPoses := rfl
@[simp] theorem State.modAdit_adapt (s : State) (p : Nat) (f : AditSt → AditSt) : (s.modAdit p f).adapt = s.adapt := rfl
@[simp] theorem State.modAdit_lateSeen (s : State) (p : Nat) (f : AditSt → AditSt) : (s.modAdit p f).lateSeen = s.lateSeen := rfl
@[simp] theorem State.modAdit_red (s : State) (p : Nat) (f : AditSt → AditSt) : (s.modAdit p f).red = s.red := rfl
@[simp] theorem State.modAdit_redWait (s : State) (p : Nat) (f : AditSt → AditSt) : (s.modAdit p f).redWait = s.redWait := rfl
@[simp] theorem State.modAdit_doneWatch (s : State) (p : Nat) (f : AditSt → AditSt) : (s.modAdit p f).doneWatch = s.doneWatch := rfl
@[simp] theorem State.modAdit_heads (s : State) (p : Nat) (f : AditSt → AditSt) : (s.modAdit p f).heads = s.heads := rfl
@[simp] theorem State.modAdit_frameSum (s : State) (p : Nat) (f : AditSt → AditSt) : (s.modAdit p f).frameSum = s.frameSum := rfl
@[simp] theorem State.modAdit_recGap (s : State) (p : Nat) (f : AditSt → AditSt) : (s.modAdit p f).recGap = s.recGap := rfl
@[simp] theorem State.modAdit_trecSeq (s : State) (p : Nat) (f : AditSt → AditSt) : (s.modAdit p f).trecSeq = s.trecSeq := rfl
@[simp] theorem State.modAdit_haloGot (s : State) (p : Nat) (f : AditSt → AditSt) : (s.modAdit p f).haloGot = s.haloGot := rfl
@[simp] theorem State.modAdit_slots (s : State) (p : Nat) (f : AditSt → AditSt) : (s.modAdit p f).slots = s.slots := rfl
@[simp] theorem State.modAdit_slotDesc (s : State) (p : Nat) (f : AditSt → AditSt) : (s.modAdit p f).slotDesc = s.slotDesc := rfl
@[simp] theorem State.modAdit_xc (s : State) (p : Nat) (f : AditSt → AditSt) : (s.modAdit p f).xc = s.xc := rfl
@[simp] theorem State.modAdit_bcastLast (s : State) (p : Nat) (f : AditSt → AditSt) : (s.modAdit p f).bcastLast = s.bcastLast := rfl
@[simp] theorem State.modAdit_peerFault (s : State) (p : Nat) (f : AditSt → AditSt) : (s.modAdit p f).peerFault = s.peerFault := rfl
@[simp] theorem State.modAdit_takePend (s : State) (p : Nat) (f : AditSt → AditSt) : (s.modAdit p f).takePend = s.takePend := rfl
@[simp] theorem State.modAdit_sess (s : State) (p : Nat) (f : AditSt → AditSt) : (s.modAdit p f).sess = s.sess := rfl
@[simp] theorem State.modAdit_rxq (s : State) (p : Nat) (f : AditSt → AditSt) : (s.modAdit p f).rxq = s.rxq := rfl
@[simp] theorem State.modAdit_cb (s : State) (p : Nat) (f : AditSt → AditSt) : (s.modAdit p f).cb = s.cb := rfl
@[simp] theorem State.modAdit_jobSeq (s : State) (p : Nat) (f : AditSt → AditSt) : (s.modAdit p f).jobSeq = s.jobSeq := rfl
@[simp] theorem State.modAdit_tilers (s : State) (p : Nat) (f : AditSt → AditSt) : (s.modAdit p f).tilers = s.tilers := rfl
@[simp] theorem State.modAdit_sorters (s : State) (p : Nat) (f : AditSt → AditSt) : (s.modAdit p f).sorters = s.sorters := rfl
@[simp] theorem State.modAdit_assay (s : State) (p : Nat) (f : AditSt → AditSt) : (s.modAdit p f).assay = s.assay := rfl
@[simp] theorem State.modAdit_mf (s : State) (p : Nat) (f : AditSt → AditSt) : (s.modAdit p f).mf = s.mf := rfl
@[simp] theorem State.modAdit_cams (s : State) (p : Nat) (f : AditSt → AditSt) : (s.modAdit p f).cams = s.cams := rfl
@[simp] theorem State.modAdit_flows (s : State) (p : Nat) (f : AditSt → AditSt) : (s.modAdit p f).flows = s.flows := rfl
@[simp] theorem State.modAdit_spis (s : State) (p : Nat) (f : AditSt → AditSt) : (s.modAdit p f).spis = s.spis := rfl
@[simp] theorem State.modAdit_replayStop (s : State) (p : Nat) (f : AditSt → AditSt) : (s.modAdit p f).replayStop = s.replayStop := rfl
@[simp] theorem State.modAdit_out (s : State) (p : Nat) (f : AditSt → AditSt) : (s.modAdit p f).out = s.out := rfl
@[simp] theorem State.modAdit_free (s : State) (p : Nat) (f : AditSt → AditSt) : (s.modAdit p f).free = s.free := rfl

/-! ### modFlow changes flows -/
@[simp] theorem State.modFlow_pending (s : State) (k : Nat) (f : FlowSt → FlowSt) : (s.modFlow k f).pending = s.pending := rfl
@[simp] theorem State.modFlow_regs (s : State) (k : Nat) (f : FlowSt → FlowSt) : (s.modFlow k f).regs = s.regs := rfl
@[simp] theorem State.modFlow_held (s : State) (k : Nat) (f : FlowSt → FlowSt) : (s.modFlow k f).held = s.held := rfl
@[simp] theorem State.modFlow_latch (s : State) (k : Nat) (f : FlowSt → FlowSt) : (s.modFlow k f).latch = s.latch := rfl
@[simp] theorem State.modFlow_bus (s : State) (k : Nat) (f : FlowSt → FlowSt) : (s.modFlow k f).bus = s.bus := rfl
@[simp] theorem State.modFlow_mem (s : State) (k : Nat) (f : FlowSt → FlowSt) : (s.modFlow k f).mem = s.mem := rfl
@[simp] theorem State.modFlow_eccBad (s : State) (k : Nat) (f : FlowSt → FlowSt) : (s.modFlow k f).eccBad = s.eccBad := rfl
@[simp] theorem State.modFlow_eccOne (s : State) (k : Nat) (f : FlowSt → FlowSt) : (s.modFlow k f).eccOne = s.eccOne := rfl
@[simp] theorem State.modFlow_gflags (s : State) (k : Nat) (f : FlowSt → FlowSt) : (s.modFlow k f).gflags = s.gflags := rfl
@[simp] theorem State.modFlow_sflags (s : State) (k : Nat) (f : FlowSt → FlowSt) : (s.modFlow k f).sflags = s.sflags := rfl
@[simp] theorem State.modFlow_sump (s : State) (k : Nat) (f : FlowSt → FlowSt) : (s.modFlow k f).sump = s.sump := rfl
@[simp] theorem State.modFlow_faultOut (s : State) (k : Nat) (f : FlowSt → FlowSt) : (s.modFlow k f).faultOut = s.faultOut := rfl
@[simp] theorem State.modFlow_takeOut (s : State) (k : Nat) (f : FlowSt → FlowSt) : (s.modFlow k f).takeOut = s.takeOut := rfl
@[simp] theorem State.modFlow_unrepairable (s : State) (k : Nat) (f : FlowSt → FlowSt) : (s.modFlow k f).unrepairable = s.unrepairable := rfl
@[simp] theorem State.modFlow_time (s : State) (k : Nat) (f : FlowSt → FlowSt) : (s.modFlow k f).time = s.time := rfl
@[simp] theorem State.modFlow_boot (s : State) (k : Nat) (f : FlowSt → FlowSt) : (s.modFlow k f).boot = s.boot := rfl
@[simp] theorem State.modFlow_power (s : State) (k : Nat) (f : FlowSt → FlowSt) : (s.modFlow k f).power = s.power := rfl
@[simp] theorem State.modFlow_faces (s : State) (k : Nat) (f : FlowSt → FlowSt) : (s.modFlow k f).faces = s.faces := rfl
@[simp] theorem State.modFlow_ctxs (s : State) (k : Nat) (f : FlowSt → FlowSt) : (s.modFlow k f).ctxs = s.ctxs := rfl
@[simp] theorem State.modFlow_runs (s : State) (k : Nat) (f : FlowSt → FlowSt) : (s.modFlow k f).runs = s.runs := rfl
@[simp] theorem State.modFlow_slotLast (s : State) (k : Nat) (f : FlowSt → FlowSt) : (s.modFlow k f).slotLast = s.slotLast := rfl
@[simp] theorem State.modFlow_parts (s : State) (k : Nat) (f : FlowSt → FlowSt) : (s.modFlow k f).parts = s.parts := rfl
@[simp] theorem State.modFlow_launches (s : State) (k : Nat) (f : FlowSt → FlowSt) : (s.modFlow k f).launches = s.launches := rfl
@[simp] theorem State.modFlow_windows (s : State) (k : Nat) (f : FlowSt → FlowSt) : (s.modFlow k f).windows = s.windows := rfl
@[simp] theorem State.modFlow_ctxCmd (s : State) (k : Nat) (f : FlowSt → FlowSt) : (s.modFlow k f).ctxCmd = s.ctxCmd := rfl
@[simp] theorem State.modFlow_batchReqs (s : State) (k : Nat) (f : FlowSt → FlowSt) : (s.modFlow k f).batchReqs = s.batchReqs := rfl
@[simp] theorem State.modFlow_members (s : State) (k : Nat) (f : FlowSt → FlowSt) : (s.modFlow k f).members = s.members := rfl
@[simp] theorem State.modFlow_hoists (s : State) (k : Nat) (f : FlowSt → FlowSt) : (s.modFlow k f).hoists = s.hoists := rfl
@[simp] theorem State.modFlow_bands (s : State) (k : Nat) (f : FlowSt → FlowSt) : (s.modFlow k f).bands = s.bands := rfl
@[simp] theorem State.modFlow_groups (s : State) (k : Nat) (f : FlowSt → FlowSt) : (s.modFlow k f).groups = s.groups := rfl
@[simp] theorem State.modFlow_sched (s : State) (k : Nat) (f : FlowSt → FlowSt) : (s.modFlow k f).sched = s.sched := rfl
@[simp] theorem State.modFlow_slotLoading (s : State) (k : Nat) (f : FlowSt → FlowSt) : (s.modFlow k f).slotLoading = s.slotLoading := rfl
@[simp] theorem State.modFlow_fwdPoses (s : State) (k : Nat) (f : FlowSt → FlowSt) : (s.modFlow k f).fwdPoses = s.fwdPoses := rfl
@[simp] theorem State.modFlow_adapt (s : State) (k : Nat) (f : FlowSt → FlowSt) : (s.modFlow k f).adapt = s.adapt := rfl
@[simp] theorem State.modFlow_lateSeen (s : State) (k : Nat) (f : FlowSt → FlowSt) : (s.modFlow k f).lateSeen = s.lateSeen := rfl
@[simp] theorem State.modFlow_red (s : State) (k : Nat) (f : FlowSt → FlowSt) : (s.modFlow k f).red = s.red := rfl
@[simp] theorem State.modFlow_redWait (s : State) (k : Nat) (f : FlowSt → FlowSt) : (s.modFlow k f).redWait = s.redWait := rfl
@[simp] theorem State.modFlow_doneWatch (s : State) (k : Nat) (f : FlowSt → FlowSt) : (s.modFlow k f).doneWatch = s.doneWatch := rfl
@[simp] theorem State.modFlow_heads (s : State) (k : Nat) (f : FlowSt → FlowSt) : (s.modFlow k f).heads = s.heads := rfl
@[simp] theorem State.modFlow_frameSum (s : State) (k : Nat) (f : FlowSt → FlowSt) : (s.modFlow k f).frameSum = s.frameSum := rfl
@[simp] theorem State.modFlow_recGap (s : State) (k : Nat) (f : FlowSt → FlowSt) : (s.modFlow k f).recGap = s.recGap := rfl
@[simp] theorem State.modFlow_trecSeq (s : State) (k : Nat) (f : FlowSt → FlowSt) : (s.modFlow k f).trecSeq = s.trecSeq := rfl
@[simp] theorem State.modFlow_haloGot (s : State) (k : Nat) (f : FlowSt → FlowSt) : (s.modFlow k f).haloGot = s.haloGot := rfl
@[simp] theorem State.modFlow_slots (s : State) (k : Nat) (f : FlowSt → FlowSt) : (s.modFlow k f).slots = s.slots := rfl
@[simp] theorem State.modFlow_slotDesc (s : State) (k : Nat) (f : FlowSt → FlowSt) : (s.modFlow k f).slotDesc = s.slotDesc := rfl
@[simp] theorem State.modFlow_xc (s : State) (k : Nat) (f : FlowSt → FlowSt) : (s.modFlow k f).xc = s.xc := rfl
@[simp] theorem State.modFlow_bcastLast (s : State) (k : Nat) (f : FlowSt → FlowSt) : (s.modFlow k f).bcastLast = s.bcastLast := rfl
@[simp] theorem State.modFlow_peerFault (s : State) (k : Nat) (f : FlowSt → FlowSt) : (s.modFlow k f).peerFault = s.peerFault := rfl
@[simp] theorem State.modFlow_takePend (s : State) (k : Nat) (f : FlowSt → FlowSt) : (s.modFlow k f).takePend = s.takePend := rfl
@[simp] theorem State.modFlow_sess (s : State) (k : Nat) (f : FlowSt → FlowSt) : (s.modFlow k f).sess = s.sess := rfl
@[simp] theorem State.modFlow_adits (s : State) (k : Nat) (f : FlowSt → FlowSt) : (s.modFlow k f).adits = s.adits := rfl
@[simp] theorem State.modFlow_rxq (s : State) (k : Nat) (f : FlowSt → FlowSt) : (s.modFlow k f).rxq = s.rxq := rfl
@[simp] theorem State.modFlow_cb (s : State) (k : Nat) (f : FlowSt → FlowSt) : (s.modFlow k f).cb = s.cb := rfl
@[simp] theorem State.modFlow_jobSeq (s : State) (k : Nat) (f : FlowSt → FlowSt) : (s.modFlow k f).jobSeq = s.jobSeq := rfl
@[simp] theorem State.modFlow_tilers (s : State) (k : Nat) (f : FlowSt → FlowSt) : (s.modFlow k f).tilers = s.tilers := rfl
@[simp] theorem State.modFlow_sorters (s : State) (k : Nat) (f : FlowSt → FlowSt) : (s.modFlow k f).sorters = s.sorters := rfl
@[simp] theorem State.modFlow_assay (s : State) (k : Nat) (f : FlowSt → FlowSt) : (s.modFlow k f).assay = s.assay := rfl
@[simp] theorem State.modFlow_mf (s : State) (k : Nat) (f : FlowSt → FlowSt) : (s.modFlow k f).mf = s.mf := rfl
@[simp] theorem State.modFlow_cams (s : State) (k : Nat) (f : FlowSt → FlowSt) : (s.modFlow k f).cams = s.cams := rfl
@[simp] theorem State.modFlow_spis (s : State) (k : Nat) (f : FlowSt → FlowSt) : (s.modFlow k f).spis = s.spis := rfl
@[simp] theorem State.modFlow_replayStop (s : State) (k : Nat) (f : FlowSt → FlowSt) : (s.modFlow k f).replayStop = s.replayStop := rfl
@[simp] theorem State.modFlow_out (s : State) (k : Nat) (f : FlowSt → FlowSt) : (s.modFlow k f).out = s.out := rfl
@[simp] theorem State.modFlow_free (s : State) (k : Nat) (f : FlowSt → FlowSt) : (s.modFlow k f).free = s.free := rfl

/-! ### modSpi changes spis -/
@[simp] theorem State.modSpi_pending (s : State) (p : Nat) (f : SpiSt → SpiSt) : (s.modSpi p f).pending = s.pending := rfl
@[simp] theorem State.modSpi_regs (s : State) (p : Nat) (f : SpiSt → SpiSt) : (s.modSpi p f).regs = s.regs := rfl
@[simp] theorem State.modSpi_held (s : State) (p : Nat) (f : SpiSt → SpiSt) : (s.modSpi p f).held = s.held := rfl
@[simp] theorem State.modSpi_latch (s : State) (p : Nat) (f : SpiSt → SpiSt) : (s.modSpi p f).latch = s.latch := rfl
@[simp] theorem State.modSpi_bus (s : State) (p : Nat) (f : SpiSt → SpiSt) : (s.modSpi p f).bus = s.bus := rfl
@[simp] theorem State.modSpi_mem (s : State) (p : Nat) (f : SpiSt → SpiSt) : (s.modSpi p f).mem = s.mem := rfl
@[simp] theorem State.modSpi_eccBad (s : State) (p : Nat) (f : SpiSt → SpiSt) : (s.modSpi p f).eccBad = s.eccBad := rfl
@[simp] theorem State.modSpi_eccOne (s : State) (p : Nat) (f : SpiSt → SpiSt) : (s.modSpi p f).eccOne = s.eccOne := rfl
@[simp] theorem State.modSpi_gflags (s : State) (p : Nat) (f : SpiSt → SpiSt) : (s.modSpi p f).gflags = s.gflags := rfl
@[simp] theorem State.modSpi_sflags (s : State) (p : Nat) (f : SpiSt → SpiSt) : (s.modSpi p f).sflags = s.sflags := rfl
@[simp] theorem State.modSpi_sump (s : State) (p : Nat) (f : SpiSt → SpiSt) : (s.modSpi p f).sump = s.sump := rfl
@[simp] theorem State.modSpi_faultOut (s : State) (p : Nat) (f : SpiSt → SpiSt) : (s.modSpi p f).faultOut = s.faultOut := rfl
@[simp] theorem State.modSpi_takeOut (s : State) (p : Nat) (f : SpiSt → SpiSt) : (s.modSpi p f).takeOut = s.takeOut := rfl
@[simp] theorem State.modSpi_unrepairable (s : State) (p : Nat) (f : SpiSt → SpiSt) : (s.modSpi p f).unrepairable = s.unrepairable := rfl
@[simp] theorem State.modSpi_time (s : State) (p : Nat) (f : SpiSt → SpiSt) : (s.modSpi p f).time = s.time := rfl
@[simp] theorem State.modSpi_boot (s : State) (p : Nat) (f : SpiSt → SpiSt) : (s.modSpi p f).boot = s.boot := rfl
@[simp] theorem State.modSpi_power (s : State) (p : Nat) (f : SpiSt → SpiSt) : (s.modSpi p f).power = s.power := rfl
@[simp] theorem State.modSpi_faces (s : State) (p : Nat) (f : SpiSt → SpiSt) : (s.modSpi p f).faces = s.faces := rfl
@[simp] theorem State.modSpi_ctxs (s : State) (p : Nat) (f : SpiSt → SpiSt) : (s.modSpi p f).ctxs = s.ctxs := rfl
@[simp] theorem State.modSpi_runs (s : State) (p : Nat) (f : SpiSt → SpiSt) : (s.modSpi p f).runs = s.runs := rfl
@[simp] theorem State.modSpi_slotLast (s : State) (p : Nat) (f : SpiSt → SpiSt) : (s.modSpi p f).slotLast = s.slotLast := rfl
@[simp] theorem State.modSpi_parts (s : State) (p : Nat) (f : SpiSt → SpiSt) : (s.modSpi p f).parts = s.parts := rfl
@[simp] theorem State.modSpi_launches (s : State) (p : Nat) (f : SpiSt → SpiSt) : (s.modSpi p f).launches = s.launches := rfl
@[simp] theorem State.modSpi_windows (s : State) (p : Nat) (f : SpiSt → SpiSt) : (s.modSpi p f).windows = s.windows := rfl
@[simp] theorem State.modSpi_ctxCmd (s : State) (p : Nat) (f : SpiSt → SpiSt) : (s.modSpi p f).ctxCmd = s.ctxCmd := rfl
@[simp] theorem State.modSpi_batchReqs (s : State) (p : Nat) (f : SpiSt → SpiSt) : (s.modSpi p f).batchReqs = s.batchReqs := rfl
@[simp] theorem State.modSpi_members (s : State) (p : Nat) (f : SpiSt → SpiSt) : (s.modSpi p f).members = s.members := rfl
@[simp] theorem State.modSpi_hoists (s : State) (p : Nat) (f : SpiSt → SpiSt) : (s.modSpi p f).hoists = s.hoists := rfl
@[simp] theorem State.modSpi_bands (s : State) (p : Nat) (f : SpiSt → SpiSt) : (s.modSpi p f).bands = s.bands := rfl
@[simp] theorem State.modSpi_groups (s : State) (p : Nat) (f : SpiSt → SpiSt) : (s.modSpi p f).groups = s.groups := rfl
@[simp] theorem State.modSpi_sched (s : State) (p : Nat) (f : SpiSt → SpiSt) : (s.modSpi p f).sched = s.sched := rfl
@[simp] theorem State.modSpi_slotLoading (s : State) (p : Nat) (f : SpiSt → SpiSt) : (s.modSpi p f).slotLoading = s.slotLoading := rfl
@[simp] theorem State.modSpi_fwdPoses (s : State) (p : Nat) (f : SpiSt → SpiSt) : (s.modSpi p f).fwdPoses = s.fwdPoses := rfl
@[simp] theorem State.modSpi_adapt (s : State) (p : Nat) (f : SpiSt → SpiSt) : (s.modSpi p f).adapt = s.adapt := rfl
@[simp] theorem State.modSpi_lateSeen (s : State) (p : Nat) (f : SpiSt → SpiSt) : (s.modSpi p f).lateSeen = s.lateSeen := rfl
@[simp] theorem State.modSpi_red (s : State) (p : Nat) (f : SpiSt → SpiSt) : (s.modSpi p f).red = s.red := rfl
@[simp] theorem State.modSpi_redWait (s : State) (p : Nat) (f : SpiSt → SpiSt) : (s.modSpi p f).redWait = s.redWait := rfl
@[simp] theorem State.modSpi_doneWatch (s : State) (p : Nat) (f : SpiSt → SpiSt) : (s.modSpi p f).doneWatch = s.doneWatch := rfl
@[simp] theorem State.modSpi_heads (s : State) (p : Nat) (f : SpiSt → SpiSt) : (s.modSpi p f).heads = s.heads := rfl
@[simp] theorem State.modSpi_frameSum (s : State) (p : Nat) (f : SpiSt → SpiSt) : (s.modSpi p f).frameSum = s.frameSum := rfl
@[simp] theorem State.modSpi_recGap (s : State) (p : Nat) (f : SpiSt → SpiSt) : (s.modSpi p f).recGap = s.recGap := rfl
@[simp] theorem State.modSpi_trecSeq (s : State) (p : Nat) (f : SpiSt → SpiSt) : (s.modSpi p f).trecSeq = s.trecSeq := rfl
@[simp] theorem State.modSpi_haloGot (s : State) (p : Nat) (f : SpiSt → SpiSt) : (s.modSpi p f).haloGot = s.haloGot := rfl
@[simp] theorem State.modSpi_slots (s : State) (p : Nat) (f : SpiSt → SpiSt) : (s.modSpi p f).slots = s.slots := rfl
@[simp] theorem State.modSpi_slotDesc (s : State) (p : Nat) (f : SpiSt → SpiSt) : (s.modSpi p f).slotDesc = s.slotDesc := rfl
@[simp] theorem State.modSpi_xc (s : State) (p : Nat) (f : SpiSt → SpiSt) : (s.modSpi p f).xc = s.xc := rfl
@[simp] theorem State.modSpi_bcastLast (s : State) (p : Nat) (f : SpiSt → SpiSt) : (s.modSpi p f).bcastLast = s.bcastLast := rfl
@[simp] theorem State.modSpi_peerFault (s : State) (p : Nat) (f : SpiSt → SpiSt) : (s.modSpi p f).peerFault = s.peerFault := rfl
@[simp] theorem State.modSpi_takePend (s : State) (p : Nat) (f : SpiSt → SpiSt) : (s.modSpi p f).takePend = s.takePend := rfl
@[simp] theorem State.modSpi_sess (s : State) (p : Nat) (f : SpiSt → SpiSt) : (s.modSpi p f).sess = s.sess := rfl
@[simp] theorem State.modSpi_adits (s : State) (p : Nat) (f : SpiSt → SpiSt) : (s.modSpi p f).adits = s.adits := rfl
@[simp] theorem State.modSpi_rxq (s : State) (p : Nat) (f : SpiSt → SpiSt) : (s.modSpi p f).rxq = s.rxq := rfl
@[simp] theorem State.modSpi_cb (s : State) (p : Nat) (f : SpiSt → SpiSt) : (s.modSpi p f).cb = s.cb := rfl
@[simp] theorem State.modSpi_jobSeq (s : State) (p : Nat) (f : SpiSt → SpiSt) : (s.modSpi p f).jobSeq = s.jobSeq := rfl
@[simp] theorem State.modSpi_tilers (s : State) (p : Nat) (f : SpiSt → SpiSt) : (s.modSpi p f).tilers = s.tilers := rfl
@[simp] theorem State.modSpi_sorters (s : State) (p : Nat) (f : SpiSt → SpiSt) : (s.modSpi p f).sorters = s.sorters := rfl
@[simp] theorem State.modSpi_assay (s : State) (p : Nat) (f : SpiSt → SpiSt) : (s.modSpi p f).assay = s.assay := rfl
@[simp] theorem State.modSpi_mf (s : State) (p : Nat) (f : SpiSt → SpiSt) : (s.modSpi p f).mf = s.mf := rfl
@[simp] theorem State.modSpi_cams (s : State) (p : Nat) (f : SpiSt → SpiSt) : (s.modSpi p f).cams = s.cams := rfl
@[simp] theorem State.modSpi_flows (s : State) (p : Nat) (f : SpiSt → SpiSt) : (s.modSpi p f).flows = s.flows := rfl
@[simp] theorem State.modSpi_replayStop (s : State) (p : Nat) (f : SpiSt → SpiSt) : (s.modSpi p f).replayStop = s.replayStop := rfl
@[simp] theorem State.modSpi_out (s : State) (p : Nat) (f : SpiSt → SpiSt) : (s.modSpi p f).out = s.out := rfl
@[simp] theorem State.modSpi_free (s : State) (p : Nat) (f : SpiSt → SpiSt) : (s.modSpi p f).free = s.free := rfl

/-! ### modAs changes assay -/
@[simp] theorem State.modAs_pending (s : State) (k : Nat) (f : AssaySt → AssaySt) : (s.modAs k f).pending = s.pending := rfl
@[simp] theorem State.modAs_regs (s : State) (k : Nat) (f : AssaySt → AssaySt) : (s.modAs k f).regs = s.regs := rfl
@[simp] theorem State.modAs_held (s : State) (k : Nat) (f : AssaySt → AssaySt) : (s.modAs k f).held = s.held := rfl
@[simp] theorem State.modAs_latch (s : State) (k : Nat) (f : AssaySt → AssaySt) : (s.modAs k f).latch = s.latch := rfl
@[simp] theorem State.modAs_bus (s : State) (k : Nat) (f : AssaySt → AssaySt) : (s.modAs k f).bus = s.bus := rfl
@[simp] theorem State.modAs_mem (s : State) (k : Nat) (f : AssaySt → AssaySt) : (s.modAs k f).mem = s.mem := rfl
@[simp] theorem State.modAs_eccBad (s : State) (k : Nat) (f : AssaySt → AssaySt) : (s.modAs k f).eccBad = s.eccBad := rfl
@[simp] theorem State.modAs_eccOne (s : State) (k : Nat) (f : AssaySt → AssaySt) : (s.modAs k f).eccOne = s.eccOne := rfl
@[simp] theorem State.modAs_gflags (s : State) (k : Nat) (f : AssaySt → AssaySt) : (s.modAs k f).gflags = s.gflags := rfl
@[simp] theorem State.modAs_sflags (s : State) (k : Nat) (f : AssaySt → AssaySt) : (s.modAs k f).sflags = s.sflags := rfl
@[simp] theorem State.modAs_sump (s : State) (k : Nat) (f : AssaySt → AssaySt) : (s.modAs k f).sump = s.sump := rfl
@[simp] theorem State.modAs_faultOut (s : State) (k : Nat) (f : AssaySt → AssaySt) : (s.modAs k f).faultOut = s.faultOut := rfl
@[simp] theorem State.modAs_takeOut (s : State) (k : Nat) (f : AssaySt → AssaySt) : (s.modAs k f).takeOut = s.takeOut := rfl
@[simp] theorem State.modAs_unrepairable (s : State) (k : Nat) (f : AssaySt → AssaySt) : (s.modAs k f).unrepairable = s.unrepairable := rfl
@[simp] theorem State.modAs_time (s : State) (k : Nat) (f : AssaySt → AssaySt) : (s.modAs k f).time = s.time := rfl
@[simp] theorem State.modAs_boot (s : State) (k : Nat) (f : AssaySt → AssaySt) : (s.modAs k f).boot = s.boot := rfl
@[simp] theorem State.modAs_power (s : State) (k : Nat) (f : AssaySt → AssaySt) : (s.modAs k f).power = s.power := rfl
@[simp] theorem State.modAs_faces (s : State) (k : Nat) (f : AssaySt → AssaySt) : (s.modAs k f).faces = s.faces := rfl
@[simp] theorem State.modAs_ctxs (s : State) (k : Nat) (f : AssaySt → AssaySt) : (s.modAs k f).ctxs = s.ctxs := rfl
@[simp] theorem State.modAs_runs (s : State) (k : Nat) (f : AssaySt → AssaySt) : (s.modAs k f).runs = s.runs := rfl
@[simp] theorem State.modAs_slotLast (s : State) (k : Nat) (f : AssaySt → AssaySt) : (s.modAs k f).slotLast = s.slotLast := rfl
@[simp] theorem State.modAs_parts (s : State) (k : Nat) (f : AssaySt → AssaySt) : (s.modAs k f).parts = s.parts := rfl
@[simp] theorem State.modAs_launches (s : State) (k : Nat) (f : AssaySt → AssaySt) : (s.modAs k f).launches = s.launches := rfl
@[simp] theorem State.modAs_windows (s : State) (k : Nat) (f : AssaySt → AssaySt) : (s.modAs k f).windows = s.windows := rfl
@[simp] theorem State.modAs_ctxCmd (s : State) (k : Nat) (f : AssaySt → AssaySt) : (s.modAs k f).ctxCmd = s.ctxCmd := rfl
@[simp] theorem State.modAs_batchReqs (s : State) (k : Nat) (f : AssaySt → AssaySt) : (s.modAs k f).batchReqs = s.batchReqs := rfl
@[simp] theorem State.modAs_members (s : State) (k : Nat) (f : AssaySt → AssaySt) : (s.modAs k f).members = s.members := rfl
@[simp] theorem State.modAs_hoists (s : State) (k : Nat) (f : AssaySt → AssaySt) : (s.modAs k f).hoists = s.hoists := rfl
@[simp] theorem State.modAs_bands (s : State) (k : Nat) (f : AssaySt → AssaySt) : (s.modAs k f).bands = s.bands := rfl
@[simp] theorem State.modAs_groups (s : State) (k : Nat) (f : AssaySt → AssaySt) : (s.modAs k f).groups = s.groups := rfl
@[simp] theorem State.modAs_sched (s : State) (k : Nat) (f : AssaySt → AssaySt) : (s.modAs k f).sched = s.sched := rfl
@[simp] theorem State.modAs_slotLoading (s : State) (k : Nat) (f : AssaySt → AssaySt) : (s.modAs k f).slotLoading = s.slotLoading := rfl
@[simp] theorem State.modAs_fwdPoses (s : State) (k : Nat) (f : AssaySt → AssaySt) : (s.modAs k f).fwdPoses = s.fwdPoses := rfl
@[simp] theorem State.modAs_adapt (s : State) (k : Nat) (f : AssaySt → AssaySt) : (s.modAs k f).adapt = s.adapt := rfl
@[simp] theorem State.modAs_lateSeen (s : State) (k : Nat) (f : AssaySt → AssaySt) : (s.modAs k f).lateSeen = s.lateSeen := rfl
@[simp] theorem State.modAs_red (s : State) (k : Nat) (f : AssaySt → AssaySt) : (s.modAs k f).red = s.red := rfl
@[simp] theorem State.modAs_redWait (s : State) (k : Nat) (f : AssaySt → AssaySt) : (s.modAs k f).redWait = s.redWait := rfl
@[simp] theorem State.modAs_doneWatch (s : State) (k : Nat) (f : AssaySt → AssaySt) : (s.modAs k f).doneWatch = s.doneWatch := rfl
@[simp] theorem State.modAs_heads (s : State) (k : Nat) (f : AssaySt → AssaySt) : (s.modAs k f).heads = s.heads := rfl
@[simp] theorem State.modAs_frameSum (s : State) (k : Nat) (f : AssaySt → AssaySt) : (s.modAs k f).frameSum = s.frameSum := rfl
@[simp] theorem State.modAs_recGap (s : State) (k : Nat) (f : AssaySt → AssaySt) : (s.modAs k f).recGap = s.recGap := rfl
@[simp] theorem State.modAs_trecSeq (s : State) (k : Nat) (f : AssaySt → AssaySt) : (s.modAs k f).trecSeq = s.trecSeq := rfl
@[simp] theorem State.modAs_haloGot (s : State) (k : Nat) (f : AssaySt → AssaySt) : (s.modAs k f).haloGot = s.haloGot := rfl
@[simp] theorem State.modAs_slots (s : State) (k : Nat) (f : AssaySt → AssaySt) : (s.modAs k f).slots = s.slots := rfl
@[simp] theorem State.modAs_slotDesc (s : State) (k : Nat) (f : AssaySt → AssaySt) : (s.modAs k f).slotDesc = s.slotDesc := rfl
@[simp] theorem State.modAs_xc (s : State) (k : Nat) (f : AssaySt → AssaySt) : (s.modAs k f).xc = s.xc := rfl
@[simp] theorem State.modAs_bcastLast (s : State) (k : Nat) (f : AssaySt → AssaySt) : (s.modAs k f).bcastLast = s.bcastLast := rfl
@[simp] theorem State.modAs_peerFault (s : State) (k : Nat) (f : AssaySt → AssaySt) : (s.modAs k f).peerFault = s.peerFault := rfl
@[simp] theorem State.modAs_takePend (s : State) (k : Nat) (f : AssaySt → AssaySt) : (s.modAs k f).takePend = s.takePend := rfl
@[simp] theorem State.modAs_sess (s : State) (k : Nat) (f : AssaySt → AssaySt) : (s.modAs k f).sess = s.sess := rfl
@[simp] theorem State.modAs_adits (s : State) (k : Nat) (f : AssaySt → AssaySt) : (s.modAs k f).adits = s.adits := rfl
@[simp] theorem State.modAs_rxq (s : State) (k : Nat) (f : AssaySt → AssaySt) : (s.modAs k f).rxq = s.rxq := rfl
@[simp] theorem State.modAs_cb (s : State) (k : Nat) (f : AssaySt → AssaySt) : (s.modAs k f).cb = s.cb := rfl
@[simp] theorem State.modAs_jobSeq (s : State) (k : Nat) (f : AssaySt → AssaySt) : (s.modAs k f).jobSeq = s.jobSeq := rfl
@[simp] theorem State.modAs_tilers (s : State) (k : Nat) (f : AssaySt → AssaySt) : (s.modAs k f).tilers = s.tilers := rfl
@[simp] theorem State.modAs_sorters (s : State) (k : Nat) (f : AssaySt → AssaySt) : (s.modAs k f).sorters = s.sorters := rfl
@[simp] theorem State.modAs_mf (s : State) (k : Nat) (f : AssaySt → AssaySt) : (s.modAs k f).mf = s.mf := rfl
@[simp] theorem State.modAs_cams (s : State) (k : Nat) (f : AssaySt → AssaySt) : (s.modAs k f).cams = s.cams := rfl
@[simp] theorem State.modAs_flows (s : State) (k : Nat) (f : AssaySt → AssaySt) : (s.modAs k f).flows = s.flows := rfl
@[simp] theorem State.modAs_spis (s : State) (k : Nat) (f : AssaySt → AssaySt) : (s.modAs k f).spis = s.spis := rfl
@[simp] theorem State.modAs_replayStop (s : State) (k : Nat) (f : AssaySt → AssaySt) : (s.modAs k f).replayStop = s.replayStop := rfl
@[simp] theorem State.modAs_out (s : State) (k : Nat) (f : AssaySt → AssaySt) : (s.modAs k f).out = s.out := rfl
@[simp] theorem State.modAs_free (s : State) (k : Nat) (f : AssaySt → AssaySt) : (s.modAs k f).free = s.free := rfl

/-! ### modCam changes cams -/
@[simp] theorem State.modCam_pending (s : State) (c : Nat) (f : CamSt → CamSt) : (s.modCam c f).pending = s.pending := rfl
@[simp] theorem State.modCam_regs (s : State) (c : Nat) (f : CamSt → CamSt) : (s.modCam c f).regs = s.regs := rfl
@[simp] theorem State.modCam_held (s : State) (c : Nat) (f : CamSt → CamSt) : (s.modCam c f).held = s.held := rfl
@[simp] theorem State.modCam_latch (s : State) (c : Nat) (f : CamSt → CamSt) : (s.modCam c f).latch = s.latch := rfl
@[simp] theorem State.modCam_bus (s : State) (c : Nat) (f : CamSt → CamSt) : (s.modCam c f).bus = s.bus := rfl
@[simp] theorem State.modCam_mem (s : State) (c : Nat) (f : CamSt → CamSt) : (s.modCam c f).mem = s.mem := rfl
@[simp] theorem State.modCam_eccBad (s : State) (c : Nat) (f : CamSt → CamSt) : (s.modCam c f).eccBad = s.eccBad := rfl
@[simp] theorem State.modCam_eccOne (s : State) (c : Nat) (f : CamSt → CamSt) : (s.modCam c f).eccOne = s.eccOne := rfl
@[simp] theorem State.modCam_gflags (s : State) (c : Nat) (f : CamSt → CamSt) : (s.modCam c f).gflags = s.gflags := rfl
@[simp] theorem State.modCam_sflags (s : State) (c : Nat) (f : CamSt → CamSt) : (s.modCam c f).sflags = s.sflags := rfl
@[simp] theorem State.modCam_sump (s : State) (c : Nat) (f : CamSt → CamSt) : (s.modCam c f).sump = s.sump := rfl
@[simp] theorem State.modCam_faultOut (s : State) (c : Nat) (f : CamSt → CamSt) : (s.modCam c f).faultOut = s.faultOut := rfl
@[simp] theorem State.modCam_takeOut (s : State) (c : Nat) (f : CamSt → CamSt) : (s.modCam c f).takeOut = s.takeOut := rfl
@[simp] theorem State.modCam_unrepairable (s : State) (c : Nat) (f : CamSt → CamSt) : (s.modCam c f).unrepairable = s.unrepairable := rfl
@[simp] theorem State.modCam_time (s : State) (c : Nat) (f : CamSt → CamSt) : (s.modCam c f).time = s.time := rfl
@[simp] theorem State.modCam_boot (s : State) (c : Nat) (f : CamSt → CamSt) : (s.modCam c f).boot = s.boot := rfl
@[simp] theorem State.modCam_power (s : State) (c : Nat) (f : CamSt → CamSt) : (s.modCam c f).power = s.power := rfl
@[simp] theorem State.modCam_faces (s : State) (c : Nat) (f : CamSt → CamSt) : (s.modCam c f).faces = s.faces := rfl
@[simp] theorem State.modCam_ctxs (s : State) (c : Nat) (f : CamSt → CamSt) : (s.modCam c f).ctxs = s.ctxs := rfl
@[simp] theorem State.modCam_runs (s : State) (c : Nat) (f : CamSt → CamSt) : (s.modCam c f).runs = s.runs := rfl
@[simp] theorem State.modCam_slotLast (s : State) (c : Nat) (f : CamSt → CamSt) : (s.modCam c f).slotLast = s.slotLast := rfl
@[simp] theorem State.modCam_parts (s : State) (c : Nat) (f : CamSt → CamSt) : (s.modCam c f).parts = s.parts := rfl
@[simp] theorem State.modCam_launches (s : State) (c : Nat) (f : CamSt → CamSt) : (s.modCam c f).launches = s.launches := rfl
@[simp] theorem State.modCam_windows (s : State) (c : Nat) (f : CamSt → CamSt) : (s.modCam c f).windows = s.windows := rfl
@[simp] theorem State.modCam_ctxCmd (s : State) (c : Nat) (f : CamSt → CamSt) : (s.modCam c f).ctxCmd = s.ctxCmd := rfl
@[simp] theorem State.modCam_batchReqs (s : State) (c : Nat) (f : CamSt → CamSt) : (s.modCam c f).batchReqs = s.batchReqs := rfl
@[simp] theorem State.modCam_members (s : State) (c : Nat) (f : CamSt → CamSt) : (s.modCam c f).members = s.members := rfl
@[simp] theorem State.modCam_hoists (s : State) (c : Nat) (f : CamSt → CamSt) : (s.modCam c f).hoists = s.hoists := rfl
@[simp] theorem State.modCam_bands (s : State) (c : Nat) (f : CamSt → CamSt) : (s.modCam c f).bands = s.bands := rfl
@[simp] theorem State.modCam_groups (s : State) (c : Nat) (f : CamSt → CamSt) : (s.modCam c f).groups = s.groups := rfl
@[simp] theorem State.modCam_sched (s : State) (c : Nat) (f : CamSt → CamSt) : (s.modCam c f).sched = s.sched := rfl
@[simp] theorem State.modCam_slotLoading (s : State) (c : Nat) (f : CamSt → CamSt) : (s.modCam c f).slotLoading = s.slotLoading := rfl
@[simp] theorem State.modCam_fwdPoses (s : State) (c : Nat) (f : CamSt → CamSt) : (s.modCam c f).fwdPoses = s.fwdPoses := rfl
@[simp] theorem State.modCam_adapt (s : State) (c : Nat) (f : CamSt → CamSt) : (s.modCam c f).adapt = s.adapt := rfl
@[simp] theorem State.modCam_lateSeen (s : State) (c : Nat) (f : CamSt → CamSt) : (s.modCam c f).lateSeen = s.lateSeen := rfl
@[simp] theorem State.modCam_red (s : State) (c : Nat) (f : CamSt → CamSt) : (s.modCam c f).red = s.red := rfl
@[simp] theorem State.modCam_redWait (s : State) (c : Nat) (f : CamSt → CamSt) : (s.modCam c f).redWait = s.redWait := rfl
@[simp] theorem State.modCam_doneWatch (s : State) (c : Nat) (f : CamSt → CamSt) : (s.modCam c f).doneWatch = s.doneWatch := rfl
@[simp] theorem State.modCam_heads (s : State) (c : Nat) (f : CamSt → CamSt) : (s.modCam c f).heads = s.heads := rfl
@[simp] theorem State.modCam_frameSum (s : State) (c : Nat) (f : CamSt → CamSt) : (s.modCam c f).frameSum = s.frameSum := rfl
@[simp] theorem State.modCam_recGap (s : State) (c : Nat) (f : CamSt → CamSt) : (s.modCam c f).recGap = s.recGap := rfl
@[simp] theorem State.modCam_trecSeq (s : State) (c : Nat) (f : CamSt → CamSt) : (s.modCam c f).trecSeq = s.trecSeq := rfl
@[simp] theorem State.modCam_haloGot (s : State) (c : Nat) (f : CamSt → CamSt) : (s.modCam c f).haloGot = s.haloGot := rfl
@[simp] theorem State.modCam_slots (s : State) (c : Nat) (f : CamSt → CamSt) : (s.modCam c f).slots = s.slots := rfl
@[simp] theorem State.modCam_slotDesc (s : State) (c : Nat) (f : CamSt → CamSt) : (s.modCam c f).slotDesc = s.slotDesc := rfl
@[simp] theorem State.modCam_xc (s : State) (c : Nat) (f : CamSt → CamSt) : (s.modCam c f).xc = s.xc := rfl
@[simp] theorem State.modCam_bcastLast (s : State) (c : Nat) (f : CamSt → CamSt) : (s.modCam c f).bcastLast = s.bcastLast := rfl
@[simp] theorem State.modCam_peerFault (s : State) (c : Nat) (f : CamSt → CamSt) : (s.modCam c f).peerFault = s.peerFault := rfl
@[simp] theorem State.modCam_takePend (s : State) (c : Nat) (f : CamSt → CamSt) : (s.modCam c f).takePend = s.takePend := rfl
@[simp] theorem State.modCam_sess (s : State) (c : Nat) (f : CamSt → CamSt) : (s.modCam c f).sess = s.sess := rfl
@[simp] theorem State.modCam_adits (s : State) (c : Nat) (f : CamSt → CamSt) : (s.modCam c f).adits = s.adits := rfl
@[simp] theorem State.modCam_rxq (s : State) (c : Nat) (f : CamSt → CamSt) : (s.modCam c f).rxq = s.rxq := rfl
@[simp] theorem State.modCam_cb (s : State) (c : Nat) (f : CamSt → CamSt) : (s.modCam c f).cb = s.cb := rfl
@[simp] theorem State.modCam_jobSeq (s : State) (c : Nat) (f : CamSt → CamSt) : (s.modCam c f).jobSeq = s.jobSeq := rfl
@[simp] theorem State.modCam_tilers (s : State) (c : Nat) (f : CamSt → CamSt) : (s.modCam c f).tilers = s.tilers := rfl
@[simp] theorem State.modCam_sorters (s : State) (c : Nat) (f : CamSt → CamSt) : (s.modCam c f).sorters = s.sorters := rfl
@[simp] theorem State.modCam_assay (s : State) (c : Nat) (f : CamSt → CamSt) : (s.modCam c f).assay = s.assay := rfl
@[simp] theorem State.modCam_mf (s : State) (c : Nat) (f : CamSt → CamSt) : (s.modCam c f).mf = s.mf := rfl
@[simp] theorem State.modCam_flows (s : State) (c : Nat) (f : CamSt → CamSt) : (s.modCam c f).flows = s.flows := rfl
@[simp] theorem State.modCam_spis (s : State) (c : Nat) (f : CamSt → CamSt) : (s.modCam c f).spis = s.spis := rfl
@[simp] theorem State.modCam_replayStop (s : State) (c : Nat) (f : CamSt → CamSt) : (s.modCam c f).replayStop = s.replayStop := rfl
@[simp] theorem State.modCam_out (s : State) (c : Nat) (f : CamSt → CamSt) : (s.modCam c f).out = s.out := rfl
@[simp] theorem State.modCam_free (s : State) (c : Nat) (f : CamSt → CamSt) : (s.modCam c f).free = s.free := rfl

/-! ### setTiler changes tilers -/
@[simp] theorem State.setTiler_pending (s : State) (c : Nat) (t : Tiler) : (s.setTiler c t).pending = s.pending := rfl
@[simp] theorem State.setTiler_regs (s : State) (c : Nat) (t : Tiler) : (s.setTiler c t).regs = s.regs := rfl
@[simp] theorem State.setTiler_held (s : State) (c : Nat) (t : Tiler) : (s.setTiler c t).held = s.held := rfl
@[simp] theorem State.setTiler_latch (s : State) (c : Nat) (t : Tiler) : (s.setTiler c t).latch = s.latch := rfl
@[simp] theorem State.setTiler_bus (s : State) (c : Nat) (t : Tiler) : (s.setTiler c t).bus = s.bus := rfl
@[simp] theorem State.setTiler_mem (s : State) (c : Nat) (t : Tiler) : (s.setTiler c t).mem = s.mem := rfl
@[simp] theorem State.setTiler_eccBad (s : State) (c : Nat) (t : Tiler) : (s.setTiler c t).eccBad = s.eccBad := rfl
@[simp] theorem State.setTiler_eccOne (s : State) (c : Nat) (t : Tiler) : (s.setTiler c t).eccOne = s.eccOne := rfl
@[simp] theorem State.setTiler_gflags (s : State) (c : Nat) (t : Tiler) : (s.setTiler c t).gflags = s.gflags := rfl
@[simp] theorem State.setTiler_sflags (s : State) (c : Nat) (t : Tiler) : (s.setTiler c t).sflags = s.sflags := rfl
@[simp] theorem State.setTiler_sump (s : State) (c : Nat) (t : Tiler) : (s.setTiler c t).sump = s.sump := rfl
@[simp] theorem State.setTiler_faultOut (s : State) (c : Nat) (t : Tiler) : (s.setTiler c t).faultOut = s.faultOut := rfl
@[simp] theorem State.setTiler_takeOut (s : State) (c : Nat) (t : Tiler) : (s.setTiler c t).takeOut = s.takeOut := rfl
@[simp] theorem State.setTiler_unrepairable (s : State) (c : Nat) (t : Tiler) : (s.setTiler c t).unrepairable = s.unrepairable := rfl
@[simp] theorem State.setTiler_time (s : State) (c : Nat) (t : Tiler) : (s.setTiler c t).time = s.time := rfl
@[simp] theorem State.setTiler_boot (s : State) (c : Nat) (t : Tiler) : (s.setTiler c t).boot = s.boot := rfl
@[simp] theorem State.setTiler_power (s : State) (c : Nat) (t : Tiler) : (s.setTiler c t).power = s.power := rfl
@[simp] theorem State.setTiler_faces (s : State) (c : Nat) (t : Tiler) : (s.setTiler c t).faces = s.faces := rfl
@[simp] theorem State.setTiler_ctxs (s : State) (c : Nat) (t : Tiler) : (s.setTiler c t).ctxs = s.ctxs := rfl
@[simp] theorem State.setTiler_runs (s : State) (c : Nat) (t : Tiler) : (s.setTiler c t).runs = s.runs := rfl
@[simp] theorem State.setTiler_slotLast (s : State) (c : Nat) (t : Tiler) : (s.setTiler c t).slotLast = s.slotLast := rfl
@[simp] theorem State.setTiler_parts (s : State) (c : Nat) (t : Tiler) : (s.setTiler c t).parts = s.parts := rfl
@[simp] theorem State.setTiler_launches (s : State) (c : Nat) (t : Tiler) : (s.setTiler c t).launches = s.launches := rfl
@[simp] theorem State.setTiler_windows (s : State) (c : Nat) (t : Tiler) : (s.setTiler c t).windows = s.windows := rfl
@[simp] theorem State.setTiler_ctxCmd (s : State) (c : Nat) (t : Tiler) : (s.setTiler c t).ctxCmd = s.ctxCmd := rfl
@[simp] theorem State.setTiler_batchReqs (s : State) (c : Nat) (t : Tiler) : (s.setTiler c t).batchReqs = s.batchReqs := rfl
@[simp] theorem State.setTiler_members (s : State) (c : Nat) (t : Tiler) : (s.setTiler c t).members = s.members := rfl
@[simp] theorem State.setTiler_hoists (s : State) (c : Nat) (t : Tiler) : (s.setTiler c t).hoists = s.hoists := rfl
@[simp] theorem State.setTiler_bands (s : State) (c : Nat) (t : Tiler) : (s.setTiler c t).bands = s.bands := rfl
@[simp] theorem State.setTiler_groups (s : State) (c : Nat) (t : Tiler) : (s.setTiler c t).groups = s.groups := rfl
@[simp] theorem State.setTiler_sched (s : State) (c : Nat) (t : Tiler) : (s.setTiler c t).sched = s.sched := rfl
@[simp] theorem State.setTiler_slotLoading (s : State) (c : Nat) (t : Tiler) : (s.setTiler c t).slotLoading = s.slotLoading := rfl
@[simp] theorem State.setTiler_fwdPoses (s : State) (c : Nat) (t : Tiler) : (s.setTiler c t).fwdPoses = s.fwdPoses := rfl
@[simp] theorem State.setTiler_adapt (s : State) (c : Nat) (t : Tiler) : (s.setTiler c t).adapt = s.adapt := rfl
@[simp] theorem State.setTiler_lateSeen (s : State) (c : Nat) (t : Tiler) : (s.setTiler c t).lateSeen = s.lateSeen := rfl
@[simp] theorem State.setTiler_red (s : State) (c : Nat) (t : Tiler) : (s.setTiler c t).red = s.red := rfl
@[simp] theorem State.setTiler_redWait (s : State) (c : Nat) (t : Tiler) : (s.setTiler c t).redWait = s.redWait := rfl
@[simp] theorem State.setTiler_doneWatch (s : State) (c : Nat) (t : Tiler) : (s.setTiler c t).doneWatch = s.doneWatch := rfl
@[simp] theorem State.setTiler_heads (s : State) (c : Nat) (t : Tiler) : (s.setTiler c t).heads = s.heads := rfl
@[simp] theorem State.setTiler_frameSum (s : State) (c : Nat) (t : Tiler) : (s.setTiler c t).frameSum = s.frameSum := rfl
@[simp] theorem State.setTiler_recGap (s : State) (c : Nat) (t : Tiler) : (s.setTiler c t).recGap = s.recGap := rfl
@[simp] theorem State.setTiler_trecSeq (s : State) (c : Nat) (t : Tiler) : (s.setTiler c t).trecSeq = s.trecSeq := rfl
@[simp] theorem State.setTiler_haloGot (s : State) (c : Nat) (t : Tiler) : (s.setTiler c t).haloGot = s.haloGot := rfl
@[simp] theorem State.setTiler_slots (s : State) (c : Nat) (t : Tiler) : (s.setTiler c t).slots = s.slots := rfl
@[simp] theorem State.setTiler_slotDesc (s : State) (c : Nat) (t : Tiler) : (s.setTiler c t).slotDesc = s.slotDesc := rfl
@[simp] theorem State.setTiler_xc (s : State) (c : Nat) (t : Tiler) : (s.setTiler c t).xc = s.xc := rfl
@[simp] theorem State.setTiler_bcastLast (s : State) (c : Nat) (t : Tiler) : (s.setTiler c t).bcastLast = s.bcastLast := rfl
@[simp] theorem State.setTiler_peerFault (s : State) (c : Nat) (t : Tiler) : (s.setTiler c t).peerFault = s.peerFault := rfl
@[simp] theorem State.setTiler_takePend (s : State) (c : Nat) (t : Tiler) : (s.setTiler c t).takePend = s.takePend := rfl
@[simp] theorem State.setTiler_sess (s : State) (c : Nat) (t : Tiler) : (s.setTiler c t).sess = s.sess := rfl
@[simp] theorem State.setTiler_adits (s : State) (c : Nat) (t : Tiler) : (s.setTiler c t).adits = s.adits := rfl
@[simp] theorem State.setTiler_rxq (s : State) (c : Nat) (t : Tiler) : (s.setTiler c t).rxq = s.rxq := rfl
@[simp] theorem State.setTiler_cb (s : State) (c : Nat) (t : Tiler) : (s.setTiler c t).cb = s.cb := rfl
@[simp] theorem State.setTiler_jobSeq (s : State) (c : Nat) (t : Tiler) : (s.setTiler c t).jobSeq = s.jobSeq := rfl
@[simp] theorem State.setTiler_sorters (s : State) (c : Nat) (t : Tiler) : (s.setTiler c t).sorters = s.sorters := rfl
@[simp] theorem State.setTiler_assay (s : State) (c : Nat) (t : Tiler) : (s.setTiler c t).assay = s.assay := rfl
@[simp] theorem State.setTiler_mf (s : State) (c : Nat) (t : Tiler) : (s.setTiler c t).mf = s.mf := rfl
@[simp] theorem State.setTiler_cams (s : State) (c : Nat) (t : Tiler) : (s.setTiler c t).cams = s.cams := rfl
@[simp] theorem State.setTiler_flows (s : State) (c : Nat) (t : Tiler) : (s.setTiler c t).flows = s.flows := rfl
@[simp] theorem State.setTiler_spis (s : State) (c : Nat) (t : Tiler) : (s.setTiler c t).spis = s.spis := rfl
@[simp] theorem State.setTiler_replayStop (s : State) (c : Nat) (t : Tiler) : (s.setTiler c t).replayStop = s.replayStop := rfl
@[simp] theorem State.setTiler_out (s : State) (c : Nat) (t : Tiler) : (s.setTiler c t).out = s.out := rfl
@[simp] theorem State.setTiler_free (s : State) (c : Nat) (t : Tiler) : (s.setTiler c t).free = s.free := rfl

/-! ### setSorter changes sorters -/
@[simp] theorem State.setSorter_pending (s : State) (c : Nat) (x : Sorter) : (s.setSorter c x).pending = s.pending := rfl
@[simp] theorem State.setSorter_regs (s : State) (c : Nat) (x : Sorter) : (s.setSorter c x).regs = s.regs := rfl
@[simp] theorem State.setSorter_held (s : State) (c : Nat) (x : Sorter) : (s.setSorter c x).held = s.held := rfl
@[simp] theorem State.setSorter_latch (s : State) (c : Nat) (x : Sorter) : (s.setSorter c x).latch = s.latch := rfl
@[simp] theorem State.setSorter_bus (s : State) (c : Nat) (x : Sorter) : (s.setSorter c x).bus = s.bus := rfl
@[simp] theorem State.setSorter_mem (s : State) (c : Nat) (x : Sorter) : (s.setSorter c x).mem = s.mem := rfl
@[simp] theorem State.setSorter_eccBad (s : State) (c : Nat) (x : Sorter) : (s.setSorter c x).eccBad = s.eccBad := rfl
@[simp] theorem State.setSorter_eccOne (s : State) (c : Nat) (x : Sorter) : (s.setSorter c x).eccOne = s.eccOne := rfl
@[simp] theorem State.setSorter_gflags (s : State) (c : Nat) (x : Sorter) : (s.setSorter c x).gflags = s.gflags := rfl
@[simp] theorem State.setSorter_sflags (s : State) (c : Nat) (x : Sorter) : (s.setSorter c x).sflags = s.sflags := rfl
@[simp] theorem State.setSorter_sump (s : State) (c : Nat) (x : Sorter) : (s.setSorter c x).sump = s.sump := rfl
@[simp] theorem State.setSorter_faultOut (s : State) (c : Nat) (x : Sorter) : (s.setSorter c x).faultOut = s.faultOut := rfl
@[simp] theorem State.setSorter_takeOut (s : State) (c : Nat) (x : Sorter) : (s.setSorter c x).takeOut = s.takeOut := rfl
@[simp] theorem State.setSorter_unrepairable (s : State) (c : Nat) (x : Sorter) : (s.setSorter c x).unrepairable = s.unrepairable := rfl
@[simp] theorem State.setSorter_time (s : State) (c : Nat) (x : Sorter) : (s.setSorter c x).time = s.time := rfl
@[simp] theorem State.setSorter_boot (s : State) (c : Nat) (x : Sorter) : (s.setSorter c x).boot = s.boot := rfl
@[simp] theorem State.setSorter_power (s : State) (c : Nat) (x : Sorter) : (s.setSorter c x).power = s.power := rfl
@[simp] theorem State.setSorter_faces (s : State) (c : Nat) (x : Sorter) : (s.setSorter c x).faces = s.faces := rfl
@[simp] theorem State.setSorter_ctxs (s : State) (c : Nat) (x : Sorter) : (s.setSorter c x).ctxs = s.ctxs := rfl
@[simp] theorem State.setSorter_runs (s : State) (c : Nat) (x : Sorter) : (s.setSorter c x).runs = s.runs := rfl
@[simp] theorem State.setSorter_slotLast (s : State) (c : Nat) (x : Sorter) : (s.setSorter c x).slotLast = s.slotLast := rfl
@[simp] theorem State.setSorter_parts (s : State) (c : Nat) (x : Sorter) : (s.setSorter c x).parts = s.parts := rfl
@[simp] theorem State.setSorter_launches (s : State) (c : Nat) (x : Sorter) : (s.setSorter c x).launches = s.launches := rfl
@[simp] theorem State.setSorter_windows (s : State) (c : Nat) (x : Sorter) : (s.setSorter c x).windows = s.windows := rfl
@[simp] theorem State.setSorter_ctxCmd (s : State) (c : Nat) (x : Sorter) : (s.setSorter c x).ctxCmd = s.ctxCmd := rfl
@[simp] theorem State.setSorter_batchReqs (s : State) (c : Nat) (x : Sorter) : (s.setSorter c x).batchReqs = s.batchReqs := rfl
@[simp] theorem State.setSorter_members (s : State) (c : Nat) (x : Sorter) : (s.setSorter c x).members = s.members := rfl
@[simp] theorem State.setSorter_hoists (s : State) (c : Nat) (x : Sorter) : (s.setSorter c x).hoists = s.hoists := rfl
@[simp] theorem State.setSorter_bands (s : State) (c : Nat) (x : Sorter) : (s.setSorter c x).bands = s.bands := rfl
@[simp] theorem State.setSorter_groups (s : State) (c : Nat) (x : Sorter) : (s.setSorter c x).groups = s.groups := rfl
@[simp] theorem State.setSorter_sched (s : State) (c : Nat) (x : Sorter) : (s.setSorter c x).sched = s.sched := rfl
@[simp] theorem State.setSorter_slotLoading (s : State) (c : Nat) (x : Sorter) : (s.setSorter c x).slotLoading = s.slotLoading := rfl
@[simp] theorem State.setSorter_fwdPoses (s : State) (c : Nat) (x : Sorter) : (s.setSorter c x).fwdPoses = s.fwdPoses := rfl
@[simp] theorem State.setSorter_adapt (s : State) (c : Nat) (x : Sorter) : (s.setSorter c x).adapt = s.adapt := rfl
@[simp] theorem State.setSorter_lateSeen (s : State) (c : Nat) (x : Sorter) : (s.setSorter c x).lateSeen = s.lateSeen := rfl
@[simp] theorem State.setSorter_red (s : State) (c : Nat) (x : Sorter) : (s.setSorter c x).red = s.red := rfl
@[simp] theorem State.setSorter_redWait (s : State) (c : Nat) (x : Sorter) : (s.setSorter c x).redWait = s.redWait := rfl
@[simp] theorem State.setSorter_doneWatch (s : State) (c : Nat) (x : Sorter) : (s.setSorter c x).doneWatch = s.doneWatch := rfl
@[simp] theorem State.setSorter_heads (s : State) (c : Nat) (x : Sorter) : (s.setSorter c x).heads = s.heads := rfl
@[simp] theorem State.setSorter_frameSum (s : State) (c : Nat) (x : Sorter) : (s.setSorter c x).frameSum = s.frameSum := rfl
@[simp] theorem State.setSorter_recGap (s : State) (c : Nat) (x : Sorter) : (s.setSorter c x).recGap = s.recGap := rfl
@[simp] theorem State.setSorter_trecSeq (s : State) (c : Nat) (x : Sorter) : (s.setSorter c x).trecSeq = s.trecSeq := rfl
@[simp] theorem State.setSorter_haloGot (s : State) (c : Nat) (x : Sorter) : (s.setSorter c x).haloGot = s.haloGot := rfl
@[simp] theorem State.setSorter_slots (s : State) (c : Nat) (x : Sorter) : (s.setSorter c x).slots = s.slots := rfl
@[simp] theorem State.setSorter_slotDesc (s : State) (c : Nat) (x : Sorter) : (s.setSorter c x).slotDesc = s.slotDesc := rfl
@[simp] theorem State.setSorter_xc (s : State) (c : Nat) (x : Sorter) : (s.setSorter c x).xc = s.xc := rfl
@[simp] theorem State.setSorter_bcastLast (s : State) (c : Nat) (x : Sorter) : (s.setSorter c x).bcastLast = s.bcastLast := rfl
@[simp] theorem State.setSorter_peerFault (s : State) (c : Nat) (x : Sorter) : (s.setSorter c x).peerFault = s.peerFault := rfl
@[simp] theorem State.setSorter_takePend (s : State) (c : Nat) (x : Sorter) : (s.setSorter c x).takePend = s.takePend := rfl
@[simp] theorem State.setSorter_sess (s : State) (c : Nat) (x : Sorter) : (s.setSorter c x).sess = s.sess := rfl
@[simp] theorem State.setSorter_adits (s : State) (c : Nat) (x : Sorter) : (s.setSorter c x).adits = s.adits := rfl
@[simp] theorem State.setSorter_rxq (s : State) (c : Nat) (x : Sorter) : (s.setSorter c x).rxq = s.rxq := rfl
@[simp] theorem State.setSorter_cb (s : State) (c : Nat) (x : Sorter) : (s.setSorter c x).cb = s.cb := rfl
@[simp] theorem State.setSorter_jobSeq (s : State) (c : Nat) (x : Sorter) : (s.setSorter c x).jobSeq = s.jobSeq := rfl
@[simp] theorem State.setSorter_tilers (s : State) (c : Nat) (x : Sorter) : (s.setSorter c x).tilers = s.tilers := rfl
@[simp] theorem State.setSorter_assay (s : State) (c : Nat) (x : Sorter) : (s.setSorter c x).assay = s.assay := rfl
@[simp] theorem State.setSorter_mf (s : State) (c : Nat) (x : Sorter) : (s.setSorter c x).mf = s.mf := rfl
@[simp] theorem State.setSorter_cams (s : State) (c : Nat) (x : Sorter) : (s.setSorter c x).cams = s.cams := rfl
@[simp] theorem State.setSorter_flows (s : State) (c : Nat) (x : Sorter) : (s.setSorter c x).flows = s.flows := rfl
@[simp] theorem State.setSorter_spis (s : State) (c : Nat) (x : Sorter) : (s.setSorter c x).spis = s.spis := rfl
@[simp] theorem State.setSorter_replayStop (s : State) (c : Nat) (x : Sorter) : (s.setSorter c x).replayStop = s.replayStop := rfl
@[simp] theorem State.setSorter_out (s : State) (c : Nat) (x : Sorter) : (s.setSorter c x).out = s.out := rfl
@[simp] theorem State.setSorter_free (s : State) (c : Nat) (x : Sorter) : (s.setSorter c x).free = s.free := rfl

/-! ### setClock changes time -/
@[simp] theorem State.setClock_pending (s : State) (c : Nat) (k : Clock) : (s.setClock c k).pending = s.pending := rfl
@[simp] theorem State.setClock_regs (s : State) (c : Nat) (k : Clock) : (s.setClock c k).regs = s.regs := rfl
@[simp] theorem State.setClock_held (s : State) (c : Nat) (k : Clock) : (s.setClock c k).held = s.held := rfl
@[simp] theorem State.setClock_latch (s : State) (c : Nat) (k : Clock) : (s.setClock c k).latch = s.latch := rfl
@[simp] theorem State.setClock_bus (s : State) (c : Nat) (k : Clock) : (s.setClock c k).bus = s.bus := rfl
@[simp] theorem State.setClock_mem (s : State) (c : Nat) (k : Clock) : (s.setClock c k).mem = s.mem := rfl
@[simp] theorem State.setClock_eccBad (s : State) (c : Nat) (k : Clock) : (s.setClock c k).eccBad = s.eccBad := rfl
@[simp] theorem State.setClock_eccOne (s : State) (c : Nat) (k : Clock) : (s.setClock c k).eccOne = s.eccOne := rfl
@[simp] theorem State.setClock_gflags (s : State) (c : Nat) (k : Clock) : (s.setClock c k).gflags = s.gflags := rfl
@[simp] theorem State.setClock_sflags (s : State) (c : Nat) (k : Clock) : (s.setClock c k).sflags = s.sflags := rfl
@[simp] theorem State.setClock_sump (s : State) (c : Nat) (k : Clock) : (s.setClock c k).sump = s.sump := rfl
@[simp] theorem State.setClock_faultOut (s : State) (c : Nat) (k : Clock) : (s.setClock c k).faultOut = s.faultOut := rfl
@[simp] theorem State.setClock_takeOut (s : State) (c : Nat) (k : Clock) : (s.setClock c k).takeOut = s.takeOut := rfl
@[simp] theorem State.setClock_unrepairable (s : State) (c : Nat) (k : Clock) : (s.setClock c k).unrepairable = s.unrepairable := rfl
@[simp] theorem State.setClock_boot (s : State) (c : Nat) (k : Clock) : (s.setClock c k).boot = s.boot := rfl
@[simp] theorem State.setClock_power (s : State) (c : Nat) (k : Clock) : (s.setClock c k).power = s.power := rfl
@[simp] theorem State.setClock_faces (s : State) (c : Nat) (k : Clock) : (s.setClock c k).faces = s.faces := rfl
@[simp] theorem State.setClock_ctxs (s : State) (c : Nat) (k : Clock) : (s.setClock c k).ctxs = s.ctxs := rfl
@[simp] theorem State.setClock_runs (s : State) (c : Nat) (k : Clock) : (s.setClock c k).runs = s.runs := rfl
@[simp] theorem State.setClock_slotLast (s : State) (c : Nat) (k : Clock) : (s.setClock c k).slotLast = s.slotLast := rfl
@[simp] theorem State.setClock_parts (s : State) (c : Nat) (k : Clock) : (s.setClock c k).parts = s.parts := rfl
@[simp] theorem State.setClock_launches (s : State) (c : Nat) (k : Clock) : (s.setClock c k).launches = s.launches := rfl
@[simp] theorem State.setClock_windows (s : State) (c : Nat) (k : Clock) : (s.setClock c k).windows = s.windows := rfl
@[simp] theorem State.setClock_ctxCmd (s : State) (c : Nat) (k : Clock) : (s.setClock c k).ctxCmd = s.ctxCmd := rfl
@[simp] theorem State.setClock_batchReqs (s : State) (c : Nat) (k : Clock) : (s.setClock c k).batchReqs = s.batchReqs := rfl
@[simp] theorem State.setClock_members (s : State) (c : Nat) (k : Clock) : (s.setClock c k).members = s.members := rfl
@[simp] theorem State.setClock_hoists (s : State) (c : Nat) (k : Clock) : (s.setClock c k).hoists = s.hoists := rfl
@[simp] theorem State.setClock_bands (s : State) (c : Nat) (k : Clock) : (s.setClock c k).bands = s.bands := rfl
@[simp] theorem State.setClock_groups (s : State) (c : Nat) (k : Clock) : (s.setClock c k).groups = s.groups := rfl
@[simp] theorem State.setClock_sched (s : State) (c : Nat) (k : Clock) : (s.setClock c k).sched = s.sched := rfl
@[simp] theorem State.setClock_slotLoading (s : State) (c : Nat) (k : Clock) : (s.setClock c k).slotLoading = s.slotLoading := rfl
@[simp] theorem State.setClock_fwdPoses (s : State) (c : Nat) (k : Clock) : (s.setClock c k).fwdPoses = s.fwdPoses := rfl
@[simp] theorem State.setClock_adapt (s : State) (c : Nat) (k : Clock) : (s.setClock c k).adapt = s.adapt := rfl
@[simp] theorem State.setClock_lateSeen (s : State) (c : Nat) (k : Clock) : (s.setClock c k).lateSeen = s.lateSeen := rfl
@[simp] theorem State.setClock_red (s : State) (c : Nat) (k : Clock) : (s.setClock c k).red = s.red := rfl
@[simp] theorem State.setClock_redWait (s : State) (c : Nat) (k : Clock) : (s.setClock c k).redWait = s.redWait := rfl
@[simp] theorem State.setClock_doneWatch (s : State) (c : Nat) (k : Clock) : (s.setClock c k).doneWatch = s.doneWatch := rfl
@[simp] theorem State.setClock_heads (s : State) (c : Nat) (k : Clock) : (s.setClock c k).heads = s.heads := rfl
@[simp] theorem State.setClock_frameSum (s : State) (c : Nat) (k : Clock) : (s.setClock c k).frameSum = s.frameSum := rfl
@[simp] theorem State.setClock_recGap (s : State) (c : Nat) (k : Clock) : (s.setClock c k).recGap = s.recGap := rfl
@[simp] theorem State.setClock_trecSeq (s : State) (c : Nat) (k : Clock) : (s.setClock c k).trecSeq = s.trecSeq := rfl
@[simp] theorem State.setClock_haloGot (s : State) (c : Nat) (k : Clock) : (s.setClock c k).haloGot = s.haloGot := rfl
@[simp] theorem State.setClock_slots (s : State) (c : Nat) (k : Clock) : (s.setClock c k).slots = s.slots := rfl
@[simp] theorem State.setClock_slotDesc (s : State) (c : Nat) (k : Clock) : (s.setClock c k).slotDesc = s.slotDesc := rfl
@[simp] theorem State.setClock_xc (s : State) (c : Nat) (k : Clock) : (s.setClock c k).xc = s.xc := rfl
@[simp] theorem State.setClock_bcastLast (s : State) (c : Nat) (k : Clock) : (s.setClock c k).bcastLast = s.bcastLast := rfl
@[simp] theorem State.setClock_peerFault (s : State) (c : Nat) (k : Clock) : (s.setClock c k).peerFault = s.peerFault := rfl
@[simp] theorem State.setClock_takePend (s : State) (c : Nat) (k : Clock) : (s.setClock c k).takePend = s.takePend := rfl
@[simp] theorem State.setClock_sess (s : State) (c : Nat) (k : Clock) : (s.setClock c k).sess = s.sess := rfl
@[simp] theorem State.setClock_adits (s : State) (c : Nat) (k : Clock) : (s.setClock c k).adits = s.adits := rfl
@[simp] theorem State.setClock_rxq (s : State) (c : Nat) (k : Clock) : (s.setClock c k).rxq = s.rxq := rfl
@[simp] theorem State.setClock_cb (s : State) (c : Nat) (k : Clock) : (s.setClock c k).cb = s.cb := rfl
@[simp] theorem State.setClock_jobSeq (s : State) (c : Nat) (k : Clock) : (s.setClock c k).jobSeq = s.jobSeq := rfl
@[simp] theorem State.setClock_tilers (s : State) (c : Nat) (k : Clock) : (s.setClock c k).tilers = s.tilers := rfl
@[simp] theorem State.setClock_sorters (s : State) (c : Nat) (k : Clock) : (s.setClock c k).sorters = s.sorters := rfl
@[simp] theorem State.setClock_assay (s : State) (c : Nat) (k : Clock) : (s.setClock c k).assay = s.assay := rfl
@[simp] theorem State.setClock_mf (s : State) (c : Nat) (k : Clock) : (s.setClock c k).mf = s.mf := rfl
@[simp] theorem State.setClock_cams (s : State) (c : Nat) (k : Clock) : (s.setClock c k).cams = s.cams := rfl
@[simp] theorem State.setClock_flows (s : State) (c : Nat) (k : Clock) : (s.setClock c k).flows = s.flows := rfl
@[simp] theorem State.setClock_spis (s : State) (c : Nat) (k : Clock) : (s.setClock c k).spis = s.spis := rfl
@[simp] theorem State.setClock_replayStop (s : State) (c : Nat) (k : Clock) : (s.setClock c k).replayStop = s.replayStop := rfl
@[simp] theorem State.setClock_out (s : State) (c : Nat) (k : Clock) : (s.setClock c k).out = s.out := rfl
@[simp] theorem State.setClock_free (s : State) (c : Nat) (k : Clock) : (s.setClock c k).free = s.free := rfl

/-! ### setTsQueue changes time -/
@[simp] theorem State.setTsQueue_pending (s : State) (k : Nat) (q : List TsEntry) : (s.setTsQueue k q).pending = s.pending := rfl
@[simp] theorem State.setTsQueue_regs (s : State) (k : Nat) (q : List TsEntry) : (s.setTsQueue k q).regs = s.regs := rfl
@[simp] theorem State.setTsQueue_held (s : State) (k : Nat) (q : List TsEntry) : (s.setTsQueue k q).held = s.held := rfl
@[simp] theorem State.setTsQueue_latch (s : State) (k : Nat) (q : List TsEntry) : (s.setTsQueue k q).latch = s.latch := rfl
@[simp] theorem State.setTsQueue_bus (s : State) (k : Nat) (q : List TsEntry) : (s.setTsQueue k q).bus = s.bus := rfl
@[simp] theorem State.setTsQueue_mem (s : State) (k : Nat) (q : List TsEntry) : (s.setTsQueue k q).mem = s.mem := rfl
@[simp] theorem State.setTsQueue_eccBad (s : State) (k : Nat) (q : List TsEntry) : (s.setTsQueue k q).eccBad = s.eccBad := rfl
@[simp] theorem State.setTsQueue_eccOne (s : State) (k : Nat) (q : List TsEntry) : (s.setTsQueue k q).eccOne = s.eccOne := rfl
@[simp] theorem State.setTsQueue_gflags (s : State) (k : Nat) (q : List TsEntry) : (s.setTsQueue k q).gflags = s.gflags := rfl
@[simp] theorem State.setTsQueue_sflags (s : State) (k : Nat) (q : List TsEntry) : (s.setTsQueue k q).sflags = s.sflags := rfl
@[simp] theorem State.setTsQueue_sump (s : State) (k : Nat) (q : List TsEntry) : (s.setTsQueue k q).sump = s.sump := rfl
@[simp] theorem State.setTsQueue_faultOut (s : State) (k : Nat) (q : List TsEntry) : (s.setTsQueue k q).faultOut = s.faultOut := rfl
@[simp] theorem State.setTsQueue_takeOut (s : State) (k : Nat) (q : List TsEntry) : (s.setTsQueue k q).takeOut = s.takeOut := rfl
@[simp] theorem State.setTsQueue_unrepairable (s : State) (k : Nat) (q : List TsEntry) : (s.setTsQueue k q).unrepairable = s.unrepairable := rfl
@[simp] theorem State.setTsQueue_boot (s : State) (k : Nat) (q : List TsEntry) : (s.setTsQueue k q).boot = s.boot := rfl
@[simp] theorem State.setTsQueue_power (s : State) (k : Nat) (q : List TsEntry) : (s.setTsQueue k q).power = s.power := rfl
@[simp] theorem State.setTsQueue_faces (s : State) (k : Nat) (q : List TsEntry) : (s.setTsQueue k q).faces = s.faces := rfl
@[simp] theorem State.setTsQueue_ctxs (s : State) (k : Nat) (q : List TsEntry) : (s.setTsQueue k q).ctxs = s.ctxs := rfl
@[simp] theorem State.setTsQueue_runs (s : State) (k : Nat) (q : List TsEntry) : (s.setTsQueue k q).runs = s.runs := rfl
@[simp] theorem State.setTsQueue_slotLast (s : State) (k : Nat) (q : List TsEntry) : (s.setTsQueue k q).slotLast = s.slotLast := rfl
@[simp] theorem State.setTsQueue_parts (s : State) (k : Nat) (q : List TsEntry) : (s.setTsQueue k q).parts = s.parts := rfl
@[simp] theorem State.setTsQueue_launches (s : State) (k : Nat) (q : List TsEntry) : (s.setTsQueue k q).launches = s.launches := rfl
@[simp] theorem State.setTsQueue_windows (s : State) (k : Nat) (q : List TsEntry) : (s.setTsQueue k q).windows = s.windows := rfl
@[simp] theorem State.setTsQueue_ctxCmd (s : State) (k : Nat) (q : List TsEntry) : (s.setTsQueue k q).ctxCmd = s.ctxCmd := rfl
@[simp] theorem State.setTsQueue_batchReqs (s : State) (k : Nat) (q : List TsEntry) : (s.setTsQueue k q).batchReqs = s.batchReqs := rfl
@[simp] theorem State.setTsQueue_members (s : State) (k : Nat) (q : List TsEntry) : (s.setTsQueue k q).members = s.members := rfl
@[simp] theorem State.setTsQueue_hoists (s : State) (k : Nat) (q : List TsEntry) : (s.setTsQueue k q).hoists = s.hoists := rfl
@[simp] theorem State.setTsQueue_bands (s : State) (k : Nat) (q : List TsEntry) : (s.setTsQueue k q).bands = s.bands := rfl
@[simp] theorem State.setTsQueue_groups (s : State) (k : Nat) (q : List TsEntry) : (s.setTsQueue k q).groups = s.groups := rfl
@[simp] theorem State.setTsQueue_sched (s : State) (k : Nat) (q : List TsEntry) : (s.setTsQueue k q).sched = s.sched := rfl
@[simp] theorem State.setTsQueue_slotLoading (s : State) (k : Nat) (q : List TsEntry) : (s.setTsQueue k q).slotLoading = s.slotLoading := rfl
@[simp] theorem State.setTsQueue_fwdPoses (s : State) (k : Nat) (q : List TsEntry) : (s.setTsQueue k q).fwdPoses = s.fwdPoses := rfl
@[simp] theorem State.setTsQueue_adapt (s : State) (k : Nat) (q : List TsEntry) : (s.setTsQueue k q).adapt = s.adapt := rfl
@[simp] theorem State.setTsQueue_lateSeen (s : State) (k : Nat) (q : List TsEntry) : (s.setTsQueue k q).lateSeen = s.lateSeen := rfl
@[simp] theorem State.setTsQueue_red (s : State) (k : Nat) (q : List TsEntry) : (s.setTsQueue k q).red = s.red := rfl
@[simp] theorem State.setTsQueue_redWait (s : State) (k : Nat) (q : List TsEntry) : (s.setTsQueue k q).redWait = s.redWait := rfl
@[simp] theorem State.setTsQueue_doneWatch (s : State) (k : Nat) (q : List TsEntry) : (s.setTsQueue k q).doneWatch = s.doneWatch := rfl
@[simp] theorem State.setTsQueue_heads (s : State) (k : Nat) (q : List TsEntry) : (s.setTsQueue k q).heads = s.heads := rfl
@[simp] theorem State.setTsQueue_frameSum (s : State) (k : Nat) (q : List TsEntry) : (s.setTsQueue k q).frameSum = s.frameSum := rfl
@[simp] theorem State.setTsQueue_recGap (s : State) (k : Nat) (q : List TsEntry) : (s.setTsQueue k q).recGap = s.recGap := rfl
@[simp] theorem State.setTsQueue_trecSeq (s : State) (k : Nat) (q : List TsEntry) : (s.setTsQueue k q).trecSeq = s.trecSeq := rfl
@[simp] theorem State.setTsQueue_haloGot (s : State) (k : Nat) (q : List TsEntry) : (s.setTsQueue k q).haloGot = s.haloGot := rfl
@[simp] theorem State.setTsQueue_slots (s : State) (k : Nat) (q : List TsEntry) : (s.setTsQueue k q).slots = s.slots := rfl
@[simp] theorem State.setTsQueue_slotDesc (s : State) (k : Nat) (q : List TsEntry) : (s.setTsQueue k q).slotDesc = s.slotDesc := rfl
@[simp] theorem State.setTsQueue_xc (s : State) (k : Nat) (q : List TsEntry) : (s.setTsQueue k q).xc = s.xc := rfl
@[simp] theorem State.setTsQueue_bcastLast (s : State) (k : Nat) (q : List TsEntry) : (s.setTsQueue k q).bcastLast = s.bcastLast := rfl
@[simp] theorem State.setTsQueue_peerFault (s : State) (k : Nat) (q : List TsEntry) : (s.setTsQueue k q).peerFault = s.peerFault := rfl
@[simp] theorem State.setTsQueue_takePend (s : State) (k : Nat) (q : List TsEntry) : (s.setTsQueue k q).takePend = s.takePend := rfl
@[simp] theorem State.setTsQueue_sess (s : State) (k : Nat) (q : List TsEntry) : (s.setTsQueue k q).sess = s.sess := rfl
@[simp] theorem State.setTsQueue_adits (s : State) (k : Nat) (q : List TsEntry) : (s.setTsQueue k q).adits = s.adits := rfl
@[simp] theorem State.setTsQueue_rxq (s : State) (k : Nat) (q : List TsEntry) : (s.setTsQueue k q).rxq = s.rxq := rfl
@[simp] theorem State.setTsQueue_cb (s : State) (k : Nat) (q : List TsEntry) : (s.setTsQueue k q).cb = s.cb := rfl
@[simp] theorem State.setTsQueue_jobSeq (s : State) (k : Nat) (q : List TsEntry) : (s.setTsQueue k q).jobSeq = s.jobSeq := rfl
@[simp] theorem State.setTsQueue_tilers (s : State) (k : Nat) (q : List TsEntry) : (s.setTsQueue k q).tilers = s.tilers := rfl
@[simp] theorem State.setTsQueue_sorters (s : State) (k : Nat) (q : List TsEntry) : (s.setTsQueue k q).sorters = s.sorters := rfl
@[simp] theorem State.setTsQueue_assay (s : State) (k : Nat) (q : List TsEntry) : (s.setTsQueue k q).assay = s.assay := rfl
@[simp] theorem State.setTsQueue_mf (s : State) (k : Nat) (q : List TsEntry) : (s.setTsQueue k q).mf = s.mf := rfl
@[simp] theorem State.setTsQueue_cams (s : State) (k : Nat) (q : List TsEntry) : (s.setTsQueue k q).cams = s.cams := rfl
@[simp] theorem State.setTsQueue_flows (s : State) (k : Nat) (q : List TsEntry) : (s.setTsQueue k q).flows = s.flows := rfl
@[simp] theorem State.setTsQueue_spis (s : State) (k : Nat) (q : List TsEntry) : (s.setTsQueue k q).spis = s.spis := rfl
@[simp] theorem State.setTsQueue_replayStop (s : State) (k : Nat) (q : List TsEntry) : (s.setTsQueue k q).replayStop = s.replayStop := rfl
@[simp] theorem State.setTsQueue_out (s : State) (k : Nat) (q : List TsEntry) : (s.setTsQueue k q).out = s.out := rfl
@[simp] theorem State.setTsQueue_free (s : State) (k : Nat) (q : List TsEntry) : (s.setTsQueue k q).free = s.free := rfl

/-! ### modNet changes boot -/
@[simp] theorem State.modNet_pending (s : State) (f : NetBoot → NetBoot) : (s.modNet f).pending = s.pending := rfl
@[simp] theorem State.modNet_regs (s : State) (f : NetBoot → NetBoot) : (s.modNet f).regs = s.regs := rfl
@[simp] theorem State.modNet_held (s : State) (f : NetBoot → NetBoot) : (s.modNet f).held = s.held := rfl
@[simp] theorem State.modNet_latch (s : State) (f : NetBoot → NetBoot) : (s.modNet f).latch = s.latch := rfl
@[simp] theorem State.modNet_bus (s : State) (f : NetBoot → NetBoot) : (s.modNet f).bus = s.bus := rfl
@[simp] theorem State.modNet_mem (s : State) (f : NetBoot → NetBoot) : (s.modNet f).mem = s.mem := rfl
@[simp] theorem State.modNet_eccBad (s : State) (f : NetBoot → NetBoot) : (s.modNet f).eccBad = s.eccBad := rfl
@[simp] theorem State.modNet_eccOne (s : State) (f : NetBoot → NetBoot) : (s.modNet f).eccOne = s.eccOne := rfl
@[simp] theorem State.modNet_gflags (s : State) (f : NetBoot → NetBoot) : (s.modNet f).gflags = s.gflags := rfl
@[simp] theorem State.modNet_sflags (s : State) (f : NetBoot → NetBoot) : (s.modNet f).sflags = s.sflags := rfl
@[simp] theorem State.modNet_sump (s : State) (f : NetBoot → NetBoot) : (s.modNet f).sump = s.sump := rfl
@[simp] theorem State.modNet_faultOut (s : State) (f : NetBoot → NetBoot) : (s.modNet f).faultOut = s.faultOut := rfl
@[simp] theorem State.modNet_takeOut (s : State) (f : NetBoot → NetBoot) : (s.modNet f).takeOut = s.takeOut := rfl
@[simp] theorem State.modNet_unrepairable (s : State) (f : NetBoot → NetBoot) : (s.modNet f).unrepairable = s.unrepairable := rfl
@[simp] theorem State.modNet_time (s : State) (f : NetBoot → NetBoot) : (s.modNet f).time = s.time := rfl
@[simp] theorem State.modNet_power (s : State) (f : NetBoot → NetBoot) : (s.modNet f).power = s.power := rfl
@[simp] theorem State.modNet_faces (s : State) (f : NetBoot → NetBoot) : (s.modNet f).faces = s.faces := rfl
@[simp] theorem State.modNet_ctxs (s : State) (f : NetBoot → NetBoot) : (s.modNet f).ctxs = s.ctxs := rfl
@[simp] theorem State.modNet_runs (s : State) (f : NetBoot → NetBoot) : (s.modNet f).runs = s.runs := rfl
@[simp] theorem State.modNet_slotLast (s : State) (f : NetBoot → NetBoot) : (s.modNet f).slotLast = s.slotLast := rfl
@[simp] theorem State.modNet_parts (s : State) (f : NetBoot → NetBoot) : (s.modNet f).parts = s.parts := rfl
@[simp] theorem State.modNet_launches (s : State) (f : NetBoot → NetBoot) : (s.modNet f).launches = s.launches := rfl
@[simp] theorem State.modNet_windows (s : State) (f : NetBoot → NetBoot) : (s.modNet f).windows = s.windows := rfl
@[simp] theorem State.modNet_ctxCmd (s : State) (f : NetBoot → NetBoot) : (s.modNet f).ctxCmd = s.ctxCmd := rfl
@[simp] theorem State.modNet_batchReqs (s : State) (f : NetBoot → NetBoot) : (s.modNet f).batchReqs = s.batchReqs := rfl
@[simp] theorem State.modNet_members (s : State) (f : NetBoot → NetBoot) : (s.modNet f).members = s.members := rfl
@[simp] theorem State.modNet_hoists (s : State) (f : NetBoot → NetBoot) : (s.modNet f).hoists = s.hoists := rfl
@[simp] theorem State.modNet_bands (s : State) (f : NetBoot → NetBoot) : (s.modNet f).bands = s.bands := rfl
@[simp] theorem State.modNet_groups (s : State) (f : NetBoot → NetBoot) : (s.modNet f).groups = s.groups := rfl
@[simp] theorem State.modNet_sched (s : State) (f : NetBoot → NetBoot) : (s.modNet f).sched = s.sched := rfl
@[simp] theorem State.modNet_slotLoading (s : State) (f : NetBoot → NetBoot) : (s.modNet f).slotLoading = s.slotLoading := rfl
@[simp] theorem State.modNet_fwdPoses (s : State) (f : NetBoot → NetBoot) : (s.modNet f).fwdPoses = s.fwdPoses := rfl
@[simp] theorem State.modNet_adapt (s : State) (f : NetBoot → NetBoot) : (s.modNet f).adapt = s.adapt := rfl
@[simp] theorem State.modNet_lateSeen (s : State) (f : NetBoot → NetBoot) : (s.modNet f).lateSeen = s.lateSeen := rfl
@[simp] theorem State.modNet_red (s : State) (f : NetBoot → NetBoot) : (s.modNet f).red = s.red := rfl
@[simp] theorem State.modNet_redWait (s : State) (f : NetBoot → NetBoot) : (s.modNet f).redWait = s.redWait := rfl
@[simp] theorem State.modNet_doneWatch (s : State) (f : NetBoot → NetBoot) : (s.modNet f).doneWatch = s.doneWatch := rfl
@[simp] theorem State.modNet_heads (s : State) (f : NetBoot → NetBoot) : (s.modNet f).heads = s.heads := rfl
@[simp] theorem State.modNet_frameSum (s : State) (f : NetBoot → NetBoot) : (s.modNet f).frameSum = s.frameSum := rfl
@[simp] theorem State.modNet_recGap (s : State) (f : NetBoot → NetBoot) : (s.modNet f).recGap = s.recGap := rfl
@[simp] theorem State.modNet_trecSeq (s : State) (f : NetBoot → NetBoot) : (s.modNet f).trecSeq = s.trecSeq := rfl
@[simp] theorem State.modNet_haloGot (s : State) (f : NetBoot → NetBoot) : (s.modNet f).haloGot = s.haloGot := rfl
@[simp] theorem State.modNet_slots (s : State) (f : NetBoot → NetBoot) : (s.modNet f).slots = s.slots := rfl
@[simp] theorem State.modNet_slotDesc (s : State) (f : NetBoot → NetBoot) : (s.modNet f).slotDesc = s.slotDesc := rfl
@[simp] theorem State.modNet_xc (s : State) (f : NetBoot → NetBoot) : (s.modNet f).xc = s.xc := rfl
@[simp] theorem State.modNet_bcastLast (s : State) (f : NetBoot → NetBoot) : (s.modNet f).bcastLast = s.bcastLast := rfl
@[simp] theorem State.modNet_peerFault (s : State) (f : NetBoot → NetBoot) : (s.modNet f).peerFault = s.peerFault := rfl
@[simp] theorem State.modNet_takePend (s : State) (f : NetBoot → NetBoot) : (s.modNet f).takePend = s.takePend := rfl
@[simp] theorem State.modNet_sess (s : State) (f : NetBoot → NetBoot) : (s.modNet f).sess = s.sess := rfl
@[simp] theorem State.modNet_adits (s : State) (f : NetBoot → NetBoot) : (s.modNet f).adits = s.adits := rfl
@[simp] theorem State.modNet_rxq (s : State) (f : NetBoot → NetBoot) : (s.modNet f).rxq = s.rxq := rfl
@[simp] theorem State.modNet_cb (s : State) (f : NetBoot → NetBoot) : (s.modNet f).cb = s.cb := rfl
@[simp] theorem State.modNet_jobSeq (s : State) (f : NetBoot → NetBoot) : (s.modNet f).jobSeq = s.jobSeq := rfl
@[simp] theorem State.modNet_tilers (s : State) (f : NetBoot → NetBoot) : (s.modNet f).tilers = s.tilers := rfl
@[simp] theorem State.modNet_sorters (s : State) (f : NetBoot → NetBoot) : (s.modNet f).sorters = s.sorters := rfl
@[simp] theorem State.modNet_assay (s : State) (f : NetBoot → NetBoot) : (s.modNet f).assay = s.assay := rfl
@[simp] theorem State.modNet_mf (s : State) (f : NetBoot → NetBoot) : (s.modNet f).mf = s.mf := rfl
@[simp] theorem State.modNet_cams (s : State) (f : NetBoot → NetBoot) : (s.modNet f).cams = s.cams := rfl
@[simp] theorem State.modNet_flows (s : State) (f : NetBoot → NetBoot) : (s.modNet f).flows = s.flows := rfl
@[simp] theorem State.modNet_spis (s : State) (f : NetBoot → NetBoot) : (s.modNet f).spis = s.spis := rfl
@[simp] theorem State.modNet_replayStop (s : State) (f : NetBoot → NetBoot) : (s.modNet f).replayStop = s.replayStop := rfl
@[simp] theorem State.modNet_out (s : State) (f : NetBoot → NetBoot) : (s.modNet f).out = s.out := rfl
@[simp] theorem State.modNet_free (s : State) (f : NetBoot → NetBoot) : (s.modNet f).free = s.free := rfl

/-! ### sumAdd changes frameSum -/
@[simp] theorem State.sumAdd_pending (s : State) (k n : Nat) : (s.sumAdd k n).pending = s.pending := rfl
@[simp] theorem State.sumAdd_regs (s : State) (k n : Nat) : (s.sumAdd k n).regs = s.regs := rfl
@[simp] theorem State.sumAdd_held (s : State) (k n : Nat) : (s.sumAdd k n).held = s.held := rfl
@[simp] theorem State.sumAdd_latch (s : State) (k n : Nat) : (s.sumAdd k n).latch = s.latch := rfl
@[simp] theorem State.sumAdd_bus (s : State) (k n : Nat) : (s.sumAdd k n).bus = s.bus := rfl
@[simp] theorem State.sumAdd_mem (s : State) (k n : Nat) : (s.sumAdd k n).mem = s.mem := rfl
@[simp] theorem State.sumAdd_eccBad (s : State) (k n : Nat) : (s.sumAdd k n).eccBad = s.eccBad := rfl
@[simp] theorem State.sumAdd_eccOne (s : State) (k n : Nat) : (s.sumAdd k n).eccOne = s.eccOne := rfl
@[simp] theorem State.sumAdd_gflags (s : State) (k n : Nat) : (s.sumAdd k n).gflags = s.gflags := rfl
@[simp] theorem State.sumAdd_sflags (s : State) (k n : Nat) : (s.sumAdd k n).sflags = s.sflags := rfl
@[simp] theorem State.sumAdd_sump (s : State) (k n : Nat) : (s.sumAdd k n).sump = s.sump := rfl
@[simp] theorem State.sumAdd_faultOut (s : State) (k n : Nat) : (s.sumAdd k n).faultOut = s.faultOut := rfl
@[simp] theorem State.sumAdd_takeOut (s : State) (k n : Nat) : (s.sumAdd k n).takeOut = s.takeOut := rfl
@[simp] theorem State.sumAdd_unrepairable (s : State) (k n : Nat) : (s.sumAdd k n).unrepairable = s.unrepairable := rfl
@[simp] theorem State.sumAdd_time (s : State) (k n : Nat) : (s.sumAdd k n).time = s.time := rfl
@[simp] theorem State.sumAdd_boot (s : State) (k n : Nat) : (s.sumAdd k n).boot = s.boot := rfl
@[simp] theorem State.sumAdd_power (s : State) (k n : Nat) : (s.sumAdd k n).power = s.power := rfl
@[simp] theorem State.sumAdd_faces (s : State) (k n : Nat) : (s.sumAdd k n).faces = s.faces := rfl
@[simp] theorem State.sumAdd_ctxs (s : State) (k n : Nat) : (s.sumAdd k n).ctxs = s.ctxs := rfl
@[simp] theorem State.sumAdd_runs (s : State) (k n : Nat) : (s.sumAdd k n).runs = s.runs := rfl
@[simp] theorem State.sumAdd_slotLast (s : State) (k n : Nat) : (s.sumAdd k n).slotLast = s.slotLast := rfl
@[simp] theorem State.sumAdd_parts (s : State) (k n : Nat) : (s.sumAdd k n).parts = s.parts := rfl
@[simp] theorem State.sumAdd_launches (s : State) (k n : Nat) : (s.sumAdd k n).launches = s.launches := rfl
@[simp] theorem State.sumAdd_windows (s : State) (k n : Nat) : (s.sumAdd k n).windows = s.windows := rfl
@[simp] theorem State.sumAdd_ctxCmd (s : State) (k n : Nat) : (s.sumAdd k n).ctxCmd = s.ctxCmd := rfl
@[simp] theorem State.sumAdd_batchReqs (s : State) (k n : Nat) : (s.sumAdd k n).batchReqs = s.batchReqs := rfl
@[simp] theorem State.sumAdd_members (s : State) (k n : Nat) : (s.sumAdd k n).members = s.members := rfl
@[simp] theorem State.sumAdd_hoists (s : State) (k n : Nat) : (s.sumAdd k n).hoists = s.hoists := rfl
@[simp] theorem State.sumAdd_bands (s : State) (k n : Nat) : (s.sumAdd k n).bands = s.bands := rfl
@[simp] theorem State.sumAdd_groups (s : State) (k n : Nat) : (s.sumAdd k n).groups = s.groups := rfl
@[simp] theorem State.sumAdd_sched (s : State) (k n : Nat) : (s.sumAdd k n).sched = s.sched := rfl
@[simp] theorem State.sumAdd_slotLoading (s : State) (k n : Nat) : (s.sumAdd k n).slotLoading = s.slotLoading := rfl
@[simp] theorem State.sumAdd_fwdPoses (s : State) (k n : Nat) : (s.sumAdd k n).fwdPoses = s.fwdPoses := rfl
@[simp] theorem State.sumAdd_adapt (s : State) (k n : Nat) : (s.sumAdd k n).adapt = s.adapt := rfl
@[simp] theorem State.sumAdd_lateSeen (s : State) (k n : Nat) : (s.sumAdd k n).lateSeen = s.lateSeen := rfl
@[simp] theorem State.sumAdd_red (s : State) (k n : Nat) : (s.sumAdd k n).red = s.red := rfl
@[simp] theorem State.sumAdd_redWait (s : State) (k n : Nat) : (s.sumAdd k n).redWait = s.redWait := rfl
@[simp] theorem State.sumAdd_doneWatch (s : State) (k n : Nat) : (s.sumAdd k n).doneWatch = s.doneWatch := rfl
@[simp] theorem State.sumAdd_heads (s : State) (k n : Nat) : (s.sumAdd k n).heads = s.heads := rfl
@[simp] theorem State.sumAdd_recGap (s : State) (k n : Nat) : (s.sumAdd k n).recGap = s.recGap := rfl
@[simp] theorem State.sumAdd_trecSeq (s : State) (k n : Nat) : (s.sumAdd k n).trecSeq = s.trecSeq := rfl
@[simp] theorem State.sumAdd_haloGot (s : State) (k n : Nat) : (s.sumAdd k n).haloGot = s.haloGot := rfl
@[simp] theorem State.sumAdd_slots (s : State) (k n : Nat) : (s.sumAdd k n).slots = s.slots := rfl
@[simp] theorem State.sumAdd_slotDesc (s : State) (k n : Nat) : (s.sumAdd k n).slotDesc = s.slotDesc := rfl
@[simp] theorem State.sumAdd_xc (s : State) (k n : Nat) : (s.sumAdd k n).xc = s.xc := rfl
@[simp] theorem State.sumAdd_bcastLast (s : State) (k n : Nat) : (s.sumAdd k n).bcastLast = s.bcastLast := rfl
@[simp] theorem State.sumAdd_peerFault (s : State) (k n : Nat) : (s.sumAdd k n).peerFault = s.peerFault := rfl
@[simp] theorem State.sumAdd_takePend (s : State) (k n : Nat) : (s.sumAdd k n).takePend = s.takePend := rfl
@[simp] theorem State.sumAdd_sess (s : State) (k n : Nat) : (s.sumAdd k n).sess = s.sess := rfl
@[simp] theorem State.sumAdd_adits (s : State) (k n : Nat) : (s.sumAdd k n).adits = s.adits := rfl
@[simp] theorem State.sumAdd_rxq (s : State) (k n : Nat) : (s.sumAdd k n).rxq = s.rxq := rfl
@[simp] theorem State.sumAdd_cb (s : State) (k n : Nat) : (s.sumAdd k n).cb = s.cb := rfl
@[simp] theorem State.sumAdd_jobSeq (s : State) (k n : Nat) : (s.sumAdd k n).jobSeq = s.jobSeq := rfl
@[simp] theorem State.sumAdd_tilers (s : State) (k n : Nat) : (s.sumAdd k n).tilers = s.tilers := rfl
@[simp] theorem State.sumAdd_sorters (s : State) (k n : Nat) : (s.sumAdd k n).sorters = s.sorters := rfl
@[simp] theorem State.sumAdd_assay (s : State) (k n : Nat) : (s.sumAdd k n).assay = s.assay := rfl
@[simp] theorem State.sumAdd_mf (s : State) (k n : Nat) : (s.sumAdd k n).mf = s.mf := rfl
@[simp] theorem State.sumAdd_cams (s : State) (k n : Nat) : (s.sumAdd k n).cams = s.cams := rfl
@[simp] theorem State.sumAdd_flows (s : State) (k n : Nat) : (s.sumAdd k n).flows = s.flows := rfl
@[simp] theorem State.sumAdd_spis (s : State) (k n : Nat) : (s.sumAdd k n).spis = s.spis := rfl
@[simp] theorem State.sumAdd_replayStop (s : State) (k n : Nat) : (s.sumAdd k n).replayStop = s.replayStop := rfl
@[simp] theorem State.sumAdd_out (s : State) (k n : Nat) : (s.sumAdd k n).out = s.out := rfl
@[simp] theorem State.sumAdd_free (s : State) (k n : Nat) : (s.sumAdd k n).free = s.free := rfl

end Sys2Proof.Machine
end

