-- ==== Sys2Proof/Laws/Ops.lean ====
section
/-! SUPPORT. What each shared operation can do, said once: registers read after a write, tallies, interrupts, faults and
bus errors change registers and the sump only, an access runs its action or ends in a bus error, and writing memory keeps
its canonical form. -/
namespace Sys2Proof.Machine

/-! ### Registers -/

@[simp] theorem State.rd_wr_self (s : State) (p o v : Nat) : (s.wr p o v).rd p o = v % 2 ^ 32 := by
  simp [State.wr, State.rd]

theorem State.rd_wr_ne (s : State) (p o p' o' v : Nat) (h : regKey p' o' ≠ regKey p o) : (s.wr p o v).rd p' o' = s.rd p' o' := by
  simp [State.wr, State.rd, NMap.get_put_ne _ _ _ h]

theorem State.rd_congr (s t : State) (h : t.regs = s.regs) (p o : Nat) : t.rd p o = s.rd p o := by simp [State.rd, h]

@[simp] theorem State.rd_reply (s : State) (v p o : Nat) : (s.reply v).rd p o = s.rd p o := rfl
@[simp] theorem State.rf_reply (s : State) (v p o hi lo : Nat) : (s.reply v).rf p o hi lo = s.rf p o hi lo := rfl
@[simp] theorem State.rb_reply (s : State) (v p o b : Nat) : (s.reply v).rb p o b = s.rb p o b := rfl
@[simp] theorem State.en_reply (s : State) (v p : Nat) : (s.reply v).en p = s.en p := rfl
@[simp] theorem State.reply_bus (s : State) (v : Nat) : (s.reply v).bus = ⟨0, BitVec.ofNat 32 v⟩ := rfl

/-- A write of one register changes that register. -/
theorem State.wr_frame (s : State) (p o v : Nat) : regsKept s (s.wr p o v) [regKey p o] ∧ { s.wr p o v with regs := s.regs } = s :=
  ⟨fun p' o' h => State.rd_wr_ne s p o p' o' v (by simpa using h), rfl⟩

theorem State.rd_lt (s : State) (p o : Nat) : s.rd p o < 2 ^ 32 := BitVec.isLt _

/-! ### Only registers change -/

/-- An operation that changes nothing but registers. -/
def regsOnly (s t : State) : Prop := { t with regs := s.regs } = s

theorem regsOnly_refl (s : State) : regsOnly s s := rfl

theorem regsOnly_trans {s t u : State} (h : regsOnly s t) (k : regsOnly t u) : regsOnly s u := by
  have e : { u with regs := s.regs } = { { u with regs := t.regs } with regs := s.regs } := rfl
  unfold regsOnly at *
  rw [e, k, h]

theorem regsOnly_wr (s : State) (p o v : Nat) : regsOnly s (s.wr p o v) := rfl
theorem regsOnly_wr64 (s : State) (p o v : Nat) : regsOnly s (s.wr64 p o v) := rfl
theorem regsOnly_wf (s : State) (p o hi lo v : Nat) : regsOnly s (s.wf p o hi lo v) := rfl
theorem regsOnly_wb (s : State) (p o b : Nat) (v : Bool) : regsOnly s (s.wb p o b v) := rfl
theorem regsOnly_irq (s : State) (p b : Nat) : regsOnly s (s.irq p b) := rfl
theorem regsOnly_incSat (s : State) (p o n : Nat) : regsOnly s (s.incSat p o n) := rfl
theorem regsOnly_incWrap (s : State) (p o n : Nat) : regsOnly s (s.incWrap p o n) := rfl
theorem regsOnly_inc64 (s : State) (p o n : Nat) : regsOnly s (s.inc64 p o n) := rfl

theorem regsOnly_tallyOne (s : State) (p c n k : Nat) : regsOnly s (s.tallyOne p c n k) := by
  unfold State.tallyOne; split
  · exact regsOnly_wr64 ..
  · exact regsOnly_refl s

theorem regsOnly_tallyN (s : State) (p c n : Nat) : regsOnly s (s.tallyN p c n) :=
  regsOnly_trans (regsOnly_trans (regsOnly_trans (regsOnly_tallyOne ..) (regsOnly_tallyOne ..)) (regsOnly_tallyOne ..)) (regsOnly_tallyOne ..)

theorem regsOnly_tally (s : State) (p c : Nat) : regsOnly s (s.tally p c) := regsOnly_tallyN ..

theorem regsOnly_faultReg (s : State) (f : FaultInfo) : regsOnly s (s.faultReg f) := by
  unfold State.faultReg; split <;> rfl

theorem regsOnly_mem {s t : State} (h : regsOnly s t) : t.mem = s.mem := by
  have := congrArg State.mem h; exact this

/-! ### Tallies keep every register but the counters of their page (R40) -/

theorem State.rd_tallyOne (s : State) (p c n k : Nat) (hk : k < 4) (p' o' : Nat) (h : regKey p' o' ∉ tallyKeys p) :
    (s.tallyOne p c n k).rd p' o' = s.rd p' o' := by
  have h1 : ∀ j < 8, regKey p' o' ≠ regKey p (0x30 + 4 * j) := by
    intro j hj he; exact h (by simp only [tallyKeys, List.mem_map, List.mem_range]; exact ⟨j, hj, he.symm⟩)
  have h2 := h1 (2 * k) (by omega)
  have h3 := h1 (2 * k + 1) (by omega)
  unfold State.tallyOne
  split
  · unfold State.wr64 tallyOff
    rw [State.rd_wr_ne, State.rd_wr_ne]
    · intro e; exact h2 (by rw [e]; congr 1; omega)
    · intro e; exact h3 (by rw [e]; congr 1; omega)
  · rfl

theorem State.rd_tallyN (s : State) (p c n p' o' : Nat) (h : regKey p' o' ∉ tallyKeys p) : (s.tallyN p c n).rd p' o' = s.rd p' o' := by
  unfold State.tallyN
  rw [State.rd_tallyOne _ _ _ _ 3 (by omega) _ _ h, State.rd_tallyOne _ _ _ _ 2 (by omega) _ _ h,
    State.rd_tallyOne _ _ _ _ 1 (by omega) _ _ h, State.rd_tallyOne _ _ _ _ 0 (by omega) _ _ h]

theorem State.rd_tally (s : State) (p c p' o' : Nat) (h : regKey p' o' ∉ tallyKeys p) : (s.tally p c).rd p' o' = s.rd p' o' :=
  State.rd_tallyN s p c 1 p' o' h

/-- A bus error changes the tally counters of the page that counts it, and the reply (R32). -/
theorem State.busFail_spec (s : State) (p c : Nat) :
    (s.busFail p c).bus = ⟨c, 0⟩ ∧ onlyRegs s (s.busFail p c) (tallyKeys (if pageAssigned p then p else devPage)) := by
  refine ⟨rfl, fun p' o' h => State.rd_tally s _ 2 p' o' h, ?_⟩
  have h := congrArg (fun t : State => { t with bus := s.bus }) (regsOnly_tally s (if pageAssigned p then p else devPage) 2)
  exact h

@[simp] theorem State.busFail_mem (s : State) (p c : Nat) : (s.busFail p c).mem = s.mem := by
  have h := regsOnly_mem (regsOnly_tally s (if pageAssigned p then p else devPage) 2)
  exact h

/-! ### What an operation on registers keeps (R33, R637) -/

/-- Register words that two operations in turn may change. -/
theorem regsKept_trans {s t u : State} {ks js : List Nat} (h : regsKept s t ks) (g : regsKept t u js) : regsKept s u (ks ++ js) :=
  fun p o hk => (g p o (fun e => hk (List.mem_append_right _ e))).trans (h p o fun e => hk (List.mem_append_left _ e))

theorem regsKept_mono {s t : State} {ks js : List Nat} (h : regsKept s t ks) (hj : ∀ k ∈ ks, k ∈ js) : regsKept s t js :=
  fun p o hk => h p o fun e => hk (hj _ e)

theorem regsKept_wr {s t : State} {ks : List Nat} (p o v : Nat) (hk : regKey p o ∈ ks) (h : regsKept s t ks) : regsKept s (t.wr p o v) ks :=
  fun p' o' hn => (State.rd_wr_ne _ _ _ _ _ _ (fun e => hn (by rw [e]; exact hk))).trans (h p' o' hn)

theorem regsKept_tally {s t : State} {ks : List Nat} (p c : Nat) (hk : ∀ k ∈ tallyKeys p, k ∈ ks) (h : regsKept s t ks) :
    regsKept s (t.tally p c) ks :=
  fun p' o' hn => (State.rd_tally _ _ _ _ _ (fun e => hn (hk _ e))).trans (h p' o' hn)

/-! ### The sump and bus errors (R32, R33, R636, R637) -/

theorem sumpInsert_has (e : SumpEntry) (n w : Nat) (m : NMap SumpEntry) : ∃ k, NMap.find (sumpInsert e n w m) k = some e := by
  induction n generalizing w m with
  | zero => exact ⟨w, by simp [sumpInsert]⟩
  | succ n ih =>
    unfold sumpInsert
    split
    · split
      · exact ih _ _
      · exact ⟨w, by simp⟩
    · exact ⟨w, by simp⟩

/-- A sump entry changes the registers of the sump page that R637 names, and stands in the sump. -/
theorem State.sumpWrite_spec (s : State) (e : SumpEntry) :
    regsKept s (s.sumpWrite e) sumpKeys ∧ { s.sumpWrite e with regs := s.regs, sump := s.sump } = s ∧
      ∃ k, NMap.find (s.sumpWrite e).sump k = some e := by
  let s1 : State := { s with sump := sumpInsert e (min (s.rf sumpPage 0x100 12 0) 4095) (s.rf sumpPage 0x104 11 0) s.sump }
  have step : ∀ (t : State) (o v : Nat), o ∈ [0x100, 0x104, 0x108, 0x110, 0x010] → regsKept s t sumpKeys ∧ regsOnly s1 t →
      regsKept s (t.wr sumpPage o v) sumpKeys ∧ regsOnly s1 (t.wr sumpPage o v) := fun t o v ho h =>
    ⟨regsKept_wr _ _ _ (List.mem_append_left _ (List.mem_map_of_mem (f := regKey sumpPage) ho)) h.1, regsOnly_trans h.2 (regsOnly_wr ..)⟩
  have tally : ∀ (t : State) (c : Nat), regsKept s t sumpKeys ∧ regsOnly s1 t →
      regsKept s (t.tally sumpPage c) sumpKeys ∧ regsOnly s1 (t.tally sumpPage c) := fun t c h =>
    ⟨regsKept_tally _ _ (fun k hk => List.mem_append_right _ hk) h.1, regsOnly_trans h.2 (regsOnly_tally ..)⟩
  have h : regsKept s (s.sumpWrite e) sumpKeys ∧ regsOnly s1 (s.sumpWrite e) := by
    have h1 : regsKept s s1 sumpKeys ∧ regsOnly s1 s1 := ⟨fun _ _ _ => rfl, rfl⟩
    have irq : ∀ (t : State) (b : Nat), regsKept s t sumpKeys ∧ regsOnly s1 t →
        regsKept s (t.irq sumpPage b) sumpKeys ∧ regsOnly s1 (t.irq sumpPage b) := fun t b => step t _ _ (by simp)
    have h2 := step _ 0x110 (((s1.wr sumpPage 0x104 ((s.rf sumpPage 0x104 11 0 + 1) % 4096)).rd sumpPage 0x110 + 1) % 2 ^ 32) (by simp)
      (step s1 0x104 ((s.rf sumpPage 0x104 11 0 + 1) % 4096) (by simp) h1)
    unfold State.sumpWrite
    extract_lets w n a1 a2 a3 a4 a5
    have h3 : regsKept s a3 sumpKeys ∧ regsOnly s1 a3 := by
      simp only [a3]; split
      · exact step _ _ _ (by simp) h2
      · exact tally _ _ (step _ _ _ (by simp) (step _ _ _ (by simp) h2))
    have h4 := tally _ 0xA4 (irq _ 8 h3)
    have h5 : regsKept s a5 sumpKeys ∧ regsOnly s1 a5 := by
      simp only [a5]; split
      · exact irq _ _ h4
      · exact h4
    split
    · exact irq _ _ h5
    · exact h5
  have he := congrArg State.sump h.2
  refine ⟨h.1, congrArg (fun t : State => { t with sump := s.sump }) h.2, ?_⟩
  rw [show (s.sumpWrite e).sump = s1.sump from he]
  exact sumpInsert_has _ _ _ _

/-- What a bus error of an access to an assigned page does (R32, R33). -/
theorem State.busErr_spec (s : State) (id p c : Nat) (hp : pageAssigned p = true) : busEnded s (s.busErr id p c) id p c := by
  obtain ⟨hb, hk, ho⟩ := State.busFail_spec s p c
  have hq : (if pageAssigned p then p else devPage) = p := by simp [hp]
  rw [hq] at hk
  unfold State.busErr busEnded
  by_cases hc : isCore id = true
  · simp only [hc, hq, if_true]
    obtain ⟨h1, h2, k, h3⟩ := State.sumpWrite_spec (s.busFail p c) ⟨0, id, false, false, p, 0x7FF, s.reading, s.gcount, c⟩
    refine ⟨(congrArg State.bus h2).trans hb, regsKept_trans hk h1, ?_, k, _, h3, rfl, rfl, rfl⟩
    exact (congrArg (fun t : State => { t with regs := s.regs, bus := s.bus, sump := s.sump }) h2).trans
      (congrArg (fun t : State => { t with sump := s.sump }) ho)
  · have hs := congrArg State.sump ho
    simp only [hc]
    exact ⟨hb, by simpa using hk, congrArg (fun t : State => { t with sump := s.sump }) ho, hs⟩

/-! ### Memory is untouched by tallies, interrupts and faults -/

@[simp] theorem State.wr64_mem (s : State) (p o v : Nat) : (s.wr64 p o v).mem = s.mem := rfl
@[simp] theorem State.wf_mem (s : State) (p o hi lo v : Nat) : (s.wf p o hi lo v).mem = s.mem := rfl
@[simp] theorem State.wb_mem (s : State) (p o b : Nat) (v : Bool) : (s.wb p o b v).mem = s.mem := rfl
@[simp] theorem State.irq_mem (s : State) (p b : Nat) : (s.irq p b).mem = s.mem := rfl
@[simp] theorem State.incSat_mem (s : State) (p o n : Nat) : (s.incSat p o n).mem = s.mem := rfl
@[simp] theorem State.incWrap_mem (s : State) (p o n : Nat) : (s.incWrap p o n).mem = s.mem := rfl
@[simp] theorem State.inc64_mem (s : State) (p o n : Nat) : (s.inc64 p o n).mem = s.mem := rfl
@[simp] theorem State.setG_mem (s : State) (d i : Nat) (v : Bool) : (s.setG d i v).mem = s.mem := rfl
@[simp] theorem State.tallyN_mem (s : State) (p c n : Nat) : (s.tallyN p c n).mem = s.mem := regsOnly_mem (regsOnly_tallyN s p c n)
@[simp] theorem State.tally_mem (s : State) (p c : Nat) : (s.tally p c).mem = s.mem := regsOnly_mem (regsOnly_tally s p c)
@[simp] theorem State.faultReg_mem (s : State) (f : FaultInfo) : (s.faultReg f).mem = s.mem := regsOnly_mem (regsOnly_faultReg s f)

@[simp] theorem State.sumpWrite_mem (s : State) (e : SumpEntry) : (s.sumpWrite e).mem = s.mem := by
  unfold State.sumpWrite
  simp only
  repeat' split
  all_goals simp

@[simp] theorem State.assertFaultOut_mem (s : State) : s.assertFaultOut.mem = s.mem := rfl

@[simp] theorem State.fault_mem (s : State) (f : FaultInfo) : (s.fault f).mem = s.mem := by
  unfold State.fault
  simp only
  split <;> simp

@[simp] theorem State.faultBy_mem (s : State) (p c i : Nat) : (s.faultBy p c i).mem = s.mem := State.fault_mem ..

/-- A bus error of an identity that is no control core leaves no sump entry (R32, R33). -/
theorem State.busErr_outside (s : State) (id p c : Nat) (h : isCore id = false) : s.busErr id p c = s.busFail p c := by
  simp [State.busErr, h]

@[simp] theorem State.busErr_mem (s : State) (id p c : Nat) : (s.busErr id p c).mem = s.mem := by
  unfold State.busErr
  simp only
  split <;> simp

/-! ### The canonical form of memory -/

theorem memoryGood_of_mem_eq {s t : State} (h : t.mem = s.mem) (hs : memoryGood s) : memoryGood t := by
  unfold memoryGood at *; rw [h]; exact hs

/-- Bytes written keep the canonical form. -/
theorem memoryGood_stBytes (s : State) (a : Nat) (bs : List Byte) (h : memoryGood s) : memoryGood (s.stBytes a bs) := by
  unfold memoryGood State.stBytes at *
  simp only
  split
  · exact Memory.wf_writeBytes s.mem a bs h
  · refine Memory.wf_foldl _ _ _ (fun m x hm => ?_) h
    split
    · exact hm
    · exact Memory.wf_write m _ _ hm

theorem memoryGood_st (s : State) (a n v : Nat) (h : memoryGood s) : memoryGood (s.st a n v) := memoryGood_stBytes s a _ h

theorem memoryGood_wr (s : State) (p o v : Nat) (h : memoryGood s) : memoryGood (s.wr p o v) := h
theorem memoryGood_wb (s : State) (p o b : Nat) (v : Bool) (h : memoryGood s) : memoryGood (s.wb p o b v) := h
theorem memoryGood_wf (s : State) (p o hi lo v : Nat) (h : memoryGood s) : memoryGood (s.wf p o hi lo v) := h
theorem memoryGood_wr64 (s : State) (p o v : Nat) (h : memoryGood s) : memoryGood (s.wr64 p o v) := h
theorem memoryGood_irq (s : State) (p b : Nat) (h : memoryGood s) : memoryGood (s.irq p b) := h
theorem memoryGood_reply (s : State) (v : Nat) (h : memoryGood s) : memoryGood (s.reply v) := h
theorem memoryGood_setG (s : State) (d i : Nat) (v : Bool) (h : memoryGood s) : memoryGood (s.setG d i v) := h
theorem memoryGood_incSat (s : State) (p o n : Nat) (h : memoryGood s) : memoryGood (s.incSat p o n) := h
theorem memoryGood_incWrap (s : State) (p o n : Nat) (h : memoryGood s) : memoryGood (s.incWrap p o n) := h
theorem memoryGood_tallyN (s : State) (p c n : Nat) (h : memoryGood s) : memoryGood (s.tallyN p c n) :=
  memoryGood_of_mem_eq (State.tallyN_mem s p c n) h
theorem memoryGood_tally (s : State) (p c : Nat) (h : memoryGood s) : memoryGood (s.tally p c) :=
  memoryGood_of_mem_eq (State.tally_mem s p c) h
theorem memoryGood_fault (s : State) (f : FaultInfo) (h : memoryGood s) : memoryGood (s.fault f) :=
  memoryGood_of_mem_eq (State.fault_mem s f) h
theorem memoryGood_faultBy (s : State) (p c i : Nat) (h : memoryGood s) : memoryGood (s.faultBy p c i) := memoryGood_fault _ _ h

/-- With no error anywhere, bytes are written as they are. -/
theorem State.stBytes_clean (s : State) (a : Nat) (bs : List Byte) (h : noErrors s) :
    s.stBytes a bs = { s with mem := Memory.writeBytes s.mem a bs } := by
  obtain ⟨h1, h2⟩ := h
  cases s
  simp only at h1 h2
  subst h1; subst h2
  rfl

/-- A write of memory changes memory and the lists of its errors. -/
theorem State.stBytes_frame (s : State) (a : Nat) (bs : List Byte) :
    { s.stBytes a bs with mem := s.mem, eccBad := s.eccBad, eccOne := s.eccOne } = s := rfl

/-- A fold of operations keeps the canonical form where each one does. -/
theorem memoryGood_foldl {α : Type} (f : State → α → State) (xs : List α) (s : State)
    (hf : ∀ s x, memoryGood s → memoryGood (f s x)) (h : memoryGood s) : memoryGood (xs.foldl f s) := by
  induction xs generalizing s with
  | nil => exact h
  | cons x xs ih => exact ih _ (hf s x h)

/-! ### Accesses -/

theorem guardW_ok {id p off : Nat} {s : State} (act : State → State) (h : mayWrite s id p off) :
    guardW id p off s act = act (s.reply 0) := by
  unfold mayWrite at h; simp [guardW, h]

theorem guardW_err {id p off : Nat} {s : State} (act : State → State) (h : s.accessErr id p off true ≠ 0) :
    guardW id p off s act = s.busErr id p (s.accessErr id p off true) := by
  simp [guardW, h]

theorem guardR_ok {id p off : Nat} {s : State} (act : State → State) (h : mayRead s id p off) :
    guardR id p off s act = act (s.reply 0) := by
  unfold mayRead at h; simp [guardR, h]

theorem guardR_err {id p off : Nat} {s : State} (act : State → State) (h : s.accessErr id p off false ≠ 0) :
    guardR id p off s act = s.busErr id p (s.accessErr id p off false) := by
  simp [guardR, h]

/-- An access of an identity that does not reach its page ends in a bus error with its cause, and its action does not run. -/
theorem guardW_busEnded {id p off c : Nat} {s : State} (act : State → State) (hc : s.accessErr id p off true = c) (h0 : c ≠ 0)
    (hp : pageAssigned p = true) : busEnded s (guardW id p off s act) id p c := by
  subst hc; rw [guardW_err act h0]; exact State.busErr_spec s id p _ hp

theorem guardR_busEnded {id p off c : Nat} {s : State} (act : State → State) (hc : s.accessErr id p off false = c) (h0 : c ≠ 0)
    (hp : pageAssigned p = true) : busEnded s (guardR id p off s act) id p c := by
  subst hc; rw [guardR_err act h0]; exact State.busErr_spec s id p _ hp

/-- With no frame in the receive queue nothing is served (R552). -/
theorem serveFrame_empty {s : State} (h : s.rxq = []) : serveFrame s = s := by simp [serveFrame, h]

/-- An access keeps what both its action and a bus error keep. -/
theorem memoryGood_guardW (id p off : Nat) (s : State) (act : State → State) (ha : ∀ t, memoryGood t → memoryGood (act t))
    (h : memoryGood s) : memoryGood (guardW id p off s act) := by
  unfold guardW
  simp only
  split
  · exact ha _ h
  · exact memoryGood_of_mem_eq (State.busErr_mem ..) h

theorem memoryGood_guardR (id p off : Nat) (s : State) (act : State → State) (ha : ∀ t, memoryGood t → memoryGood (act t))
    (h : memoryGood s) : memoryGood (guardR id p off s act) := by
  unfold guardR
  simp only
  split
  · exact ha _ h
  · exact memoryGood_of_mem_eq (State.busErr_mem ..) h

end Sys2Proof.Machine
end

