-- ==== Sys2Proof/Laws/Contexts.lean ====
section
/-! SUPPORT. The shared operations over contexts, words and operations of faces: what starts their action, and that each
keeps the canonical form of memory. -/
namespace Sys2Proof.Machine

/-! ### Contexts keep memory canonical -/

theorem memoryGood_setCtx (s : State) (h : Nat) (c : Ctx) (hs : memoryGood s) : memoryGood (s.setCtx h c) := by
  unfold State.setCtx
  split
  · exact hs
  · exact memoryGood_stBytes _ _ _ hs

theorem memoryGood_modCtx (s : State) (h : Nat) (g : Ctx → Ctx) (hs : memoryGood s) : memoryGood (s.modCtx h g) :=
  memoryGood_setCtx s h _ hs

theorem memoryGood_swapOut (h : Nat) (s : State) (hs : memoryGood s) : memoryGood (swapOut h s) := by
  unfold swapOut
  split
  · exact hs
  · exact memoryGood_irq _ _ _ (memoryGood_tally _ _ _ (memoryGood_stBytes _ _ _ hs))

theorem memoryGood_swapIn (h : Nat) (s : State) (hs : memoryGood s) : memoryGood (swapIn h s) := by
  unfold swapIn
  split
  · exact hs
  · exact memoryGood_irq _ _ _ (memoryGood_tally _ _ _ hs)

theorem memoryGood_swapRule (p : Nat) (s : State) (hs : memoryGood s) : memoryGood (swapRule p s) := by
  unfold swapRule
  split
  · exact hs
  · split
    · split
      · exact memoryGood_swapIn _ _ hs
      · split
        · exact memoryGood_swapIn _ _ (memoryGood_swapOut _ _ hs)
        · exact hs
    · exact hs

theorem memoryGood_sched (p : Nat) (s : State) (hs : memoryGood s) : memoryGood (sched p s) := by
  unfold sched
  split
  · exact hs
  · split
    · exact hs
    · have ht := memoryGood_swapRule p s hs
      simp only
      split
      · exact ht
      · exact ht

theorem memoryGood_bandArrive (p h : Nat) (s : State) (hs : memoryGood s) : memoryGood (bandArrive p h s) := by
  unfold bandArrive
  simp only
  repeat' split
  all_goals first | exact hs | exact memoryGood_sched _ _ hs

theorem memoryGood_becomeReady (h : Nat) (s : State) (hs : memoryGood s) : memoryGood (becomeReady h s) := by
  have h1 := memoryGood_modCtx s h (fun c => { c with state := 2 }) hs
  unfold becomeReady
  simp only
  repeat' split
  all_goals first | exact memoryGood_bandArrive _ _ _ h1 | exact memoryGood_sched _ _ h1

theorem memoryGood_startContext (h : Nat) (r : Run) (s : State) (hs : memoryGood s) : memoryGood (startContext h r s) :=
  memoryGood_becomeReady h _ hs

theorem memoryGood_leavePart (p h : Nat) (s : State) (hs : memoryGood s) : memoryGood (leavePart p h s) := by
  unfold leavePart
  simp only
  repeat' split
  all_goals first | exact hs | exact memoryGood_sched _ _ hs

@[simp] theorem State.modFace_mem (s : State) (f : Nat) (g : FaceSt → FaceSt) : (s.modFace f g).mem = s.mem := rfl

/-- A teardown keeps the canonical form. -/
theorem memoryGood_teardown (h code : Nat) (s : State) (hs : memoryGood s) : memoryGood (teardown h code s) := by
  unfold teardown
  extract_lets c s1 held s2 s3 s4
  have h1 : memoryGood s1 := memoryGood_modCtx _ _ _ hs
  have h2 : memoryGood s2 := by
    refine memoryGood_foldl _ _ _ (fun t f ht => ?_) h1
    split <;> exact ht
  have h3 : memoryGood s3 := by
    simp only [s3]; split
    · exact h2
    · exact memoryGood_irq _ _ _ h2
  have h4 : memoryGood s4 := by
    simp only [s4]; split
    · split
      · exact h3
      · exact memoryGood_fault _ _ h3
    · exact h3
  split
  · exact hs
  · exact memoryGood_leavePart _ _ _ h4

theorem memoryGood_faceFault (f h code detail : Nat) (s : State) (hs : memoryGood s) : memoryGood (faceFault f h code detail s) :=
  memoryGood_teardown _ _ _ (memoryGood_fault _ _ hs)

theorem ueRegister_mem (a : Nat) (scrub : Bool) (s : State) : (ueRegister a scrub s).mem = s.mem := by
  unfold ueRegister; split <;> rfl

theorem memoryGood_strikeOwner (w src : Nat) (own : Owner) (s : State) (hs : memoryGood s) : memoryGood (strikeOwner w src own s) := by
  unfold strikeOwner
  simp only
  split
  · exact memoryGood_teardown _ _ _ (memoryGood_fault _ _ hs)
  · exact memoryGood_foldl _ _ _ (fun t h ht => memoryGood_teardown _ _ _ ht) (memoryGood_fault _ _ hs)
  · exact memoryGood_fault _ _ hs

theorem memoryGood_strikeReader (w src : Nat) (reader : Option Nat) (own : Owner) (s : State) (hs : memoryGood s) :
    memoryGood (strikeReader w src reader own s) := by
  unfold strikeReader
  split
  · split
    · exact hs
    · exact memoryGood_teardown _ _ _ (memoryGood_fault _ _ hs)
  · exact hs

theorem memoryGood_ueStrike (a : Nat) (reader : Option Nat) (scrub : Bool) (s : State) (src : Nat) (hs : memoryGood s) :
    memoryGood (ueStrike a reader scrub s src) := by
  have h1 : memoryGood (ueRegister (a / 8 * 8) scrub s) := memoryGood_of_mem_eq (ueRegister_mem ..) hs
  unfold ueStrike
  simp only
  split
  · exact memoryGood_strikeReader _ _ _ _ _ (memoryGood_strikeOwner _ _ _ _ h1)
  · exact memoryGood_strikeOwner _ _ _ _ (memoryGood_strikeReader _ _ _ _ _ h1)

theorem memoryGood_ueRead (s t : State) (a n : Nat) (reader : Option Nat) (src : Nat) (hs : memoryGood s)
    (ht : s.ueRead a n reader src = some t) : memoryGood t := by
  unfold State.ueRead at ht
  cases hu : s.ueIn a n with
  | none => simp [hu] at ht
  | some w => simp only [hu, Option.map_some, Option.some.injEq] at ht; subst ht; exact memoryGood_ueStrike _ _ _ _ _ hs

/-! ### Errors met by a read or a write (R262, R264, R266) -/

@[simp] theorem eccCorrected_mem (a : Nat) (s : State) : (eccCorrected a s).mem = s.mem := by
  unfold eccCorrected State.sumAdd
  simp only
  split <;> simp

/-- A read corrects single-bit errors: the bytes stay (R262). -/
@[simp] theorem State.correct_mem (s : State) (a n : Nat) : (s.correct a n).mem = s.mem := by
  unfold State.correct
  generalize s.eccOne.filter _ = l
  induction l generalizing s with
  | nil => rfl
  | cons w l ih => rw [List.foldl_cons, ih]; simp

@[simp] theorem State.correctAll_mem (s : State) (rs : List (Nat × Nat)) : (s.correctAll rs).mem = s.mem := by
  unfold State.correctAll
  induction rs generalizing s with
  | nil => rfl
  | cons r rs ih => rw [List.foldl_cons, ih, State.correct_mem]

/-- With no single-bit error a read changes nothing. -/
theorem State.correct_clean (s : State) (a n : Nat) (h : s.eccOne = []) : s.correct a n = s := by simp [State.correct, h]

theorem State.correctAll_clean (s : State) (rs : List (Nat × Nat)) (h : s.eccOne = []) : s.correctAll rs = s := by
  unfold State.correctAll
  induction rs with
  | nil => rfl
  | cons r rs ih => rw [List.foldl_cons, State.correct_clean s _ _ h, ih]

/-- A read that meets no error goes on at once. -/
theorem readThen_clean (a n : Nat) (reader : Option Nat) (go : State → State) (s : State) (src : Nat) (hu : s.ueIn a n = none)
    (h1 : s.eccOne = []) : readThen a n reader go s src = go s := by
  simp [readThen, State.ueRead, hu, State.correct_clean s a n h1]

theorem memoryGood_readThen (a n : Nat) (reader : Option Nat) (go : State → State) (s : State) (src : Nat)
    (hg : ∀ t, memoryGood t → memoryGood (go t)) (hs : memoryGood s) : memoryGood (readThen a n reader go s src) := by
  unfold readThen
  split
  · exact memoryGood_ueRead _ _ _ _ _ _ hs ‹_›
  · exact hg _ (memoryGood_of_mem_eq (State.correct_mem ..) hs)

theorem memoryGood_strikeAll (src : Nat) (reader : Option Nat) (bad : List Nat) (s : State) (hs : memoryGood s) :
    memoryGood (strikeAll src reader bad s) :=
  memoryGood_foldl _ _ _ (fun _ _ ht => memoryGood_ueStrike _ _ _ _ _ ht) hs

theorem memoryGood_readStrike (rs : List (Nat × Nat)) (s : State) (hs : memoryGood s) : memoryGood (readStrike rs s) :=
  memoryGood_strikeAll _ _ _ _ (memoryGood_of_mem_eq (State.correctAll_mem ..) hs)

theorem memoryGood_storeBytes (src : Nat) (reader : Option Nat) (a : Nat) (bs : List Byte) (s : State) (hs : memoryGood s) :
    memoryGood (storeBytes src reader a bs s) :=
  memoryGood_strikeAll _ _ _ _ (memoryGood_stBytes _ _ _ hs)

/-- With no error anywhere a store writes its bytes. -/
theorem storeBytes_clean (src : Nat) (reader : Option Nat) (a : Nat) (bs : List Byte) (s : State) (h : noErrors s) :
    storeBytes src reader a bs s = { s with mem := Memory.writeBytes s.mem a bs } := by
  have e : s.stuckWords a bs.length = [] := by simp [State.stuckWords, h.1]
  simp [storeBytes, strikeAll, e, State.stBytes_clean s a bs h]

theorem readStrike_clean (rs : List (Nat × Nat)) (s : State) (h : noErrors s) : readStrike rs s = s := by
  have e : (rs.flatMap fun r => s.badWords r.1 r.2) = [] := by simp [State.badWords, h.1]
  simp [readStrike, strikeAll, e, State.correctAll_clean s rs h.2]

/-! ### Issue -/

/-- A word that issues is acted on. -/
theorem issueWith_issues {f h w : Nat} {s : State} (p : Nat → Bool) (act : Nat → Nat → State → State) (hi : issues s f h w) (hp : p w = true) :
    issueWith f p act s = act h w s := by
  obtain ⟨h1, h2, h3, he, h4, h5, h6⟩ := hi
  have hc : ((s.face f).redo.isEmpty && wW w && !s.flag f (condRef f w)) = false := by
    by_cases hr : (s.face f).redo = []
    · by_cases hw : wW w = true
      · simp [h5 hr hw]
      · simp [hw]
    · simp [List.isEmpty_iff, hr]
  unfold issueWith
  simp only [h1, h2, readThen_clean _ _ _ _ _ _ h3 he, h4, hp, hc]
  simp [Nat.not_le.2 h6]

theorem issueOp_issues {f h w op : Nat} {s : State} (act : Nat → Nat → State → State) (hi : issues s f h w) (hp : wOp w = op) :
    issueOp f op act s = act h w s :=
  issueWith_issues _ act hi (by simp [hp])

theorem memoryGood_issueWith (f : Nat) (p : Nat → Bool) (act : Nat → Nat → State → State) (s : State)
    (ha : ∀ h w t, memoryGood t → memoryGood (act h w t)) (hs : memoryGood s) : memoryGood (issueWith f p act s) := by
  unfold issueWith stall
  split
  · exact hs
  · split
    · exact hs
    · refine memoryGood_readThen _ _ _ _ _ _ (fun t ht => ?_) hs
      repeat' split
      all_goals first | exact ht | exact memoryGood_tally _ _ _ ht | exact ha _ _ _ ht

theorem issueChecked_go {f h w code : Nat} {d : List Byte} {go : State → State} {s : State} (hz : hazard (s.face f) w d = false)
    (hc : code = 0) : issueChecked f h w code d go s = go s := by
  simp [issueChecked, hz, hc]

theorem memoryGood_wordFault (f h code w : Nat) (xs : List Nat) (d : List Byte) (s : State) (hs : memoryGood s) :
    memoryGood (wordFault f h code w xs d s) := memoryGood_faceFault _ _ _ _ _ hs

theorem memoryGood_issueChecked (f h w code : Nat) (d : List Byte) (go : State → State) (s : State)
    (hg : ∀ t, memoryGood t → memoryGood (go t)) (hs : memoryGood s) : memoryGood (issueChecked f h w code d go s) := by
  unfold issueChecked hazardStall
  split
  · exact memoryGood_tally _ _ _ hs
  · split
    · exact memoryGood_wordFault _ _ _ _ _ _ _ hs
    · exact hg _ hs

theorem memoryGood_completeOp (f : Nat) (p : Op → Bool) (act : Nat → Op → State → State × Nat) (s : State)
    (ha : ∀ h o t, memoryGood t → memoryGood (act h o t).1) (hs : memoryGood s) : memoryGood (completeOp f p act s) := by
  unfold completeOp
  split
  · exact hs
  · unfold completeAt
    simp only
    split
    · exact hs
    · split
      · exact memoryGood_ueStrike _ _ _ _ _ hs
      · split
        · exact memoryGood_wordFault _ _ _ _ _ _ _ (ha _ _ _ (memoryGood_of_mem_eq (State.correctAll_mem ..) hs))
        · exact ha _ _ _ (memoryGood_of_mem_eq (State.correctAll_mem ..) hs)

end Sys2Proof.Machine
end

