-- ==== Sys2Proof/WellFormed.lean ====
section
/-! DEFINITION. When a command's operands fit the fields the manual gives them: addresses of 40 bits (R26), band numbers
of 8 bits (R99), datagrams that fit a frame, flits of 256 bytes (R560), clock operands (R512, R515). The block answers
every command; these are the commands that a sender can form. -/
namespace Sys2Proof

/-- An address of the 40-bit device space (R26). -/
def addrFits (a : Nat) : Bool := decide (a < 2 ^ 40)

/-- A frame that may come in on a port: the ports take up to 9,022 bytes (R475) and discard longer ones. -/
def frameFits (d : List Byte) : Bool := decide (d.length ≤ 16384)

/-- A crosscut flit has 256 bytes (R560). -/
def flitFits (f : List Byte) : Bool := decide (f.length = 256)

/-- The operands of a command fit their fields. -/
def Instr.wf : Instr → Bool
  | .registerWrite _ a n v => addrFits a && decide (n ≤ 8) && decide (v < 2 ^ 64)
  | .lowWordRead _ a n => addrFits a && decide (n ≤ 8)
  | .rcRead _ a n => addrFits a && decide (n ≤ 8)
  | .bandLaunch _ _ b => decide (b < 256)
  | .poseLatch _ _ b => decide (b < 256)
  | .bandDeadline _ _ b => decide (b < 256)
  | .bandFetch _ _ b => decide (b < 256)
  | .layerUnderrun _ u => decide (u.pixel < 8192)
  | .bandRecordWrite _ _ b _ => decide (b < 256)
  | .replayBandLaunch _ _ b => decide (b < 256)
  | .replayPoseLatch _ _ b => decide (b < 256)
  | .scrubRead a _ => addrFits a
  | .sortJob _ _ a => addrFits a
  | .rasJob _ _ a => addrFits a
  | .csiDtDropped _ p => decide (p.dt < 64)
  | .hpdRise _ c => decide (c < 2 ^ 32)
  | .st2110Packet _ d => frameFits d
  | .ancPacket _ d => frameFits d
  | .ureludPacket _ d => frameFits d
  | .spiTransactionDone _ d => decide (d.length ≤ 32)
  | .tsCapture _ i => decide (i < 2 ^ 32)
  | .clkRateWrite _ _ r => decide (r < 2 ^ 40)
  | .clkAdj _ _ d => decide (d < 2 ^ 64)
  | .clkSet _ _ s _ => decide (s < 2 ^ 48)
  | .ptpMeasurement _ o => decide (-(2 ^ 63 : Int) ≤ o ∧ o < 2 ^ 63)
  | .adporDatagram _ x => frameFits x.frame
  | .regRead _ a => addrFits a
  | .regWrite _ a _ => addrFits a
  | .burstRead _ a n => addrFits a && decide (n ≤ 8192)
  | .burstWrite _ a d => addrFits a && decide (d.length ≤ 8192)
  | .winzeSend _ _ w => decide (w.length ≤ 16)
  | .streamCtrl _ b => decide (b.length ≤ 64)
  | .bootOffer _ d => frameFits d
  | .bootData _ d => frameFits d
  | .bootProvision _ d => frameFits d
  | .memWr _ f => flitFits f
  | .memRd _ f => flitFits f
  | .memRsp _ f => flitFits f
  | .memAck _ f => flitFits f
  | .halo _ f => flitFits f
  | .reduce _ f => flitFits f
  | .bcastLaunch _ f => flitFits f
  | .bcastLate _ f => flitFits f
  | .pose _ f => flitFits f
  | .heartbeatReceive _ f => flitFits f
  | .flitNak _ q => decide (q < 2 ^ 32)
  | .install _ k => decide (k < 16)
  | .powerOnReset p => decide (p < 8)
  | .thermalSample r => decide (r.length ≤ 16)
  | _ => true

end Sys2Proof
end

