-- ==== Sys2Proof/Tests/Slice0.lean ====
section
/-! SUPPORT. Tests: ill-formed commands are refused, commands on small states, and for each obligation with hypotheses a
state and operands that meet them. -/
namespace Sys2Proof.Tests
open Machine
set_option Elab.async false

/-! ### States -/

/-- Every domain is on and the boot window is closed. -/
def up : State := { State.reset.wr pwrPage 0x10C 0x0FFFFFFF with boot := { State.reset.boot with window := false } }

/-- A word's bytes at a device address. -/
def put (a n v : Nat) (s : State) : State := { s with mem := Memory.writeLe s.mem a n v }

/-- A list of 16-byte words behind its header. -/
def listAt (a : Nat) (ws : List Nat) (s : State) : State :=
  ((List.range ws.length).zip ws).foldl (fun t e => put (a + 16 * (e.1 + 1)) 16 e.2 t) (put a 16 (0x0F + 2 ^ 24 + (ws.length + 1) * 2 ^ 32) s)

/-- Partition 0 holds stope 0, with windows over DRAM and the galleries, and context 5 in slot 0; a list of STOP stands at 0x10000. -/
def rig : State :=
  listAt 0x10000 [0x01]
    { up.wr devPage 0x100 0x1000 with
      windows := [(0, ⟨0, dramSize - 0x10000, 0xF⟩), (1, ⟨galBase, galBase + galSize - 0x10000, 0xF⟩)]
      ctxs := [(5, { state := 1, wmask := 3 })] }

/-- What context 5 runs in the tests of words: the list `ws` at 0x10000 on faces 0 and 1. -/
def rigRun (ws : List Nat) : Run := { list := 0x10000, words := ws.length + 1, faces := [0, 1], site := stopePage 0 }

/-- Context 5 runs a list on faces 0 and 1, and face 0 stands at its first word with state `x`. -/
def running (ws : List Nat) (x : FaceSt := {}) : State :=
  let s := listAt 0x10000 ws rig
  { s with
    ctxs := [(5, { state := 3, wmask := 3 })], runs := [(5, rigRun ws)], parts := [(0, { running := some 5 })]
    faces := [(0, { x with pc := 1 }), (1, { pc := 1 })] }

/-- The page of stope 0, bound to slot 0 and enabled, with UNIT_LIST at the list of `rig`. -/
def unitRig : State :=
  (((rig.wr (stopePage 0) 0x008 1).wr (stopePage 0) 0x054 0x100).wr (stopePage 0) 0x060 0x10000)

/-! ### The queue, accesses, the header and winze channels -/

theorem witness_StepRunsTheFront : State.reset.pending = [] ∧ State.reset.rxq = [] := by decide

theorem witness_BusErrorsChangeNothing :
    (regionOf (ctlBase + 8) = .control ∧ (2 ≠ 4 ∨ (ctlBase + 8) % 4 ≠ 0)) ∧
    (regionOf (ctlBase + 6) = .control ∧ (4 ≠ 4 ∨ (ctlBase + 6) % 4 ≠ 0)) ∧
    (regionOf (ctlBase + 4095 * 4096) = .control ∧ (ctlBase + 4095 * 4096) % 4 = 0 ∧ pageAssigned ((ctlBase + 4095 * 4096 - ctlBase) / 4096) = false) ∧
    (let s := { State.reset with boot := { State.reset.boot with window := false } }
     let a := ctlBase + headPage 0 * 4096 + 8
     let p := (a - ctlBase) / 4096
     regionOf a = .control ∧ a % 4 = 0 ∧ pageAssigned p = true ∧ s.boot.window = false ∧ s.accOk 8 p true = true ∧ s.pageOn p = false) := by
  decide

theorem witness_RegisterWriteByAccessCode :
    pageAssigned cagePage = true ∧ mayWrite up 8 cagePage 0x014 ∧ up.rd cagePage 0x014 &&& irqMask cagePage = up.rd cagePage 0x014 ∧
    mayWrite up 8 cagePage 0x010 := by decide

theorem witness_ReadsThatLatchAndClear :
    (pageAssigned sumpPage = true ∧ mayRead up 8 sumpPage (tallyOff 3) ∧ NMap.find up.latch (regKey sumpPage (tallyOff 3)) = none) ∧
    (let s := { up with latch := [(regKey sumpPage (tallyOff 0 + 4), 7)] }
     mayRead s 8 sumpPage (tallyOff 0 + 4) ∧ NMap.find s.latch (regKey sumpPage (tallyOff 0 + 4)) = some 7) ∧
    (mayRead up 8 (facePage 543) 0x120 ∧ NMap.find up.latch (regKey (facePage 543) 0x120) = none) ∧
    (mayRead up 8 memPage 0x10C ∧ NMap.find up.latch (regKey memPage 0x10C) = none) := by decide

/-- A page whose FAULT holds code 0x1002. -/
def faulted : State := up.wr cagePage 0x01C 0x1002

theorem witness_FaultRegister :
    mayWrite faulted 8 cagePage 0x028 ∧ (0x1002 : Word).toNat % 65536 = faulted.rf cagePage 0x01C 15 0 ∧
    (0x1003 : Word).toNat % 65536 ≠ faulted.rf cagePage 0x01C 15 0 ∧
    up.rf sumpPage 0x01C 15 0 = 0 ∧ faulted.rf cagePage 0x01C 15 0 ≠ 0 := by decide

theorem witness_TallyWrites :
    pageAssigned cagePage = true ∧ mayWrite up 8 cagePage 0x020 ∧
    (∀ k < 4, tallyOffered cagePage (fld (0x02030002 : Word).toNat (8 * k + 7) (8 * k)) = true) ∧
    mayWrite up 8 cagePage 0x024 ∧ up.rd cagePage 0x024 &&& 0x10F = up.rd cagePage 0x024 ∧
    bit (0x31 : Word).toNat (4 + 0) = true ∧ bit (0x31 : Word).toNat (4 + 3) = false := by decide

/-- Channel 12 is bound to sender 9 and receiver 8, and channel 60 to receiver 8; `stat` is the CHAN_STAT of both. -/
def winzeUp (stat : Nat) : State :=
  (((up.wr (winzePage 12) 0x150 0x10809).wr (winzePage 12) 0x148 stat).wr (winzePage 60) 0x150 0x10800).wr (winzePage 60) 0x148 stat

theorem witness_WinzeChannel :
    ((winzeUp 0).rb (winzePage 12) 0x150 16 = true ∧ mayWrite (winzeUp 0) 9 (winzePage 12) 0x13C ∧ (winzeUp 0).rb (winzePage 12) 0x148 0 = false ∧
      (9 : Ident).val = (winzeUp 0).rf (winzePage 12) 0x150 5 0 ∧ mayWrite (winzeUp 0) 9 (winzePage 12) 0x140 ∧
      1 ≤ fld (16 : Word).toNat 4 0 ∧ fld (16 : Word).toNat 4 0 ≤ 16 ∧ coreDomain ((winzeUp 0).rf (winzePage 12) 0x150 13 8) = none ∧
      (winzeUp 0).quiet (winzePage 12) = false) ∧
    ((winzeUp 0).rb (winzePage 60) 0x150 16 = true ∧ mayWrite (winzeUp 0) 11 (winzePage 60) 0x100) ∧
    (mayRead (winzeUp 1) 8 (winzePage 12) 0x144 ∧ (winzeUp 1).rb (winzePage 12) 0x148 0 = true ∧
      (8 : Ident).val = (winzeUp 1).rf (winzePage 12) 0x150 13 8 ∧ 4 ≤ (8 : Ident).val) ∧
    (mayWrite (winzeUp 1) 9 (winzePage 12) 0x100 ∧ mayWrite (winzeUp 1) 9 (winzePage 12) 0x140) ∧
    (fld (17 : Word).toNat 4 0 = 0 ∨ 16 < fld (17 : Word).toNat 4 0) ∧
    (mayRead (winzeUp 0) 8 (winzePage 12) 0x144 ∧ (8 : Ident).val = (winzeUp 0).rf (winzePage 12) 0x150 13 8) := by decide

/-! ### The cage: switches, slots, the schedule, head groups -/

theorem witness_SwitchesAndModelSlots :
    (rig.adEn 3 = false ∧ mayWrite rig 8 cagePage (hgOff 3 + 0x4C) ∧ rig.commitPassed 3 (rig.rd cagePage (hgOff 3 + 0x48)) = false ∧
      rig.rb cagePage (hgOff 3 + 0x4C) 8 = false ∧ mayWrite rig 8 cagePage (hgOff 3 + 0x5C) ∧ bit (3 : Word).toNat 10 = false ∧
      rig.commitPassed 3 (rig.rd cagePage (hgOff 3 + 0x60)) = false) ∧
    ({ rig with groups := [(3, { last0 := some 0 })] } : State).commitPassed 3 (rig.rd cagePage (hgOff 3 + 0x48)) = true ∧
    (rig.wr cagePage (hgOff 3 + 0x4C) 0x100).rb cagePage (hgOff 3 + 0x4C) 8 = true ∧
    (rig.wr cagePage (hgOff 3 + 0x5C) 0x203).rb cagePage (hgOff 3 + 0x5C) 9 = true ∧
    (mayWrite rig 8 cagePage (0x308 + 0x10 * 3) ∧ rig.slotInUse 3 = false ∧ NMap.rising rig.slotDesc = true) ∧
    (let s := { rig with slotLoading := [3] }
     NSet.has s.slotLoading 3 = true ∧ s.slotValid 3 = false ∧
       s.slotBad (s.rd64 cagePage (0x300 + 0x10 * 3)) (s.ldBytes (s.rd64 cagePage (0x300 + 0x10 * 3)) 256) = none) ∧
    ((rig.wb cagePage (adOff 3) 0 true).adEn 3 = true ∧ mayWrite (rig.wb cagePage (adOff 3) 0 true) 8 cagePage (hgOff 3 + 0x4C)) ∧
    rig.rb cagePage (hgOff 3 + 0x5C) 9 = false ∧
    (let s := rig.wr cagePage 0x100 0x001
     mayWrite s 8 cagePage 0x308 ∧ s.slotInUse 0 = true ∧ s.rf cagePage 0x01C 15 0 = 0) := by decide

/-- Head 0 is in line `l` of frame `F`, as the lead of head group 0. -/
def shown (F l : Nat) (s : State) : State :=
  { s.wb cagePage 0x100 4 true with heads := [(0, { timing := 2, frame := F, line := l })], groups := [(0, { start := some 0 })] }

theorem witness_ScheduleEntries :
    (let s := (rig.wr cagePage 0x340 4).wr cagePage 0x350 3
     mayWrite s 8 cagePage 0x344 ∧ 4 ≤ s.rf cagePage 0x340 7 0 ∧ s.rd cagePage 0x350 % 16 = 3) ∧
    (rig.rf cagePage 0x340 7 0 < 4 ∧ rig.rf cagePage 0x01C 15 0 = 0 ∧ rig.rd cagePage 0x350 % 16 = 0) ∧
    (let s := shown 2 7 { rig with sched := [(255, [3 + 1 * 2 ^ 8, 5 + 3 * 2 ^ 16, 2 + 0x0FFF0000, 0])] }
     s.schedFires 255 3 2 = true ∧ s.schedFires 255 3 3 = false) ∧
    (let s := shown 0 0 { unitRig with sched := [(4, [2, 0, stopePage 0 * 2 ^ 16, 0x100])] }
     let w := NMap.get [] s.sched 4
     let p := fld (nth 0 w 2) 31 16
     s.schedFires 4 2 0 = true ∧ pageAssigned p = true ∧ s.pageOn p = true ∧ s.unitLocked p = false ∧
       launchable ((noteFired 4 s).wr64 p 0x060 (nth 0 w 3 * 256)) p ∧ nth 0 w 3 < 2 ^ 32) := by decide +kernel

/-- The descriptor of a model slot that supports every ratio, rate and band height, with its list and its adaptation list at 0x10000. -/
def slotBytes : List Byte := leBytes 32 0 ++ leBytes 8 0 ++ leBytes 4 0x7FFF0000 ++ leBytes 4 0x00040001 ++ leBytes 8 0x10000 ++ leBytes 8 0 ++ leBytes 8 0x400000 ++
  leBytes 8 0 ++ leBytes 8 0x10000

/-- Head group 0 with head 0 in mode 0x05 (1,920 by 1,080), 32-line bands, G = 1, K = 2, P = 8, its input store at 0x40000 with rows in one
group, its block at gallery offset 0x4000, done flags from 16 and pose flags from 32, model slot 0, partition 0, and band contexts 6 and 7. -/
def cage : State :=
  let s := (((((rig.wr cagePage 0x100 0x00210010).wr cagePage 0x104 0x00080010).wr cagePage 0x110 0x40000).wr cagePage 0x130 0x4000).wr cagePage 0x134
    0x00200010).wr (headPage 0) 0x100 5
  let m := (List.range 4).foldl (fun t i => put (0x40000 + 256 * i + 0x0A) 2 1080 (put (0x40000 + 256 * i + 0x0E) 1 255 t)) s
  { m with
    slotDesc := [(0, slotBytes)]
    ctxs := [(5, { state := 1, wmask := 3, slot := 2 }), (6, { state := 1, cls := 1, wmask := 3 }), (7, { state := 1, cls := 1, bidx := 1, wmask := 3, slot := 1 })] }

/-- The head group of `cage` is enabled. -/
def cageOn : State := cage.wb cagePage 0x100 0 true

theorem witness_HeadGroupEnableAndDisable :
    (mayWrite cage 8 cagePage (hgOff 0) ∧ cage.hgEn 0 = false ∧ (regAt cagePage (hgOff 0)).isSome = true ∧ (regAt cagePage (hgOff 3)).isSome = true ∧
      cage.hgOk 0 = true ∧ (regAt cagePage (hgOff 0)).any (fun r => mergeWrite r.row (cage.rd cagePage (hgOff 0)) 0x00210011 == 0x00210011)) ∧
    (rig.hgOk 3 = false ∧ rig.rf cagePage 0x01C 15 0 = 0) ∧
    (mayWrite cageOn 8 cagePage (hgOff 0) ∧ cageOn.hgEn 0 = true ∧ cageOn.adEn 0 = false ∧ NMap.rising cageOn.sched = true) := by decide

theorem witness_BandLaunchAndBlock :
    (memoryGood cage ∧ noErrors cage ∧ 33 < cage.hgB 0 ∧ cage.hgB 0 < 256 ∧ cage.frameMap 0 7 = some (7, 0) ∧ 0 < cage.hgK 0 ∧
      cage.hgDone 0 + cage.bandIdx 0 33 < 4096 ∧ cage.hgPose 0 + cage.bandIdx 0 33 < 4096 ∧ cage.hgWeights 0 7 < 2 ^ 40 ∧ cage.hgW 0 < 65536 ∧
      33 * cage.hgH 0 < 65536 ∧ (cage.bandLines 0 33).2 < 256) ∧
    (let s := shown 4294967295 1060 cageOn
     let u := bandFresh 0 0 1 (bandCommits 0 0 s)
     let w := bandPrepared 0 0 1 u
     let fs := (w.partFaces (w.hgPart 0)).filter fun f => w.pageOn (w.facePg f)
     s.launchDue 0 0 1 = true ∧ ¬ s.hgK 0 ≤ 1 ∧
       u.hFrame (u.bandInput 0 0) = ((u.frameMap 0 0).getD (0, 0)).1 ∧ w.bandCtx 0 (w.bandIdx 0 1) = some 7 ∧ (w.ctx 7).active = false ∧ fs ≠ [] ∧
       w.partRetired (w.hgPart 0) = false ∧ w.testing fs = false) := by decide +kernel

theorem witness_BandLaunchAndBlock_missing :
    let s := shown 8 1092 cageOn
    let u := bandFresh 0 9 2 (bandCommits 0 9 (bandDeadline 0 9 0 s))
    s.launchDue 0 9 2 = true ∧ s.hgK 0 ≤ 2 ∧ u.hFrame (u.bandInput 0 9) ≠ ((u.frameMap 0 9).getD (0, 0)).1 := by decide +kernel

/-- Band 1 of frame 0 is known to the cage as `x`, and band 1 of frame 4294967295 as `y`. -/
def banded (x y : BandRun) : State :=
  { cageOn with bands := [(bandKey 0 0 1, x), (bandKey 0 4294967295 1, y)], runs := [(7, { band := some (bandKey 0 0 1) })],
                ctxs := [(7, { state := 3, cls := 1, bidx := 1, wmask := 3, slot := 1 })] }

theorem witness_PoseLatchAndDeadline :
    (let s := shown 4294967295 1116 (banded {} {})
     s.latchDue 0 0 1 = true ∧ s.standby = false ∧ noErrors s ∧ s.rb cagePage 0x600 0 = false ∧ memoryGood s ∧ (s.bestPose 0).isSome = false) ∧
    (let s := shown 4294967295 1124 (banded { launched := true, handle := 7 } {})
     s.deadlineDue 0 0 1 = true ∧ (s.band (bandKey 0 0 1)).complete = false ∧ s.replay = false ∧
       (s.band (bandKey 0 0 1)).launched = true ∧ s.doneBefore 0 0 1 = none ∧ (s.run (s.band (bandKey 0 0 1)).handle).band = some (bandKey 0 0 1) ∧
       s.resident (s.band (bandKey 0 0 1)).handle = true ∧ (s.ctx (s.band (bandKey 0 0 1)).handle).active = true) := by decide +kernel

theorem witness_BandFetchAndRecord :
    (let s := shown 0 31 (banded { pose := some [] } { complete := true, pose := some [] })
     let src := (s.sourceFrame 0 0 1).filter fun f => (s.band (bandKey 0 0 1)).pose.isSome && (s.band (bandKey 0 f 1)).pose.isSome
     s.replay = false ∧ s.fetchDue 0 0 1 = true ∧ s.eccBad = [] ∧ (s.band (bandKey 0 0 1)).fallback = false ∧ (s.band (bandKey 0 0 1)).fbNone = false ∧
       (s.band (bandKey 0 0 1)).complete = false ∧ src = some 4294967295) ∧
    (let s := banded { pose := some [] } {}
     (s.sourceFrame 0 0 1).filter (fun f => (s.band (bandKey 0 0 1)).pose.isSome && (s.band (bandKey 0 f 1)).pose.isSome) = none) ∧
    (shown 0 31 (banded { complete := true } {})).fetchDue 0 0 1 = true ∧
    (let s := shown 0 64 (banded {} {})
     s.recordDue 0 0 1 0 = true ∧ memoryGood s ∧ noErrors s) := by decide +kernel

/-! ### Adaptation and the reducer -/

/-- The head group of `cageOn` is set up to adapt: N = 1, D = 8, context slot 2, its block at gallery offset 0x8000, its flags from 64,
state sets at 0x60000 and 0x61000, and its reference store at 0x50000, whose slot 0 holds frame 0 complete. -/
def adBase : State :=
  put 0x50004 1 2 (put 0x61000 4 0x14144 (put 0x60000 4 0x14144
    (((((((cageOn.wr cagePage 0x400 0x02080000).wr cagePage 0x408 0x8000).wr cagePage 0x40C 64).wr cagePage 0x410 0x60000).wr cagePage 0x418
      0x61000).wr cagePage 0x118 0x50000))))

/-- Adaptation of the group is enabled. -/
def adOn : State := adBase.wb cagePage 0x400 0 true

theorem witness_AdaptationEnableAndSets :
    (mayWrite adBase 8 cagePage (adOff 0) ∧ (regAt cagePage (adOff 0)).isSome = true ∧ (regAt cagePage (adOff 3)).isSome = true ∧
      adBase.adEn 0 = false ∧
      ((regAt cagePage (adOff 0)).any fun r => (adBase.wr cagePage (adOff 0)
        (setBit (mergeWrite r.row (adBase.rd cagePage (adOff 0)) (setBit (0x02080000 : Word).toNat 0 true)) 0 false)).adOk 0) = true) ∧
    (rig.adOk 3 = false ∧ rig.rf cagePage 0x01C 15 0 = 0 ∧ mayWrite rig 8 cagePage (adOff 3)) ∧
    (adOn.adEn 0 = true ∧ adOn.replay = false ∧ mayWrite adOn 8 cagePage (adOff 0)) ∧
    (mayWrite adOn 8 cagePage (adOff 0 + 0x38) ∧ mayWrite adOn 8 cagePage (adOff 3 + 0x38) ∧
      (!adOn.adEn 0 && !adOn.rb cagePage (hgOff 0 + 0x4C) 8) = false ∧ (!adOn.adEn 3 && !adOn.rb cagePage (hgOff 3 + 0x4C) 8) = true) := by
  decide +kernel

theorem witness_AdaptStepAndDecision :
    (let s := adOn
     let u := ((s.setAdFlag 0 0 false).setAdFlag 0 1 false).setAdFlag 0 2 false
     let w := u.stBytes (u.adBlock 0) (u.adBlockBytes 0 0 (s.slotHdr 0 true 0))
     let list := slotField (w.desc (w.hgSlot 0)) 0x50
     let fs := (w.partFaces (w.hgPart 0)).filter fun f => w.pageOn (w.facePg f)
     s.refSlot 0 = some 0 ∧ s.adEn 0 = true ∧ s.hgEn 0 = true ∧ (s.ad 0).phase = 0 ∧ s.replayStop = false ∧
       (s.ad 0).edge = none ∧ s.hBit (s.slotHdr 0 true 0) 2 = false ∧ s.oldBusy 0 = false ∧
       s.rb cagePage (adOff 0) 1 = false ∧ w.slotHandle (w.rf cagePage (adOff 0) 29 24) = some 5 ∧ (w.ctx 5).active = false ∧ (w.ctx 5).cls ≤ 1 ∧
       w.ueIn list (w.listBytes (some 5) list) = none ∧ w.testing fs = false ∧ w.launchCheck (some 5) fs list true = 0 ∧ w.partRetired (w.hgPart 0) = false) ∧
    (let s := adOn.modAd 0 fun x => { x with phase := 1, edge := some true }
     s.adEn 0 = true ∧ s.replay = false ∧ (s.ad 0).phase ≠ 2 ∧ (s.ad 0).edge = some true ∧ (s.ad 0).mismatch = false ∧
       NMap.find s.lateSeen (s.ad 0).step = none ∧ s.commitPassed 0 (s.adSwitch 0 (s.ad 0).step) = false) ∧
    (let s := adOn.modAd 0 fun x => { x with edge := some false }
     s.adEn 0 = true ∧ s.replay = false ∧ (s.ad 0).phase ≠ 2 ∧ (s.ad 0).edge = some false ∧ s.remoteLate 0 = false) := by
  decide +kernel

/-- A request of two elements of ADD_I16 stands at the launch block of `adOn`, with its buffer in the first gallery. -/
def reducing : State := put (galBase + 0x8000 + 0x44) 1 2 (adOn.setAdFlag 0 1 true)

theorem witness_Reducer :
    (let s := reducing.wr cagePage 0x500 0x041
     let q := s.redReq 0
     s.adGroups = [(0 : Fin 4).val] ∧ s.red = none ∧ s.redWait = [] ∧ s.adFlag 0 1 = true ∧ q.2.2.1 ≤ 1 ∧ 1 ≤ q.2.2.2.1 ∧ q.2.2.2.1 ≤ 4194304 ∧
       s.ueIn q.2.2.2.2 (q.2.2.2.1 * redWidth q.2.2.1) = none ∧ s.mirror = false ∧ fld (s.rd cagePage 0x500) 2 0 ≠ 0) ∧
    (let job : RedJob := { step := 0, seq := 0, op := 0, elems := 2, bufs := [galBase], localSum := leBytes 4 7, total := [(0, leBytes 4 9)] }
     let s := { adOn with red := some job }
     s.adGroups = [(0 : Fin 4).val] ∧ s.red = some job ∧ job.bufs = [galBase] ∧
       ((redPieces s.redChunk job.bytes).all fun e => (NMap.find job.total (e.1 + e.2.1)).isSome) = true ∧ memoryGood s ∧ noErrors s) := by
  decide +kernel

/-! ### Units, partitions and contexts -/

/-- A launch at the page of stope 0 in a state of the loader. -/
def launchAt (state : Nat) (arm : Option Nat) (h : Nat := 0) : Launch :=
  { list := 0x10000, strict := true, bound := true, slot := 0, arm := arm, origin := 0, seed := 0, faces := List.range 16, state := state, handle := h }

theorem witness_UnitLaunchAndArm :
    (mayWrite unitRig 8 (stopePage 0) 0x058 ∧ launchable unitRig (stopePage 0) ∧ unitRig.rd64 (stopePage 0) 0x068 ≤ unitRig.gcount ∧
      unitRig.rf (stopePage 0) 0x01C 15 0 = 0) ∧
    (unitRig.wr (stopePage 0) 0x068 1).gcount < (unitRig.wr (stopePage 0) 0x068 1).rd64 (stopePage 0) 0x068 ∧
    (pageUnit (stopePage 0) = true ∧ rig.en (stopePage 0) = false) ∧
    (let s := unitRig.wr (diePage 0) 0x008 1
     s.en (diePage 0) = true ∧ s.quiet (diePage 0) = false ∧ s.unitFaces (diePage 0) ≠ [] ∧ s.unitRetired (diePage 0) = false ∧
       s.groupFault (diePage 0) = 0x1001) ∧
    (let s := { unitRig with launches := [((stopePage 0), launchAt 1 none)] }
     s.groupFault (stopePage 0) = 0 ∧ s.activeFaces (stopePage 0) ≠ [] ∧
       (s.partOf ((unitStopes (stopePage 0)).headD 0)).any s.partRetired = false ∧ s.groupLaunch (stopePage 0) false = none ∧
       (s.unitState (stopePage 0)).1 ≠ 0 ∧ (s.unitState (stopePage 0)).1 ≠ 4) ∧
    (let s := { unitRig.wr (facePage 0) 0x008 1 with launches := [((stopePage 0), launchAt 1 none)] }
     let p := facePage 0
     mayWrite s 8 p 0x058 ∧ pageUnit p = true ∧ s.rf p 0x01C 15 0 = 0 ∧ s.en p = true ∧ s.quiet p = false ∧ s.unitFaces p ≠ [] ∧
       s.unitRetired p = false ∧ s.groupFault p = 0 ∧ s.activeFaces p ≠ [] ∧ (s.partOf ((unitStopes p).headD 0)).any s.partRetired = false ∧
       (s.groupLaunch p false).isSome = true) := by decide

theorem witness_UnitStopAndBind :
    (let l := launchAt 2 (some 9)
     let s := { unitRig with launches := [((stopePage 0), l)] }
     pageUnit (stopePage 0) = true ∧ NMap.rising s.launches = true ∧ mayWrite s 8 (stopePage 0) 0x058 ∧ s.en (stopePage 0) = true ∧
       s.unitFaces (stopePage 0) ≠ [] ∧ s.unitRetired (stopePage 0) = false ∧ NMap.find s.launches (stopePage 0) = some l ∧
       l.waiting = true ∧ l.arm.isSome = true) ∧
    (let s := { unitRig with launches := [((stopePage 0), launchAt 5 none)] }
     s.groupLaunch (stopePage 0) true = none ∧ (s.failedLoad (stopePage 0)).isSome = true) ∧
    (let s := { unitRig with launches := [((stopePage 0), launchAt 3 none 5)], ctxs := [(5, { state := 3, wmask := 3 })] }
     s.groupLaunch (stopePage 0) true = none ∧ s.failedLoad (stopePage 0) = none ∧ s.boundHandle (stopePage 0) = some 5 ∧ s.resident 5 = true ∧ (s.ctx 5).state ≠ 0 ∧ (s.ctx 5).state ≠ 6) ∧
    (let s := { (unitRig.wr (facePage 0) 0x008 1) with launches := [((stopePage 0), launchAt 3 none 5)], ctxs := [(5, { state := 3, wmask := 3 })],
                                                       runs := [(5, { site := stopePage 0, faces := List.range 16 })] }
     let p := facePage 0
     pageUnit p = true ∧ NMap.rising s.launches = true ∧ mayWrite s 8 p 0x058 ∧ s.en p = true ∧ s.unitFaces p ≠ [] ∧ s.unitRetired p = false ∧
       (s.groupLaunch p true).map (·.1) = some (stopePage 0) ∧ s.resident 5 = true) ∧
    (mayWrite unitRig 8 (stopePage 0) 0x054 ∧ unitRig.unitLocked (stopePage 0) = false) ∧
    ({ unitRig with launches := [((stopePage 0), launchAt 1 none)] } : State).unitLocked (stopePage 0) = true := by decide

theorem witness_LoadStartAndFinish :
    (let l := launchAt 1 none 5
     let s := { unitRig with launches := [((stopePage 0), l)] }
     NMap.rising s.launches = true ∧ NMap.find s.launches (stopePage 0) = some l ∧ l.bound = true ∧ l.handle = 5 ∧ s.resident 5 = true ∧
       ((s.ctx 5).state = 1 ∨ (s.ctx 5).state = 5) ∧ (s.ctx 5).cls ≤ 1 ∧ l.state = 1 ∧
       (s.loadBad (some 5) l.faces l.list).isNone = true ∧ s.launchCheck (some 5) l.faces l.list l.strict = 0 ∧ l.arm = none) ∧
    ((launchAt 1 (some 9)).arm = some 9) ∧
    ((put 0x10000 1 0 unitRig).loadBad (some 5) (launchAt 1 none).faces 0x10000).isNone = true ∧ (put 0x10000 1 0 unitRig).launchCheck (some 5) (launchAt 1 none).faces 0x10000 true ≠ 0 ∧ stopePage 0 ≠ sumpPage ∧
    (let l := launchAt 2 (some 0) 5
     let s := { unitRig with launches := [((stopePage 0), l)] }
     l.handle = 5 ∧ l.jumped = none ∧ 0 ≤ s.gcount ∧ ((s.ctx 5).state = 1 ∨ (s.ctx 5).state = 5)) ∧
    (let s := running [0x01] { stopped := true }
     s.faceCtx 0 = some 5 ∧ s.resident 5 = true ∧ (s.face 0).stopped = true ∧ (s.face 0).issued = [] ∧ (s.face 0).finished = false ∧
       ((s.run 5).faces.all fun g => ((s.setFace 0 { s.face 0 with finished := true }).face g).finished) = false ∧
       ((s.run 5).faces.all fun g => (((s.setFace 1 { s.face 1 with finished := true }).setFace 0 { s.face 0 with finished := true }).face g).finished)
         = true) := by decide

theorem witness_PartitionsAndWindows :
    (let s := (rig.wr devPage 0x008 1).wr devPage 0x054 0x100
     mayWrite s 8 devPage 0x1A0 ∧ partLaunchable s 0 ∧ s.gcount < (s.wr devPage 0x068 1).rd64 devPage 0x068) ∧
    (let l := launchAt 2 (some 9)
     let s := { (rig.wr devPage 0x008 1).wr devPage 0x054 0x100 with launches := [(partSite 0 0, l)] }
     s.en devPage = true ∧ s.partStopes 0 ≠ [] ∧ NMap.rising s.launches = true ∧ NMap.find s.launches (partSite 0 (s.rf devPage 0x054 5 0)) = some l ∧
       l.waiting = true ∧ l.arm.isSome = true ∧ s.boundHandle devPage = some 5 ∧ s.resident 5 = true ∧ (s.ctx 5).part = 0 ∧ (s.ctx 5).state ≠ 0 ∧
       (s.ctx 5).state ≠ 6) ∧
    (launchAt 3 none).state = 3 ∧ (rig.partStopes 31 = [] ∧ rig.rf devPage 0x01C 15 0 = 0) ∧
    ((regAt devPage 0x100).isSome = true ∧ (regAt devPage 0x17C).isSome = true ∧ mayWrite rig 8 devPage 0x100 ∧ mayWrite rig 8 devPage 0x184 ∧
      (rig.window 1).base < 2 ^ 64 ∧ (rig.window 1).limit < 2 ^ 64 ∧ (rig.window 1).attr < 2 ^ 32) := by decide

/-- No context command is in progress and the device page is not quiesced; CTX_IDX names a handle. -/
def ctxReady (s : State) : Bool :=
  decide (mayWrite s 8 devPage 0x1A8) && s.ctxCmd.isNone && !s.quiet devPage && decide (noErrors s) && decide (memoryGood s) && NMap.rising s.ctxs

theorem witness_ContextCommands :
    (let s := (rig.wr devPage 0x1A4 5).wr devPage 0x1C8 50
     ctxReady s = true ∧ s.rf devPage 0x1A4 9 0 = 5 ∧ s.resident 5 = true ∧ (s.ctx 5).state = 1 ∧ sliceOk (s.ctx 5).cls s.stagedCtx.slice = true ∧
       s.wmaskOk (s.ctx 5).part s.stagedCtx.wmask = true ∧ (s.ctx 5).cls = 0 ∧ s.inSwitch 5 = false ∧ s.ctxErr 2 5 ≠ 0 ∧ s.ctxErr 5 5 ≠ 0 ∧
       s.ctxErr 3 5 = 0) ∧
    (let s := (rig.wr devPage 0x1A4 1023).wr devPage 0x1C8 100000
     ctxReady s = true ∧ s.rf devPage 0x1A4 9 0 = 1023 ∧ s.resident 1023 = false ∧ (s.ctx 1023).state = 0 ∧ s.slotFree s.stagedCtx.part = true ∧
       s.entryOk s.stagedCtx = true ∧ s.ctxErr 3 1023 ≠ 0 ∧ s.ctxErr 4 1023 ≠ 0 ∧ s.ctxErr 6 1023 ≠ 0) ∧
    (let s := put (rig.handleAddr 6) 64 ((({ state := 1 } : Ctx).words 6 false).foldr (fun w a => w + 2 ^ 32 * a) 0)
       ((rig.wr devPage 0x1A4 6).wr devPage 0x1C8 50)
     ctxReady s = true ∧ s.rf devPage 0x1A4 9 0 = 6 ∧ s.resident 6 = false ∧ (s.ctx 6).state = 1 ∧ s.slotFree (s.ctx 6).part = true ∧
       (s.part (s.ctx 6).part).ready = [] ∧ sliceOk (s.ctx 6).cls s.stagedCtx.slice = true ∧ s.wmaskOk (s.ctx 6).part s.stagedCtx.wmask = true) ∧
    ({ rig with ctxCmd := some 5 } : State).ctxCmd.isSome = true := by decide +kernel

/-- Context 5 runs, and context 7 of the same partition is READY. -/
def twoContexts : State :=
  let s := running [0x11 + 2 ^ 24]
  { s with ctxs := [(5, { state := 3, wmask := 3 }), (7, { state := 2, slot := 1 })], faces := [(0, { pc := 1, hold := .wait }), (1, { finished := true })] }

theorem witness_ContextsTakeTurns :
    (twoContexts.runningAsync 0 = some 5 ∧ twoContexts.resident 5 = true ∧ (twoContexts.tally devPage 0x14).nextAsync 0 = some 7) ∧
    ((running [0x01]).tally devPage 0x14).nextAsync 0 = none ∧ (twoContexts.waitSet 5).isSome = true ∧
    (let s := { rig with ctxs := [(5, { state := 4 })], runs := [(5, { waits := [(2, 4095, 0, false)] })] }
     s.resident 5 = true ∧ (s.ctx 5).state = 4 ∧ (s.part (s.ctx 5).part).outgoing ≠ some 5 ∧ (s.run 5).waits.any s.waitHolds = true ∧
       ({ s with runs := [(5, { waits := [(2, 4095, 0, true)] })] } : State).waitHolds (2, 4095, 0, true) = false) := by decide

theorem witness_SwitchCompletes :
    let s := { running [0x01] with parts := [(0, { switching := true, incoming := some 5 })] }
    (s.part 0).switching = true ∧ (s.part 0).held = false ∧ (s.part 0).outgoing = none ∧ (s.part 0).incoming = some 5 ∧ s.resident 5 = true ∧
      (s.run 5).saved = false ∧ (s.run 5).faces.Nodup ∧ (∀ f ∈ (s.run 5).faces, f < 512) ∧ memoryGood s := by decide

theorem witness_BatchRequests :
    mayWrite rig 8 devPage 0x1B8 ∧ rig.batchReqs.length < 32 ∧ batchRefusal rig (batchStaged rig) ≠ 0 ∧
    batchRefusal (rig.wr devPage 0x208 1) (batchStaged (rig.wr devPage 0x208 1)) = 0 ∧
    32 ≤ ({ rig with batchReqs := List.replicate 32 (batchStaged rig) } : State).batchReqs.length := by decide

/-! ### Words of a work list -/

theorem witness_ControlWords :
    (∀ w ∈ [0x00, 0x0F, 0x08, 0x09, 0x01, 0x02 + 65535 * 2 ^ 32, 0x03, 0x04, 0x05, 0x06 + 7 * 2 ^ 24, 0x07, 0xF0, 0xFF, 0x02],
      issues (running [w]) 0 5 w) ∧
    (loopCount ((running [0x02]).face 0).xs (0x02 + 65535 * 2 ^ 32) ≤ 65535 ∧ loopCount ((running [0x02]).face 0).xs 0x02 = 0) ∧
    (let s := running [0x05]
     (s.ctx 5).batch = false ∧ s.resident 5 = true ∧ (s.ctx 5).state ≠ 0 ∧ (s.ctx 5).state ≠ 6 ∧
       ({ s with ctxs := [(5, { s.ctx 5 with batch := true })] } : State).faceCtx 0 = some 5 ∧
       (1 ∈ (s.run 5).faces ∧ (1 : Nat) ≠ 0 ∧ (s.face 1).hold ≠ .step)) := by decide

theorem witness_ReleasedWordIssues :
    let w := 0x200 + 2 ^ 10
    let s := { running [w] with faces := [(0, { pc := 1, lflags := 2 })] }
    issues s 0 5 w ∧ wW w = true ∧ issueRow 0 (wOp w) = some (.nop 0) := by decide

/-- An operation that face 0 has issued at position 1. -/
def opOf (w : Nat) (d : List Byte := []) : Op :=
  { pos := 1, word := w, lcs := [0, 0, 0, 0], xs := List.replicate 8 0, step := 0, done := false, begun := false, progress := 0, data := d }

theorem witness_FlagsBarriersAndLoads :
    (∀ w ∈ [0x0A, 0x11 + 2 ^ 26, 0x12 + 15 * 2 ^ 24, 0x10 + 2 ^ 42, 0x10, 0xA1], issues (running [w]) 0 5 w ∧
      hazard ((running [w]).face 0) w [] = false) ∧
    (fsOk (List.replicate 8 0) 0x0A 27 4 4 = true ∧ fsOk (List.replicate 8 0) 0xA1 24 8 8 = true) ∧
    ((sigFlag (List.replicate 8 0) (0x11 + 2 ^ 26)).listed = true ∧ (running [0x10]).flagOutside 5 (sigFlag (List.replicate 8 0) 0x10) = false ∧
      (sigFlag (List.replicate 8 0) 0x10).listed = true) ∧
    memoryGood (running [0xA1]) ∧
    (let s := running [0x0A] { hold := .xld }
     s.faceCtx 0 = some 5 ∧ s.nextWord 0 5 = 0x0A ∧ (s.face 0).hold = .xld ∧ s.ueIn (fsAddr 0 (fsEff (s.face 0).xs 0x0A 27)) 4 = none) ∧
    (let w := 0x11 + 2 ^ 41 + 2 ^ 42
     let s := running [w] { hold := .wait }
     s.nextWord 0 5 = w ∧ (s.face 0).hold = .wait ∧ s.flag 0 (sigFlag (s.face 0).xs w) = !bit w 41 ∧ (sigFlag (s.face 0).xs w).space = 0 ∧
       bit w 42 = true) ∧
    (let s := running [0x00] { issued := [opOf 0x10] }
     s.faceCtx 0 = some 5 ∧ (s.face 0).issued = opOf 0x10 :: [] ∧ wOp (opOf 0x10).word = 0x10) ∧
    (let s := { running [0x12] with faces := [(0, { pc := 1, hold := .bar 0 }), (1, { pc := 1, hold := .bar 0 })] }
     (s.run 5).faces ≠ [] ∧ (s.run 5).faces.Nodup ∧ (∀ g ∈ (s.run 5).faces, s.faceCtx g = some 5 ∧ (s.face g).hold = .bar 0)) := by decide

/-! ### Matrix, lattice, quantisation and copy words -/

/-- A tap descriptor of an image of 16 by 16 positions of one channel block, 1 by 1 kernel. -/
def tapDesc : List Byte :=
  leBytes 4 0x00015441 ++ leBytes 4 0 ++ leBytes 4 0 ++ leBytes 4 0 ++ leBytes 4 0x00100010 ++ leBytes 4 0 ++ leBytes 4 0x100 ++
    leBytes 4 0x11 ++ leBytes 4 0x00111100 ++ leBytes 28 0

theorem witness_MatrixWords :
    (∀ w ∈ [0x20, 0x21, 0x22, 0x28 + 3 * 2 ^ 24, 0x29 + 3 * 2 ^ 26, 0x80, 0x81], issues (running [w]) 0 5 w ∧ matrixQueue ((running [w]).face 0) < 8 ∧
      hazard ((running [w]).face 0) w [] = false) ∧
    (∀ w ∈ [0x20, 0x21, 0x22], mmaCheck (List.replicate 8 0) w [] = 0) ∧ drainCheck (List.replicate 8 0) (0x29 + 3 * 2 ^ 26) = 0 ∧
    (let s := { running [0x80] with mem := Memory.writeBytes (running [0x80]).mem (fsAddr 0 0) tapDesc }
     fsOk (s.face 0).xs 0x80 25 64 64 = true ∧ s.ueIn (fsAddr 0 (fsEff (s.face 0).xs 0x80 25)) 64 = none ∧
       tapOk (s.ldBytes (fsAddr 0 (fsEff (s.face 0).xs 0x80 25)) 64) = true ∧ (s.face 0).taps.length = 2) ∧
    (∀ w ∈ [0x82, 0x83], let x : FaceSt := { taps := [{ desc := some tapDesc }, {}] }
      let d := tapDesc ++ leBytes 4 0 ++ leBytes 1 1
      issues (running [w] x) 0 5 w ∧ tapData x (fld w 53 53) = some d ∧ hazard x w d = false ∧ mmaCheck x.xs w d = 0) ∧
    (completes (running [0] { issued := [opOf 0x20] }) 0 5 0 (opOf 0x20) isMatrixOp) ∧
    (let s := running [0] { issued := [opOf 0x29] }
     completes s 0 5 0 (opOf 0x29) (· == 0x29) ∧ drainInvalid s 0 0x29 (List.replicate 8 0) = false ∧ memoryGood s) := by decide

theorem witness_MatrixWords_queue :
    (let x : FaceSt := { issued := [{ opOf 0x29 with begun := true }] }
     queueSettled x ∧ (x.issued[1]?.any fun o => inMatrixQueue (wOp o.word)) = false) ∧
    (let w := 0x28 + 2 * 2 ^ 24
     let x : FaceSt := { issued := [{ opOf 0x29 with begun := true }] }
     issues (running [w] x) 0 5 w ∧ matrixQueue x = 1 ∧ hazard x w [] = false ∧ queueSettled x) := by
  decide

theorem witness_MatrixStepArithmetic : NMap.rising ([(0, 5)] : NMap Int) = true ∧ isPaired 0x20 = false ∧ bit 0x20 24 = false ∧ mmaCount 0x20 = 1 := by
  decide

/-- A quantisation control record: one row of one block of 64 elements. -/
def qctl (src dst : Nat) : List Byte := leBytes 4 (src + dst * 16) ++ leBytes 4 (1 + 64 * 2 ^ 16) ++ leBytes 4 1 ++ leBytes 4 0

/-- Face 0 issues a word, its store beginning with the bytes `d`. -/
def withStore (w : Nat) (d : List Byte) (x : FaceSt := {}) : State :=
  { running [w] x with mem := Memory.writeBytes (running [w] x).mem (fsAddr 0 0) d }

theorem witness_LatticeWords :
    (∀ w ∈ [0x40, 0xA0], issues (running [w]) 0 5 w ∧ latticeBusy ((running [w]).face 0) = false ∧ hazard ((running [w]).face 0) w [] = false) ∧
    (fsOk (List.replicate 8 0) 0x40 26 64 2048 = true ∧ fsOk (List.replicate 8 0) 0xA0 24 64 (rngCount 0xA0 * rngWidth 0xA0) = true) ∧
    (∀ w ∈ [0x41, 0x42], let x : FaceSt := { cfgs := List.replicate 4 { bytes := List.replicate 64 0, valid := true } }
      issues (running [w] x) 0 5 w ∧ x.cfgValid (fld w 25 24) = true ∧ x.cfgValid x.cfgSel = true ∧ hazard x 0x42 (leBytes 1 x.cfgSel) = false ∧
        latCheck x.xs 0x42 (x.cfg x.cfgSel) = 0) := by decide

theorem witness_LatticeWords_issueQuant :
    (∀ e ∈ [(0x60 + 2 ^ 10 * 2 ^ 38 + 2 ^ 12 * 2 ^ 59, qctl 5 0x9), (0x61 + 2 ^ 10 * 2 ^ 50 + 2 ^ 12 * 2 ^ 71, qctl 5 0x9),
        (0x63 + 2 ^ 10 * 2 ^ 50, qctl 0x9 0x9)],
      let s := withStore e.1 e.2
      issues s 0 5 e.1 ∧ hazard (s.face 0) e.1 (s.ldBytes (fsAddr 0 (qCtlOff e.1)) 16) = false ∧ s.ueIn (fsAddr 0 (qCtlOff e.1)) 16 = none ∧
        quantCheck (Qctl.of (s.ldBytes (fsAddr 0 (qCtlOff e.1)) 16)) (s.face 0).xs e.1 = 0) ∧
    (issues (running [0x62]) 0 5 0x62 ∧ hazard {} 0x62 [] = false ∧ escCheck (List.replicate 8 0) 0x62 [] = 0 ∧ bit 0x62 119 = false) := by decide +kernel

theorem witness_LatticeWords_ends :
    (∀ w ∈ [0x40, 0x42, 0x60, 0x62, 0xA0], completes (running [0] { issued := [opOf w (qctl 5 0x9)] }) 0 5 0 (opOf w (qctl 5 0x9)) (· == w)) ∧
    (memoryGood (running [0]) ∧ (cfgStream (List.replicate 64 0) 2).fmt ≤ 7 ∧ (cfgStream (List.replicate 64 0) 3).fmt ≤ 7 ∧
      bankPending [opOf 0x62] = false ∧ (escEntries (running [0]) 0 0x62 (List.replicate 8 0)).2 = 0 ∧ (opOf 0xA0).progress ≤ rngCount 0xA0) := by
  decide

/-- The bytes of a configuration in which every node is idle. -/
def idleCfg : List Byte := [0x54, 0x4C, 1, 0] ++ List.replicate 2044 0#8

theorem leNat_zeros (n : Nat) : leNat (List.replicate n 0#8) = 0 := by
  induction n with
  | zero => rfl
  | succ n ih => simp [List.replicate_succ, leNat, ih]

theorem sliceL_idle (o k : Nat) (h : 4 ≤ o) : ∃ m, sliceL idleCfg o k = List.replicate m 0#8 := by
  have e : List.drop o ([0x54, 0x4C, 1, 0] : List Byte) = [] := List.drop_eq_nil_of_le (by simpa using h)
  refine ⟨min k (2044 - (o - 4)), ?_⟩
  unfold sliceL idleCfg
  rw [List.drop_append, e, List.nil_append, List.drop_replicate, List.take_replicate]
  rfl

theorem leAt_idle (o k : Nat) (h : 4 ≤ o) : leAt idleCfg o k = 0 := by
  obtain ⟨m, hm⟩ := sliceL_idle o k h
  rw [leAt, hm, leNat_zeros]

theorem slotWord_idle (n sl : Nat) : cfgSlotWord idleCfg n sl = SlotWord.of 0 := by rw [cfgSlotWord, leAt_idle _ _ (by omega)]

theorem stream_idle (k : Nat) : cfgStream idleCfg k = ⟨0, 0, 0, 0, 0, 0⟩ := by
  simp only [cfgStream, leAt_idle _ _ (show 4 ≤ 0x10 + 32 * k by omega), leAt_idle _ _ (show 4 ≤ 0x10 + 32 * k + 2 by omega),
    leAt_idle _ _ (show 4 ≤ 0x10 + 32 * k + 3 by omega), leAt_idle _ _ (show 4 ≤ 0x10 + 32 * k + 4 by omega),
    leAt_idle _ _ (show 4 ≤ 0x10 + 32 * k + 8 by omega), leAt_idle _ _ (show 4 ≤ 0x10 + 32 * k + 12 by omega)]
  decide

theorem cfgOk_idle : cfgOk idleCfg = true := by
  have hr : cfgReservedOk idleCfg = true := by
    simp only [cfgReservedOk, slotWord_idle]
    decide +kernel
  have hs : cfgSlotsOk idleCfg = true := by
    simp only [cfgSlotsOk, slotWord_idle]
    decide +kernel
  have hb : cfgBusOk idleCfg = true := by
    simp only [cfgBusOk, slotWord_idle]
    decide +kernel
  have ht : cfgStreamsOk idleCfg = true := by
    simp only [cfgStreamsOk, stream_idle]
    decide +kernel
  simp only [cfgOk, hr, hs, hb, ht]
  decide +kernel

/-- Face 0 has issued a CFG.LOAD of the bytes `bs`. -/
def cfgLoading (bs : List Byte) : State :=
  let s := running [0] { issued := [opOf 0x40] }
  { s with mem := Memory.writeBytes s.mem (fsAddr 0 0) bs }

theorem cfgLoading_bytes (bs : List Byte) : (cfgLoading bs).fsBytes 0 0 bs.length = bs :=
  Memory.readBytes_writeBytes (running [0] { issued := [opOf 0x40] }).mem (fsAddr 0 0) bs (by decide)

theorem witness_LatticeWords_cfg :
    cfgOk ((cfgLoading idleCfg).fsBytes 0 (fsEff (opOf 0x40).xs 0x40 26) 2048) = true ∧ ((cfgLoading idleCfg).face 0).cfgs.length = 4 := by
  have hl : idleCfg.length = 2048 := by decide +kernel
  have he : fsEff (opOf 0x40).xs 0x40 26 = 0 := by decide
  have h := cfgLoading_bytes idleCfg
  rw [hl] at h
  rw [he, h]
  exact ⟨cfgOk_idle, rfl⟩

theorem witness_LatticeWords_quant :
    let w := 0x61 + 2 ^ 10 * 2 ^ 50 + 2 ^ 12 * 2 ^ 71
    let o := opOf w (qctl 5 0x9)
    let s := running [0] { issued := [o] }
    completes s 0 5 0 o (fun p => p == 0x60 || p == 0x61 || p == 0x63) ∧ memoryGood s ∧ wOp w ≠ 0x60 ∧ s.resident 5 = true ∧
      (Qctl.of o.data).isBack = false ∧ (quantSteps 0 w o.xs (Qctl.of o.data) (qStep (Qctl.of o.data) w o.progress) (qSteps (Qctl.of o.data) w) { s := s, dec := o.dec }).bad = false := by decide +kernel

/-! ### Copies and the raster pipeline -/

/-- A copy descriptor of 64 bytes in one row: from the gallery of drift 0 at 0x1000 into the face store at 0x2000. -/
def copyDesc (kind : Nat) : List Byte :=
  leBytes 32 (galBase + 0x1000 + 0x2000 * 2 ^ 40 + kind * 2 ^ 80 + 2 ^ 85 + 64 * 2 ^ 88)

theorem witness_CopyWordsIssue :
    (∀ e ∈ [(0x70, 1), (0x71, 2), (0x72, 3), (0x73, 4)], let s := withStore e.1 (copyDesc e.2)
      let d := s.fsBytes 0 (fsEff (s.face 0).xs e.1 24) 32
      issues s 0 5 e.1 ∧ copiesOut (s.face 0) < 16 ∧ hazard (s.face 0) e.1 [] = false ∧ fsOk (s.face 0).xs e.1 24 32 32 = true ∧
        (bit e.1 48 && s.flagOutside 5 (hoistDoneRef e.1)) = false ∧ s.ueIn (fsAddr 0 (fsEff (s.face 0).xs e.1 24)) 32 = none ∧
        s.hoistQueued (jobHoist 0 e.1 (leNat d)) = 0 ∧ (s.hoistWaiters (jobHoist 0 e.1 (leNat d))).length = 0) ∧
    (let s := running [0xA2]
     issues s 0 5 0xA2 ∧ s.hoistQueued (adduHoist 0) + s.hoistBefore (adduHoist 0) 0 < 32 ∧ fsOk (s.face 0).xs 0xA2 24 64 (4 * (fld 0xA2 83 72 + 1)) = true ∧
       (bit 0xA2 86 && s.flagOutside 5 (adduDoneRef 0xA2)) = false) := by decide +kernel

/-- A copy or GALLERY.ADDU of face 0 that waits in a hoist, or has been taken. -/
def jobOf (w : Nat) (d : List Byte) (taken : Bool) : HoistJob :=
  { id := 0, face := 0, handle := 5, pos := 1, word := w, desc := d, doff := 0, taken := taken, begun := taken }

/-- Context 5 runs, and a hoist holds one job. -/
def hoisting (k : Nat) (j : HoistJob) : State := { running [0] with hoists := [(k, [j])] }

theorem witness_CopyWordsIssue_full :
    let s := { withStore 0x70 (copyDesc 1) with hoists := [(0, List.replicate 32 (jobOf 0x70 (copyDesc 1) false))] }
    let d := s.fsBytes 0 (fsEff (s.face 0).xs 0x70 24) 32
    issues s 0 5 0x70 ∧ copiesOut (s.face 0) < 16 ∧ 32 ≤ s.hoistQueued (jobHoist 0 0x70 (leNat d)) + s.hoistBefore (jobHoist 0 0x70 (leNat d)) 0 := by
  decide +kernel

theorem witness_HoistsMoveBytes :
    (let j := jobOf 0xA2 [] false
     let s := hoisting 1 j
     (s.hoist 1).find? (fun j => !s.quiet (hoistPage 1) && !j.taken && s.faceCtx j.face == some j.handle) = some j ∧ wOp j.word = 0xA2 ∧
       adduCheck s j = 0) ∧
    (let j := jobOf 0x70 (copyDesc 1) false
     let s := hoisting 0 j
     (s.hoist 0).find? (fun j => !s.quiet (hoistPage 0) && !j.taken && s.faceCtx j.face == some j.handle) = some j ∧ wOp j.word ≠ 0xA2 ∧
       ((Copy.of (leNat j.desc)).kind == 3 && !(Copy.of (leNat j.desc)).zero) = false ∧ copyCheck s 0 j [] = 0 ∧ copyPorts j [] = [] ∧ startable (s.hoist 0) [] = []) ∧
    (let j := jobOf 0x70 (copyDesc 1) true
     let s := hoisting 0 j
     readyJob (s.hoist 0) [] = some j ∧ noErrors s ∧ memoryGood s ∧ j.void = false ∧ j.reading = false ∧ (Copy.of (leNat j.desc)).kind ≠ 4 ∧
       copyRows (Copy.of (leNat j.desc)) j.idx = [(((galBase + 0x1000 : Nat) : Int), 0x2000)] ∧ remotePort (endAddr j.face (Copy.of (leNat j.desc)).dstFs 0x2000) = none) ∧
    (let j := jobOf 0xA2 [] true
     let s := hoisting 1 j
     (s.hoist (adduHoist 0)).find? (fun j => j.taken && wOp j.word == 0xA2 && j.face == 0) = some j ∧
       ((adduRange j.word).1 + (adduRange j.word).2 ≤ fsAddr 0 j.doff ∨ fsAddr 0 j.doff + (adduRange j.word).2 ≤ (adduRange j.word).1)) := by
  decide

/-- A raster descriptor of one rectangle over a surface of one screen tile, with CLEAR as given. -/
def rasDescOf (clear : Nat) : List Byte :=
  [0x00015241, clear, 0x20000, 0, 1, 0x00200020, 0x24000, 0, 0, 0, 0x25000, 0, 0x21000, 0, 0x30000, 0, 1, 0, 0, 0, 0x00200020, 0, 0, 0,
    0, 0, 0x00010000, 2, 0x22000, 0, 0, 0].flatMap (leBytes 4)

/-- A job of a descriptor whose one tile is binned. -/
def rasJobOf : RasJob := { desc := rasDescOf 0, binned := true, lists := [(0, [0])], todo := [0] }

/-- Face 0 holds on a raster word, and the tiler of its die runs a job. -/
def rasRun (w : Nat) (j : Option RasJob) : State := { running [w] { hold := .ras } with tilers := [(0, { job := j })] }

/-- Face 0 owns tile 0 of the job. -/
def ownJob (idx : Nat) : RasJob := { rasJobOf with todo := [], owners := [{ tile := 0, handle := 5, face := 0, last := 0, idx := idx }] }

theorem witness_RasterWordsAndJobs :
    (let s := { running [0x90] with tilers := [(0, { job := some rasJobOf })] }
     issues s 0 5 0x90 ∧ hazard (s.face 0) 0x90 [] = false ∧ s.ownedTile 5 0 = none ∧ (s.ctx 5).part = rasPart rasJobOf.desc ∧
       fsOk (s.face 0).xs 0x90 24 64 64 = true) ∧
    (∀ p ∈ [(0x91, 64, 128), (0x92, 1, 64)], let s := { running [p.1] with tilers := [(0, { job := some (ownJob 0) })] }
      issues s 0 5 p.1 ∧ hazard (s.face 0) p.1 [] = false ∧ (s.ownedTile 5 0).isSome = true ∧
        fsOk (s.face 0).xs p.1 24 p.2.1 p.2.2 = true) ∧
    (let s := rasRun 0x90 none
     s.faceCtx 0 = some 5 ∧ (s.face 0).hold = .ras ∧ s.nextWord 0 5 = 0x90 ∧ noErrors s ∧ memoryGood s ∧ (s.tiler 0).job = none) ∧
    (let s := rasRun 0x90 (some rasJobOf)
     let d := rasJobOf.desc
     rasJobOf.status = 0 ∧ (s.ctx 5).part = rasPart d ∧ rasJobOf.binned = true ∧ rasJobOf.todo = 0 :: [] ∧ rasJobOf.owner 5 0 = none ∧
       rasBlock s d [(rasAddr d 0x38 + 8 * 0, 8), listBlock rasJobOf 0 0, (rasAddr d 0x30 + 0 / 8, 1)] [] = none ∧ rasBlock s d (if clearBit s d 0 then [] else surfaceRows d 0) [] = none ∧
       ((workPlanes d).any fun r => decide (0x40000 < r.1 + r.2)) = false ∧ NSet.has rasJobOf.stored 0 = false) := by decide

theorem witness_RasterWordsAndJobs_ends :
    (let s := rasRun 0x92 (some (ownJob 0))
     let d := rasJobOf.desc
     (s.tiler 0).job = some (ownJob 0) ∧ (ownJob 0).owner 5 0 = (ownJob 0).owners.head? ∧ (ownJob 0).paused = false ∧
       rasBlock s d [] (storeRanges d 0) = none) ∧
    (mayWrite rig 8 (tilerPage 1) 0x104 ∧ mayWrite rig 8 (tilerPage 1) 0x110 ∧ (rig.tiler 1).queue.length < 4 ∧
      4 ≤ (({ rig with tilers := [(1, { queue := [64, 128, 192, 256] })] } : State).tiler 1).queue.length) ∧
    (let s := { rig with tilers := [(0, { queue := [0x18000] })], gflags := [0], mem := Memory.writeBytes rig.mem 0x18000 (rasDescOf 0) }
     let d := s.ldBytes 0x18000 128
     (s.tiler 0).job = none ∧ (s.tiler 0).queue = 0x18000 :: [] ∧ s.quiet (tilerPage 0) = false ∧
       s.gflag (rasFlag d 0x68 0).1 (rasFlag d 0x68 0).2 = true ∧ noErrors s ∧ memoryGood s ∧ rangeInMemory 0x18000 128 = true ∧ rasDescOk d = true ∧ rasAllow s d 1 0x18000 128 = true ∧ rasClear d = false ∧
       rasFlag d 0x6C 0 ≠ rasFlag d 0x68 0 ∧ rasBlock s d [] (startTables d) = none) ∧
    (let j : RasJob := { desc := rasDescOf 0 }
     let s := { rig with tilers := [(0, { job := some j })] }
     let r := binPrims s (rasNprim j.desc + 1 - j.next) j
     j.binned = false ∧ j.status = 0 ∧ r.2 = none ∧ r.1.paused = false ∧
       rasBlock s j.desc [] [(rasAddr j.desc 0x38, 256 * (firstBlock j.desc + r.1.used))] = none) ∧
    (let j := { rasJobOf with todo := [], next := 1 }
     let s := { rig with tilers := [(0, { job := some j })] }
     (s.tiler 0).job = some j ∧ j.atEnd = true ∧ j.status < 256 ∧ (rasResolve j.desc && j.checked) = false ∧
       rasAllow s j.desc 2 (rasAddr j.desc 0x70) 64 = true ∧ rasFlag j.desc 0x6C 0 ≠ rasFlag j.desc 0x68 16) := by decide +kernel

/-- Memory with a rectangle that covers the first pixel of the screen tile. -/
def withRect (s : State) : State := put 0x20000 1 2 (put 0x20018 4 256 (put 0x2001C 4 256 s))

theorem witness_RasterWordsAndJobs_end : nextPrim (rasRun 0x91 (some (ownJob 1))) (ownJob 1) 0 [0] 2 1 = (none, none) := by rfl

theorem witness_RasterWordsAndJobs_prim :
    let s := withRect (rasRun 0x91 (some (ownJob 0)))
    (nextPrim s (ownJob 0) 0 [0] 2 0).2 = none ∧ (nextPrim s (ownJob 0) 0 [0] 2 0).1.isSome = true := by decide +kernel

/-! ### Sorters, flags, memory errors, face tests, records and replay -/

/-- A sorter's descriptor in partition 0: one candidate at 0x20000, one anchor at 0x20100, output at 0x20200, START flag 1, DONE flag 2. -/
def sortDesc0 : List Byte :=
  leBytes 4 0x0001534F ++ leBytes 4 0 ++ leBytes 8 0x20000 ++ leBytes 8 0x20100 ++ leBytes 8 0x20200 ++ leBytes 4 1 ++ leBytes 4 0x80000000 ++
    leBytes 4 0x10004 ++ leBytes 4 0x00400040 ++ leBytes 4 0x00020001 ++ leBytes 12 0

/-- The candidate of `sortDesc0`, with its anchor of 16 by 16 at (32, 32), and the descriptor at 0x20300 with its START flag set. -/
def sorting : State :=
  (put 0x20300 64 (leAt sortDesc0 0 64) (put 0x20100 8 0x0080008001000100 (put 0x20000 16 100 rig))).setG 0 1 true

theorem witness_SorterJobs :
    (mayWrite sorting 8 (sorterPage 0) 0x104 ∧ mayWrite sorting 8 (sorterPage 1) 0x110 ∧ (sorting.sorter 1).queue.length < 8 ∧
      8 ≤ (({ sorting with sorters := [(1, { queue := List.replicate 8 0 })] } : State).sorter 1).queue.length) ∧
    (let s := { sorting with sorters := [(1, { queue := [0x20300] })] }
     let d := s.ldBytes 0x20300 64
     (s.sorter 1).job = none ∧ (s.sorter 1).queue = 0x20300 :: [] ∧ s.quiet (sorterPage 1) = false ∧
       s.gflag (sortFlag d 0).1 (sortFlag d 0).2 = true ∧ rangeInMemory 0x20300 64 = true ∧ s.ueIn 0x20300 64 = none ∧ sortDescOk d = true ∧ s.sortAllow d 1 0x20300 64 = true) ∧
    (let j : SortJob := { desc := sortDesc0 }
     let s := { sorting with sorters := [(1, { job := some j })] }
     (s.sorter 1).job = some j ∧ j.status = 0 ∧ noErrors s ∧ memoryGood s ∧ (s.sortRun j.desc).kept.length = 1 ∧
       s.sortBlock j.desc (s.sortRun j.desc).kept.length = none) := by decide +kernel

theorem witness_SuppressionTakesCandidatesInOrder :
    let c : Box := ⟨9, 1, 1, 0, 0, 10, 10⟩
    let b : Box := ⟨10, 1, 0, 1, 1, 11, 11⟩
    (∀ k ∈ c :: [b], k.x0 ≤ k.x1 ∧ k.y0 ≤ k.y1) ∧ (suppressAll false 0x4000 2 [b] [] 0).1 = [b] ∧ suppresses false 0x4000 b c = true ∧
      suppresses false 0x4000 b { c with cls := 2 } = false := by decide

theorem witness_FlagsScrubsAndFaceTests :
    (mayWrite rig 8 (driftPage 7) 0x10C ∧ mayWrite rig 8 (driftPage 0) 0x110) ∧
    (rig.scrubs (galBase / 8 * 8) = true ∧ rig.eccBad.contains (galBase / 8 * 8) = false ∧ rig.eccOne.contains (galBase / 8 * 8) = false ∧ galBase / 8 * 8 + 8 ≠ dramSize ∧
      regionOf (galBase / 8 * 8) = .gallery 0) ∧
    (mayWrite rig 8 (facePage 543) 0x138 ∧ rig.rf (facePage 543) 0x138 9 8 ≠ 3 ∧ rig.logicalOf 543 = none ∧ rig.logicalOf 542 = some 511 ∧
      (rig.unitState (facePage 542)).1 = 0) ∧
    (rig.wf (facePage 543) 0x138 9 8 3).rf (facePage 543) 0x138 9 8 = 3 ∧ (rig.wf (facePage 0) 0x138 9 8 3).rf (facePage 0) 0x138 9 8 = 3 ∧
    (rig.wf (facePage 0) 0x138 9 8 3).logicalOf 0 = some 0 := by decide +kernel

theorem witness_RecordsAndDigest :
    (let s := (rig.wr cagePage 0x608 0x80000).wb cagePage 0x600 0 true
     memoryGood s ∧ s.eccBad = [] ∧ mayWrite s 8 cagePage 0x614 ∧ s.rb cagePage 0x600 0 = true ∧ NMap.find s.recGap 0 = none ∧
       s.rd cagePage 0x618 + 32 ≤ s.recSize 0 ∧ s.recFits 0 32 = true) ∧
    (mayWrite rig 8 cagePage 0x614 ∧ rig.rb cagePage 0x600 0 = false) ∧
    (let s := { rig.wb cagePage 0x600 1 true with recGap := [(1, 3)] }
     s.rb cagePage 0x600 1 = true ∧ NMap.find s.recGap 1 = some 3 ∧ s.recFits 1 32 = true ∧ s.rd cagePage (recWptr 1) + 32 ≤ s.recSize 1 ∧ NMap.rising s.recGap = true) ∧
    (mayWrite rig 8 cagePage 0x600 ∧ rig.rb cagePage 0x600 4 = bit (3 : Word).toNat 4 ∧ rig.rb cagePage 0x600 1 = false ∧ bit (3 : Word).toNat 0 = true ∧
      bit (3 : Word).toNat 1 = true) ∧
    (let s := { (rig.wr cagePage 0x100 0x10).wb cagePage 0x600 1 true with heads := [(0, { timing := 2 })] }
     s.rb cagePage 0x600 1 = true ∧ NMap.find s.recGap 1 = none ∧ s.frameSum.length = 8 ∧ s.recFits 1 64 = true ∧
       s.rd cagePage 0x62C + 64 ≤ s.recSize 1 ∧ s.rf cagePage 0x600 3 2 = (0 : Fin 4).val ∧ ((s.hgHeads 0).any fun j => decide (2 ≤ (s.head j).timing)) = true) ∧
    rig.rb cagePage 0x654 0 = false := by decide +kernel

/-- The group of `cageOn` is in replay: band 1 of frame 0 runs in context 5, whose face 0 waits for its pose flag, and the ring at 0x80000
holds one entry of a type. -/
def replaying (type : Nat) : State :=
  let s := put 0x80018 8 0x100 (put 0x80000 4 (type + 3 * 256) (listAt 0x10000 [0x11 + 2 * 2 ^ 24 + 33 * 2 ^ 26]
    (((cageOn.wb cagePage 0x600 4 true).wr cagePage 0x638 0x80000).wr cagePage 0x644 96)))
  { s with
    ctxs := [(5, { state := 3, wmask := 3 })], runs := [(5, { rigRun [0] with band := some (bandKey 0 0 1) })], parts := [(0, { running := some 5 })]
    bands := [(bandKey 0 0 1, { handle := 5, launched := true })], faces := [(0, { pc := 1, hold := .wait }), (1, { pc := 1 })] }

theorem witness_ReplayFollowsTheRecord :
    (let s := { put 0x40100 4 1 ((replaying 5).wr cagePage 0x64C 9) with heads := [(0, { timing := 2, frame := 1 })], groups := [(0, { start := some 0 })] }
     s.replay = true ∧ s.replayStop = false ∧ ¬ (s.hgK 0 ≤ 1) ∧ 1 < s.hgK 0 ∧ s.bandRuns 0 1 1 = true ∧ s.bandKnown (bandKey 0 1 1) = false ∧
       (s.bandCtx 0 (s.bandIdx 0 1)).any (fun h => (s.ctx h).active) = false ∧ s.replayHolds 0 1 1 = false ∧
       (let n := ((s.frameMap 0 1).map (·.1)).getD 0; s.hFrame (s.slotHdr 0 false (n % s.inputDepth 0)) = n)) ∧
    (let s := replaying 5
     let e : ReplayEntry := ⟨0, 5, 3, 256, 0⟩
     (s.band (bandKey 0 0 1)).latched = false ∧ s.waitsPose 0 0 1 = true ∧ s.replayPeek = some e ∧ e.type = 5 ∧ e.a1 = (0 : Word).toNat ∧
       fld e.a0 1 0 = (0 : Fin 4).val ∧ fld e.a0 15 8 = 1) ∧
    ((replaying 6).waitsPose 0 0 1 = true ∧ (replaying 6).replayPeek = some ⟨0, 6, 3, 256, 0⟩ ∧ (replaying 6).rf cagePage 0x01C 15 0 = 0) ∧
    (let s := (replaying 5).wr cagePage 0x648 96
     s.replayStop = false ∧ s.replay = true ∧ s.waitsPose 0 0 1 = true ∧ s.replayPeek = none) := by decide +kernel

/-! ### Assay, heads and ingress -/

/-- Camera port 1 and its pipeline are on, with RAW8 frames of 8 by 2 pixels. -/
def camera : State := ((rig.wr (camPage 1) 0x008 1).wr (assayPage 1) 0x008 1).wr (assayPage 1) 0x104 0x00020008

/-- A frame of `camera` with `n` lines. -/
def camFrame (n : Nat) : State :=
  { camera with
    cams := [(1, { inFrame := true, lines := n })]
    assay := [(1, { frame := some { seq := 0, sof := 0, cfg := camera.asCfg 1, rows := List.replicate n (List.replicate 8 0) }, next := 1 })] }

theorem witness_CameraFrames :
    (camera.camOn 1 = true ∧ noErrors camera ∧ memoryGood camera ∧ (camera.cam 1).inFrame = false ∧ camera.en (assayPage 1) = true ∧
      camera.quiet (assayPage 1) = false ∧ camera.camTakes 1 0x12 = false ∧ camera.camTakes 1 2 = true ∧ camera.pageOn (assayPage 1) = true ∧ (camera.as 1).ended = none ∧ camera.mf = {}) ∧
    (∀ n ∈ [1, 2], let s := camFrame n
      s.camOn 1 = true ∧ (s.cam 1).inFrame = true ∧ (s.as 1).frame.isSome = true ∧ ∀ f, (s.as 1).frame = some f → f.status = 0 ∧
        (List.replicate 8 (0 : Byte)).length * 8 = (cfgSize (s.asCfg 1)).1 * pixBits (fld (cfgWord (s.asCfg 1) 0x100) 1 0) ∧
        (n = 1 → f.rows.length < (cfgSize f.cfg).2) ∧ (n = 2 → (s.cam 1).lines = (cfgSize (s.asCfg 1)).2) ∧ (s.cam 1).err = 0) ∧
    (mayWrite rig 8 (assayPage 3) 0x008 ∧ rig.en (assayPage 3) = false ∧ assayRefuse 3 rig = 0) ∧
    (let s := rig.wr (assayPage 1) 0x110 4095
     assayRefuse 1 s ≠ 0 ∧ s.rf (assayPage 1) 0x01C 15 0 = 0 ∧ mayWrite s 8 (assayPage 1) 0x008) ∧
    (mayWrite camera 8 (assayPage 1) 0x008 ∧ camera.en (assayPage 1) = true) ∧
    (let s := rig.wr (camPage 2) 0x100 (80 * 65536)
     mayWrite s 8 (camPage 2) 0x008 ∧ s.en (camPage 2) = false ∧ camRefuse 2 s = 0 ∧
       camRefuse 2 (rig.wr (camPage 2) 0x100 (79 * 65536)) ≠ 0 ∧ s.rf (camPage 2) 0x01C 15 0 = 0) := by decide +kernel

/-- A matcher or flow job of frame 3 of stream 1, without GRAPH. -/
def asJob : AsJob := { stream := 1, seq := 3, cfg := camera.asCfg 1, hint := [], valid := false }

theorem witness_FeatureJobs :
    noErrors { camera with assay := [(1, { ended := some { seq := 0, sof := 0, cfg := (camera.wr (assayPage 1) 0x100 0x18).asCfg 1 } })] } ∧
    cfgBit ((camera.wr (assayPage 1) 0x100 0x18).asCfg 1) 3 = true ∧ cfgBit ((camera.wr (assayPage 1) 0x100 0x18).asCfg 1) 4 = true ∧
    cfgBit (camera.asCfg 1) 3 = false ∧ cfgBit (camera.asCfg 1) 4 = false ∧ camera.mf.matchQ.length < 8 ∧
    (let s := { camera with mf := { matchQ := [asJob], flowQ := [asJob] } }
     s.mf.matchJob = none ∧ s.mf.matchQ = asJob :: [] ∧ jobReady s asJob 0 = true ∧ s.mf.flowJob = none ∧ s.mf.flowQ = asJob :: [] ∧
       jobReady s asJob 1 = true) ∧
    (let j : AsJob := { asJob with cfg := (camera.wr (assayPage 1) 0x100 4).asCfg 1 }
     cfgBit j.cfg 2 = true ∧ jobReady (camera.setG 0 0 true) j 0 = true ∧ jobReady (camera.setG 0 1 true) j 1 = true) ∧
    ({ camera with mf := { matchJob := some asJob, flowJob := some asJob } } : State).mf.matchJob = some asJob := by decide +kernel

/-- Head 0 is enabled and runs at a line, with its link up and trained on a sink that supports everything. -/
def headAt (line : Nat) (hold : Nat := 0) : State :=
  { ((rig.wr (headPage 0) 0x008 1).wr (headPage 0) 0x108 0x43).wr (headPage 0) 0x100 0x000F0005 with
    heads := [(0, { timing := 2, line := line, hold := hold, sink := 0x17F })] }

theorem witness_HeadLinkHoldAndLines :
    (rig.pageOn (headPage 3) = true ∧ ((rig.modHead 3 fun y => { y with sink := 0x17F }).nextLink 3 0).isSome = true) ∧
    (let s := { rig with heads := [(3, { training := some 11 })] }
     (s.head 3).training = some 11 ∧ s.rb (headPage 3) 0x104 0 = false ∧ (s.head 3).hold = 0 ∧ (s.wr (headPage 3) 0x104 1).rb (headPage 3) 0x104 0 = true ∧
       (s.wr (headPage 3) 0x008 1).en (headPage 3) = true ∧ (s.wr (headPage 3) 0x108 0x40).headBit 3 6 = true ∧ s.en (headPage 3) = false ∧
       s.rf (headPage 3) 0x01C 15 0 = 0) ∧
    ((headAt 0).nextLink 0 0 = some 0 ∧ (headAt 0).headBit 0 1 = true ∧ mayWrite (headAt 0) 8 (headPage 0) 0x104 ∧ (headAt 0).headBit 0 0 = true) ∧
    (mayWrite rig 8 (headPage 3) 0x008 ∧ rig.en (headPage 3) = false ∧ headRefuse 3 rig = 0 ∧ headRefuse 3 (rig.wr (headPage 3) 0x100 0x1A) ≠ 0 ∧
      rig.rf (headPage 3) 0x01C 15 0 = 0) ∧
    (let s := headAt 0
     bit (s.rd (headPage 0) 0x104) 3 = false ∧ s.rb (headPage 0) 0x104 0 = false ∧ s.en (headPage 0) = true ∧ s.headBit 0 6 = true ∧
       (s.wr (headPage 0) 0x108 3).headBit 0 6 = false ∧ s.rf (headPage 0) 0x01C 15 0 = 0 ∧ (s.wr (headPage 0) 0x104 1).rb (headPage 0) 0x104 0 = true) ∧
    ((headAt 0 4).headRuns 0 = true ∧ ((headAt 0 4).head 0).hold = 4 ∧ ((headAt 1079 2).headMode 0).h ≤ ((headAt 1079 2).head 0).line + 1) ∧
    (let s := { headAt 0 3 with heads := [(0, { timing := 2, frame := 1, hold := 3, wake := some (0, 1117) })] }
     s.headRuns 0 = true ∧ (s.head 0).hold = 3 ∧ s.wakeDue 0 = true) := by decide +kernel

/-- The buffer of a line of head 0 with `n` pixels of no layer but the first. -/
def lineBuf (line n : Nat) : LineBuf := { line := line, layers := [List.replicate n none, [], [], []] }

theorem witness_HeadLinkHoldAndLines_lines :
    ((headAt 0).pageOn (headPage 0) = true ∧ noErrors (headAt 0) ∧ ((headAt 0).head 0).line + 2 < ((headAt 0).headMode 0).h ∧
      (headAt 0).headSends 0 = true ∧ (headAt 0).fetchesIn 0 0 = true ∧ ((headAt 1124).headMode 0).vt ≤ ((headAt 1124).head 0).line + 1 ∧
      ((headAt 1123).head 0).line + 1 < ((headAt 1123).headMode 0).vt ∧ ((headAt 1079).headMode 0).h ≤ ((headAt 1079).head 0).line + 1 ∧
      ((headAt 0).head 0).next = none) ∧
    (∀ n ∈ [1, 3], let s := { headAt 0 with heads := [(0, { timing := n, line := 1124 })] }
      (s.head 0).timing = n ∧ (s.headMode 0).vt ≤ (s.head 0).line + 1 ∧ s.pageOn (headPage 0) = true) ∧
    (((headAt 0).head 0).timing ≠ 0 ∧ (headAt 0).rb (headPage 0) 0x104 2 = false ∧ (headAt 0).headBit 0 1 = true) ∧
    ((headAt 0).headRuns 0 = true ∧ ((headAt 0).head 0).hold ≠ 3 ∧ (headAt 0).layerOff 0 0 = false ∧ ((headAt 0).head 0).cur = none ∧
      ((headAt 1079).head 0).line < ((headAt 1079).headMode 0).h ∧ 1919 < ((headAt 0).headMode 0).w ∧
      (let s := { headAt 0 with heads := [(0, { timing := 2, sink := 0x17F, cur := some (lineBuf 0 4) })] }
       s.headRuns 0 = true ∧ s.layerOff 0 0 = false ∧ (s.head 0).cur = some (lineBuf 0 4)) ∧
      (let x : HeadSt := { layers := List.replicate 48 0 ++ [1, 0, 0x00010001] ++ List.replicate 13 0 }; layerOn x 3 = true)) := by decide +kernel

/-- An Ethernet frame with an IPv4 packet from 0.0.0.2 to an address with a UDP datagram to a port. -/
def udp (dst dport : Nat) (payload : List Byte) : List Byte :=
  (fun b => b ++ leBytes 4 (crc32 b)) <| beBytes 6 1 ++ beBytes 6 3 ++ beBytes 2 0x0800 ++ beBytes 4 (0x45000000 + 28 + payload.length) ++ beBytes 4 0 ++ beBytes 4 0x40110000 ++ beBytes 4 2 ++ beBytes 4 dst ++ beBytes 2 9 ++ beBytes 2 dport ++
    beBytes 4 ((8 + payload.length) * 65536) ++ payload

/-- Flow 0 of a protocol with its planes is on at port 0, address 1, UDP port 7, for head group 0, whose input slot 0 holds frame 0 open with
planes of 64 pixels by 2 rows. -/
def flowing (proto planes : Nat) : State :=
  put 0x4000A 2 2 (put 0x40008 2 64 (put 0x40010 8 0x100000 (put 0x40048 4 256 (put 0x40004 1 1
    ((((cageOn.wr (flowPage 0) 0x100 (proto + planes * 256)).wr (flowPage 0) 0x104 1).wr (flowPage 0) 0x10C 7).wr (flowPage 0) 0x008 1)))))

/-- A Urelud packet of one colour pixel of frame 0 at row 1, column 2. -/
def urelud : List Byte := beBytes 4 0x55520101 ++ beBytes 4 0 ++ beBytes 4 0 ++ beBytes 2 1 ++ beBytes 2 2 ++ beBytes 2 1 ++ beBytes 2 0 ++ beBytes 4 0x01020304

/-- An RTP packet of payload type 0 whose payload header continues with `body`. -/
def rtp (body : List Byte) : List Byte := beBytes 12 (0x80000000 * 2 ^ 64) ++ beBytes 2 0 ++ body

/-- An ST 2110-20 packet of four pixels at row 1, offset 4. -/
def video : List Byte := rtp (beBytes 2 15 ++ beBytes 2 1 ++ beBytes 2 4 ++ beBytes 15 5)

/-- An ST 2110-40 packet with 64 user data words. -/
def anc : List Byte := rtp (beBytes 2 0 ++ beBytes 4 0x01000000 ++ beBytes 89 (64 * 2 ^ 650))

theorem witness_PacketsReachTheirSlot :
    (let s := flowing 2 1
     let d : Dgram := ⟨2, 1, 9, 7, urelud⟩
     flowArrives s 0 (udp 1 7 urelud) 0 0 d ∧ slotHolds s 0 0 0 ∧ noErrors s ∧ memoryGood s ∧ s.rb cagePage 0x600 0 = false ∧
       s.flowProto 0 = 2 ∧ ureludPlane (leAt urelud 3 1) = some 0 ∧ 20 ≤ urelud.length ∧ beAt urelud 0 2 = 0x5552 ∧ leAt urelud 2 1 = 1 ∧
       leAt urelud 18 1 = 0 ∧ leAt urelud 19 1 = 0 ∧ s.rb (flowPage 0) 0x100 (8 + 0) = true ∧ s.seqCase 0 (beAt urelud 4 4) = .accepted ∧
       beAt urelud 8 4 = 0 ∧ (ureludCheck 0 0 (beAt urelud 12 2) (beAt urelud 14 2) (beAt urelud 16 2) (urelud.drop 20).length 0 s).isNone = true ∧
       NSet.has (s.slot (slotKey 0 false 0)).flagged (beAt urelud 12 2 / max 1 (s.hRowGroup 0x40000)) = false) := by decide +kernel

/-- A Urelud pose record of frame 0. -/
def ureludPose : List Byte := beBytes 4 0x55520120 ++ beBytes 4 0 ++ beBytes 4 0 ++ beBytes 4 0 ++ beBytes 2 64 ++ beBytes 2 0 ++ beBytes 64 9

theorem witness_PacketsReachTheirSlot_pose :
    (let s := flowing 2 0x80
     let u := ureludPose
     flowArrives s 0 (udp 1 7 u) 0 0 ⟨2, 1, 9, 7, u⟩ ∧ slotHolds s 0 0 0 ∧ s.flowProto 0 = 2 ∧ ureludPlane (leAt u 3 1) = some 7 ∧ 20 ≤ u.length ∧
       beAt u 0 2 = 0x5552 ∧ leAt u 2 1 = 1 ∧ leAt u 18 1 = 0 ∧ leAt u 19 1 = 0 ∧ s.rb (flowPage 0) 0x100 15 = true ∧
       s.seqCase 0 (beAt u 4 4) = .accepted ∧ beAt u 8 4 = 0 ∧
       (ureludCheck 0 7 (beAt u 12 2) (beAt u 14 2) (beAt u 16 2) (u.drop 20).length 0 s).isNone = true) := by decide +kernel

theorem witness_PacketsReachTheirSlot_video :
    (let s := flowing 0 1
     let h := s.slotHdr 0 false 0
     let r : Rtp := ⟨false, 0, 0, 0, video.drop 12⟩
     let e : SampleRow := ⟨false, 1, 4, beBytes 15 5⟩
     flowArrives s 0 (udp 1 7 video) 0 0 ⟨2, 1, 9, 7, video⟩ ∧ slotHolds s 0 0 0 ∧ s.flowProto 0 = 0 ∧
       parseRtp video = some r ∧ sampleRows r.body = some [e] ∧ r.pt = s.flowCfg 0 22 16 ∧ e.field = false ∧ r.marker = false ∧
       s.seqCase 0 r.extSeq = .accepted ∧ (rtpFrame 0 r.ts s).map (·.1) = some 0 ∧ s.rowsOk h [e] = true ∧ s.planeOk h 0 = true) := by decide +kernel

theorem witness_PacketsReachTheirSlot_anc :
    (let s := flowing 1 0x80
     let r : Rtp := ⟨false, 0, 0, 0, anc.drop 12⟩
     flowArrives s 0 (udp 1 7 anc) 0 0 ⟨2, 1, 9, 7, anc⟩ ∧ slotHolds s 0 0 0 ∧ s.flowProto 0 = 1 ∧ parseRtp anc = some r ∧
       ((ancPackets (leAt r.body 4 1) r.body 64).find? (fun e => e.1 == s.rd (flowPage 0) 0x11C % 256 &&
         e.2.1 == s.rd (flowPage 0) 0x11C / 256 && e.2.2.length == 64)).isSome = true ∧ s.seqCase 0 r.extSeq = .accepted ∧
       (rtpFrame 0 r.ts s).map (·.1) = some 0) := by decide +kernel

theorem witness_FlowsAndPorts :
    (let s := { (flowing 2 1).wr (flowPage 1) 0x008 1 with flows := [(0, { openN := some 0 })] }
     noErrors s ∧ memoryGood s ∧ (s.flow 0).openN = some 0 ∧
       (List.range (s.slotCount 0 false)).find? (fun j => s.hFrame (s.slotHdr 0 false j) == 0) = some 0 ∧ s.hBit (s.slotHdr 0 false 0) 0 = true ∧
       s.storeFlows 0 false = [0, 1] ∧ NSet.has (s.slot (slotKey 0 false 0)).ended 1 = false ∧
       (∀ j < s.slotCount 0 false, (s.slot (slotKey 0 false j)).ended = []) ∧ s.en (flowPage 0) = true ∧ s.pageOn (flowPage 0) = true ∧
       mayWrite s 8 (flowPage 0) 0x008) ∧
    (let s := { flowing 2 1 with flows := [(0, { openN := some 0 })] }
     s.flowRefs 0 = false ∧ s.storeFlows 0 false = [(0 : Fin 16).val] ∧ (s.flow 0).openN = some 0) ∧
    ((flowing 2 1).flow 0).openN = none ∧
    (let s := ((rig.wr (flowPage 15) 0x100 0x182).wr (flowPage 15) 0x120 0x10001).wr (flowPage 15) 0x128 1
     mayWrite s 8 (flowPage 15) 0x008 ∧ s.en (flowPage 15) = false ∧ flowRefuse 15 s = 0 ∧ flowRefuse 15 (s.wr (flowPage 15) 0x100 3) ≠ 0 ∧
       s.rf (flowPage 15) 0x01C 15 0 = 0) ∧
    (rig.pageOn (portPage 3) = true ∧ fcsOk [] = false) ∧
    (let s := { rig.wr (spiPage 1) 0x008 1 with spis := [(1, { last := some 0 })] }
     s.spiOn 1 = true ∧ s.quiet (spiPage 1) = false ∧ (s.spi 1).job = none ∧ (s.spi 1).last = some 0 ∧
       4 * ((s.reading + 2 ^ 64 - 0) % 2 ^ 64) < s.spiP 1 ∧ (rig.spi 1).last = none ∧ s.spiStuck 1 = false ∧ s.rb (spiPage 1) 0x114 3 = false ∧
       (s.wr (spiPage 1) 0x114 4).spiStuck 1 = true ∧ (rig.spiPast 1 (2 * s.spiP 1) = true) ∧
       (let u : State := { s with spis := [(1, { last := some (2 ^ 64 - 2 * s.spiP 1) })] }
        u.spiPast 1 (2 * u.spiP 1) = true ∧ u.spiPast 1 (u.spiP 1) = true) ∧ (s.reading + 2 ^ 64 - 0) % 2 ^ 64 < s.spiP 1) ∧
    (let y : SpiSample := { stamp := 3, synth := false }
     let s := { (rig.wr (spiPage 1) 0x008 1).wr (spiPage 1) 0x104 0x0C01 with spis := [(1, { job := some y, waiting := some y })] }
     s.pageOn (spiPage 1) = true ∧ (s.spi 1).job = some y ∧ s.rf (spiPage 1) 0x104 12 8 ≤ 24 ∧ s.rb cagePage 0x600 0 = false ∧ noErrors s ∧
       memoryGood s ∧ (s.spi 1).job.isSome = true) ∧
    (let s := ((rig.wr (spiPage 0) 0x100 0x200).wr (spiPage 0) 0x104 0x0101).wr (spiPage 0) 0x10C 1000
     mayWrite s 8 (spiPage 0) 0x008 ∧ s.en (spiPage 0) = false ∧ spiRefuse 0 s = 0 ∧ spiRefuse 0 (s.wr (spiPage 0) 0x10C 99) ≠ 0 ∧
       s.rf (spiPage 0) 0x01C 15 0 = 0) := by decide +kernel

/-! ### The time unit -/

/-- Session 0 may write the time unit. -/
def tu : State := rig.wr timePage 0x114 1

theorem witness_TimeUnitAccesses :
    (∀ c ∈ [0, 1, 2], ∀ o ∈ [0, 0x0C, 0x18, 0x1C], mayWrite tu 8 timePage (clkOff c + o)) ∧ mayWrite tu 8 timePage 0x120 ∧ tu.tuPriv 8 = true ∧
    rateOk (2 ^ 32 % 2 ^ 40) = true ∧ tu.calSource 2 = 0 ∧ (tu.clock 0).arm = false ∧
    ((tu.setClock 2 { arm := true }).clock 2).arm = true ∧
    ((tu.clock 1).slew + sext 64 tu.jumpMax).natAbs ≤ tu.jumpMax ∧ tu.jumpMax < ((tu.clock 1).slew + sext 64 (tu.jumpMax + 1)).natAbs ∧
    (mayWrite tu 9 timePage (clkOff 0 + 0x0C) ∧ tu.tuPriv 9 = false) ∧
    0 < ((tu.setClock 1 { slew := 1 }).clock 1).slew ∧ ((tu.setClock 1 { slew := -1 }).clock 1).slew < 0 ∧
    mayRead tu 8 timePage (clkOff 2 + 0x20) := by decide +kernel

/-- Calendar 1 follows GENLOCK, and is in a state. -/
def genlocked (state : Nat) (x : TimeUnit := {}) : State :=
  { tu.wr timePage 0x120 2 with time := { x with c1 := { x.c1 with state := state, sec := 1 } } }

theorem witness_TimeUnitEvents :
    (let s := tu.wr timePage 0x120 5
     s.calSource 1 = 1 ∧ s.calSource 2 = 1 ∧ s.adjust 2 (-(-5 : Int)) = .accepted ∧ (s.setClock 2 { arm := true }).adjust 2 5 = .stepped ∧
       s.adjust 2 (-(-(2 ^ 40) : Int)) = .refused) ∧
    (let s := genlocked 1 { glLast := some 1000000000 }
     s.time.glLast = some 1000000000 ∧ 1000000000 ≤ (s.clock 1).t ∧
       4 * s.glND.1 * ((s.clock 1).t - 1000000000) < 1000000000 * s.glND.2) ∧
    ((genlocked 1).time.glLast = none ∧ (genlocked 1).calSource 1 = 2 ∧ ((genlocked 1).clock 1).state = 1 ∧ (genlocked 1).time.glFirst = true) ∧
    (let s := genlocked 2 { glFirst := false }
     let e := s.glError (s.clock 1).t
     e.natAbs ≤ s.rf timePage 0x21C 19 0 ∧ s.time.glFirst = false ∧ (s.clock 1).state = 2) ∧
    ¬ ((let s := genlocked 2 { c1 := { ns := 5000000 } }; (s.glError (s.clock 1).t).natAbs) ≤ (genlocked 2).rf timePage 0x21C 19 0) ∧
    ((tu.tsQueue 11).length < 16 ∧ tu.tsCalendar 5 0 = none ∧ (tu.wr timePage 0x120 0x501).tsCalendar 5 0 = some 1 ∧
      16 ≤ ((tu.setTsQueue 11 (List.replicate 16 ⟨0, 0, 0, 0⟩)).tsQueue 11).length ∧ mayWrite tu 8 (tsPage 11) 0x124) ∧
    (let s := (tu.wr timePage 0x120 0x501).wr timePage 0x124 (1 * 2 ^ 18)
     s.oneStep 11 0 = true ∧ s.oneStep 10 0 = false ∧
       NMap.find (tsOneStep 10 2 ⟨5, 0, 0, 2⟩ s).time.pdelay 5 = some ⟨5, 0, 0, 2⟩ ∧ (2 : Nat) / 256 = 3 / 256) := by decide +kernel

/-! ### Adit ports, the Adpor protocol and net boot -/

theorem leAt_append (h p : List Byte) (i n : Nat) (hn : i + n ≤ h.length) : leAt (h ++ p) i n = leAt h i n := by
  simp only [leAt, sliceL, List.drop_append, List.take_append, List.length_drop]
  simp [show n - (h.length - i) = 0 by omega]

theorem beAt_append (h p : List Byte) (i n : Nat) (hn : i + n ≤ h.length) : beAt (h ++ p) i n = beAt h i n := by
  simp only [beAt, sliceL, List.drop_append, List.take_append, List.length_drop]
  simp [show n - (h.length - i) = 0 by omega]

/-- A UDP datagram behind a header of 28 bytes. -/
theorem parseUdp_append (h p : List Byte) (h28 : h.length = 28) (hv : leAt h 0 1 = 0x45) (hl : beAt h 2 2 = 28 + p.length)
    (hu : beAt h 24 2 = 8 + p.length) (hp : leAt h 9 1 = 17) (hf : beAt h 6 2 % 2 ^ 14 = 0) :
    parseUdp (h ++ p) = some ⟨beAt h 12 4, beAt h 16 4, beAt h 20 2, beAt h 22 2, p⟩ := by
  have e1 := leAt_append h p 0 1 (by omega)
  have e2 := leAt_append h p 9 1 (by omega)
  have b1 := beAt_append h p 2 2 (by omega)
  have b2 := beAt_append h p 24 2 (by omega)
  have b3 := beAt_append h p 6 2 (by omega)
  have b4 := beAt_append h p 12 4 (by omega)
  have b5 := beAt_append h p 16 4 (by omega)
  have b6 := beAt_append h p 20 2 (by omega)
  have b7 := beAt_append h p 22 2 (by omega)
  have s1 : sliceL (h ++ p) 28 p.length = p := by simp [sliceL, ← h28]
  simp only [parseUdp, e1, e2, b1, b3, b4, b5, hv, hl, hp, hf]
  simp only [Nat.reduceMul, Nat.reduceMod, Nat.reduceAdd, Nat.reduceDiv, b2, b6, b7, hu, Nat.add_sub_cancel_left, s1, List.length_append, h28]
  rw [if_neg (by omega)]

/-- An untagged Ethernet frame behind its 14 bytes. -/
theorem parseEth_append (e b : List Byte) (h14 : e.length = 14) (ht : beAt e 12 2 = 0x0800) :
    parseEth (e ++ b) = ⟨beAt e 0 6, beAt e 6 6, 0, none, 0x0800, b⟩ := by
  have e1 := beAt_append e b 12 2 (by omega)
  have e2 := beAt_append e b 0 6 (by omega)
  have e3 := beAt_append e b 6 6 (by omega)
  have s1 : (e ++ b).drop 14 = b := by simp [← h14]
  simp [parseEth, e1, e2, e3, ht, s1]

/-- The Adit and session registers of the tests: address 1, UDP port 7, session 0 open under K_P = 0. -/
def adporUp : State :=
  { ((rig.wr bootPage 0x180 1).wr (aditPage 0) 0x110 1).wr (aditPage 0) 0x114 7 with boot := { rig.boot with keys := some (0, 0), nvKey := some 0 } }

/-- K_0 of `adporUp`. -/
def key0 : List Byte := deriveKey 0 0 0

/-- The header and records of a datagram of session 0. -/
def adporMsg (type seq : Nat) (records : List Byte) : List Byte := leBytes 1 1 ++ leBytes 1 type ++ leBytes 2 0 ++ beBytes 4 seq ++ records

/-- The IPv4 and UDP headers of a datagram of `n` bytes from 0.0.0.2, port 9, to 0.0.0.1, port 7. -/
def adporHead (n : Nat) : List Byte :=
  beBytes 4 (0x45000000 + 28 + n) ++ beBytes 4 0 ++ beBytes 4 0x40110000 ++ beBytes 4 2 ++ beBytes 4 1 ++ beBytes 2 9 ++ beBytes 2 7 ++ beBytes 4 ((8 + n) * 65536)

/-- The Ethernet frame of a datagram. -/
def adporFrame (payload : List Byte) : List Byte := beBytes 14 0x0800 ++ (adporHead payload.length ++ payload)

theorem adporFrame_parts (payload : List Byte) (n : Nat) (hl : payload.length = n) (hc : n = 24 ∨ n = 32 ∨ n = 36 ∨ n = 60) :
    ethLenOk (adporFrame payload) = true ∧ (parseEth (adporFrame payload)).etype = 0x0800 ∧
      parseUdp (parseEth (adporFrame payload)).body = some ⟨2, 1, 9, 7, payload⟩ := by
  have e := parseEth_append (beBytes 14 0x0800) (adporHead payload.length ++ payload) (by decide) (by decide)
  have b := beAt_append (beBytes 14 0x0800) (adporHead payload.length ++ payload) 12 2 (by decide)
  have hb : beAt (beBytes 14 0x0800) 12 2 = 0x0800 := by decide
  have h : ∀ n ∈ [24, 32, 36, 60], (adporHead n).length = 28 ∧ leAt (adporHead n) 0 1 = 0x45 ∧ beAt (adporHead n) 2 2 = 28 + n ∧
      beAt (adporHead n) 24 2 = 8 + n ∧ leAt (adporHead n) 9 1 = 17 ∧ beAt (adporHead n) 6 2 % 2 ^ 14 = 0 ∧ beAt (adporHead n) 12 4 = 2 ∧
      beAt (adporHead n) 16 4 = 1 ∧ beAt (adporHead n) 20 2 = 9 ∧ beAt (adporHead n) 22 2 = 7 := by decide
  obtain ⟨h1, h2, h3, h4, h5, h6, h7, h8, h9, h10⟩ := h n (by simpa using hc)
  subst hl
  refine ⟨?_, by rw [adporFrame, e], ?_⟩
  · rw [adporFrame, ethLenOk, b, hb]
    simp only [List.length_append, h1, show (beBytes 14 0x0800).length = 14 by decide]
    simp
    omega
  · rw [adporFrame, e, parseUdp_append _ _ h1 h2 h3 h4 h5 h6, h7, h8, h9, h10]

theorem keccakRound_length (a : List Nat) (c : Nat) : (keccakRound a c).length = 25 := by simp [keccakRound]

theorem keccakF_length (a : List Nat) (h : a.length = 25) : (keccakF a).length = 25 := by
  have : ∀ (l : List Nat) (a : List Nat), a.length = 25 → (l.foldl keccakRound a).length = 25 := by
    intro l
    induction l with
    | nil => intro a h; simpa using h
    | cons c l ih => intro a _; exact ih _ (keccakRound_length a c)
  exact this _ a h

theorem keccakBlocks_length (n : Nat) (m : List Byte) (a : List Nat) (h : a.length = 25) : (keccakBlocks n m a).length = 25 := by
  induction n generalizing m a with
  | zero => simpa [keccakBlocks] using h
  | succ n ih => exact ih _ _ (keccakF_length _ (by simp))

theorem adporTag_length (k m : List Byte) : (adporTag k m).length = 16 := by
  have hb : ∀ (n v : Nat), (leBytes n v).length = n := by
    intro n
    induction n with
    | zero => intro v; rfl
    | succ n ih => intro v; simp [leBytes, ih]
  have hf : ∀ l : List Nat, (l.flatMap (leBytes 8)).length = 8 * l.length := by
    intro l
    induction l with
    | nil => rfl
    | cons x l ih => simp [hb, ih]; omega
  simp [adporTag, kmac256, sponge, keccakSqueeze, ceilDiv, hf, keccakBlocks_length]

/-- A datagram of session 0 with a tag. -/
def adporDgram (type seq : Nat) (records tag : List Byte) : Dgram := ⟨2, 1, 9, 7, adporMsg type seq records ++ tag⟩

theorem adporDgram_tagged (type seq : Nat) (records k : List Byte) : tagged (adporDgram type seq records (adporTag k (adporMsg type seq records))) k := by
  simp [tagged, adporDgram, adporTag_length]

theorem adporDgram_untagged (type seq : Nat) (records k : List Byte) :
    ¬ tagged (adporDgram type seq records ((adporTag k (adporMsg type seq records)).map (· + 1))) k := by
  have h := adporTag_length k (adporMsg type seq records)
  generalize hg : adporTag k (adporMsg type seq records) = g at h
  simp [tagged, adporDgram, h, hg]
  intro he
  match g, h, he with
  | x :: _, _, he => simp at he

theorem adporDgram_header (s : State) (type seq : Nat) (records tag k : List Byte) (ht : tag.length = 16) (hr : records.length = 0 ∨ records.length = 8 ∨ records.length = 12 ∨ records.length = 36)
    (hs : s.rf (aditPage 0) 0x114 15 0 = 7) (h0 : s.sessOpen 0 type = true) (hk : s.sessKey 0 = some k) (hy : type = 1 ∨ type = 4) (hq : seq < 4 ∨ seq = 2 ^ 31) :
    adporHeader s 0 (adporDgram type seq records tag) type 0 seq k := by
  have hl : ((leBytes 1 1 ++ leBytes 1 type ++ leBytes 2 0 ++ beBytes 4 seq)).length = 8 := by simp [leBytes, beBytes]
  have hm : (adporDgram type seq records tag).payload = (leBytes 1 1 ++ leBytes 1 type ++ leBytes 2 0 ++ beBytes 4 seq) ++ (records ++ tag) := by
    simp [adporDgram, adporMsg]
  have hc : ∀ y ∈ [1, 4], ∀ q ∈ [0, 1, 2, 3, 2 ^ 31], let h := leBytes 1 1 ++ leBytes 1 y ++ leBytes 2 0 ++ beBytes 4 q
      leAt h 0 1 = 1 ∧ leAt h 1 1 = y ∧ leAt h 2 1 = 0 ∧ leAt h 3 1 = 0 ∧ beAt h 4 4 = q := by decide
  obtain ⟨c1, c2, c3, c4, c5⟩ := hc type (by simpa using hy) seq (by simp; omega)
  unfold adporHeader
  rw [hm]
  refine ⟨hs.symm, ?_, ?_, ?_, ?_, ?_, by decide, ?_, ?_, h0, hk⟩
  · rw [List.length_append, hl, List.length_append, ht]; omega
  · rw [List.length_append, hl, List.length_append, ht]; omega
  · rw [leAt_append _ _ _ _ (by omega)]; exact c1
  · rw [leAt_append _ _ _ _ (by omega)]; exact c2
  · rw [leAt_append _ _ _ _ (by omega)]; exact c3
  · rw [leAt_append _ _ _ _ (by omega)]; exact c4
  · rw [beAt_append _ _ _ _ (by omega)]; exact c5

theorem adporFrame_arrives (s : State) (type seq : Nat) (records tag : List Byte) (ht : tag.length = 16)
    (hr : records.length = 0 ∨ records.length = 8 ∨ records.length = 12 ∨ records.length = 36) (h1 : s.boot.testLow = false) (hq0 : s.rxq = [])
    (h2 : s.rd64 (aditPage 0) 0x108 = 0) (h3 : s.rb (aditPage 0) 0x380 0 = false) (h4 : s.rd (aditPage 0) 0x110 = 1) :
    adporArrives s 0 (adporFrame (adporMsg type seq records ++ tag)) (adporDgram type seq records tag) := by
  have hl : (adporMsg type seq records ++ tag).length = 24 + records.length := by
    rw [List.length_append, ht]
    simp [adporMsg, leBytes, beBytes]
    omega
  obtain ⟨a, b, c⟩ := adporFrame_parts _ _ hl (by omega)
  exact ⟨h1, hq0, a, .inl h2, h3, b, c, h4.symm⟩

theorem witness_AdporRequests_queue :
    let b := beBytes 14 0x0800
    rxTaken rig 1 b ∧ rig.rxq.length < 32 ∧ ({ rig with rxq := List.replicate 32 ⟨0, b, 0, 0⟩ } : State).rxq.length = 32 := by decide +kernel

theorem witness_AdporRequests (seq : Nat) (hq : seq < 4 ∨ seq = 2 ^ 31) :
    let m := adporMsg 1 seq []
    let t := adporTag key0 m
    let bad := t.map (· + 1)
    let s : State := { adporUp with sess := [(0, { kept := some [] })] }
    (adporArrives s 0 (adporFrame (m ++ t)) (adporDgram 1 seq [] t) ∧ adporHeader s 0 (adporDgram 1 seq [] t) 1 0 seq key0 ∧
      tagged (adporDgram 1 seq [] t) key0) ∧
    (adporArrives s 0 (adporFrame (m ++ bad)) (adporDgram 1 seq [] bad) ∧ adporHeader s 0 (adporDgram 1 seq [] bad) 1 0 seq key0 ∧
      ¬ tagged (adporDgram 1 seq [] bad) key0) ∧
    (seq + 2 ^ 32 - s.rd (aditPage 0) (sessOff 0)) % 2 ^ 32 = seq ∧ (NMap.get ({} : Session) s.sess 0).kept = some [] ∧ sendsAtOnce s 0 := by
  have hl := adporTag_length key0 (adporMsg 1 seq [])
  refine ⟨⟨?_, ?_, adporDgram_tagged 1 seq [] key0⟩, ⟨?_, ?_, adporDgram_untagged 1 seq [] key0⟩, ?_, rfl, by decide, rfl⟩
  · exact adporFrame_arrives _ _ _ _ _ hl (.inl rfl) (by decide) (by decide) (by decide) (by decide) (by decide)
  · exact adporDgram_header _ _ _ _ _ _ hl (.inl rfl) (by decide) (by decide) rfl (.inl rfl) hq
  · exact adporFrame_arrives _ _ _ _ _ (by simp [hl]) (.inl rfl) (by decide) (by decide) (by decide) (by decide) (by decide)
  · exact adporDgram_header _ _ _ _ _ _ (by simp [hl]) (.inl rfl) (by decide) (by decide) rfl (.inl rfl) hq
  · show (seq + 2 ^ 32 - 0) % 2 ^ 32 = seq
    omega

/-- Net boot in a phase, in an open boot window. -/
def netUp (step : Nat) (x : NetBoot) : State :=
  { adporUp with boot := { rig.boot with window := true, step := step, keys := some (0, 0), nvKey := some 0, net := x } }

/-- A host's BOOT frame with a record, under K_0, as `witness_NetBoot` uses it. -/
theorem boots (op step : Nat) (x : NetBoot) (body : List Byte) (hx : x.seq < 4) (hop : op = 0x11 ∨ op = 0x13 ∨ op = 0x15)
    (hb : body.length = 4 ∨ body.length = 8 ∨ body.length = 32) :
    let r := bootRecord op body
    let t := adporTag key0 (adporMsg 4 x.seq r)
    let d := adporDgram 4 x.seq r t
    let s := netUp step x
    let rec' := sliceL d.payload 8 (d.payload.length - 24)
    adporArrives s 0 (adporFrame (adporMsg 4 x.seq r ++ t)) d ∧ adporHeader s 0 d 4 0 x.seq key0 ∧ tagged d key0 ∧ s.boot.window = true ∧ rec' = r ∧
      leAt rec' 0 1 = op ∧ leAt rec' 1 1 = 0 ∧ rec'.drop 4 = body ∧ body.length = beAt rec' 2 2 := by
  have hr : (bootRecord op body).length = body.length + 4 := by simp [bootRecord, leBytes, beBytes]
  have hl := adporTag_length key0 (adporMsg 4 x.seq (bootRecord op body))
  have h8 : (leBytes 1 1 ++ leBytes 1 4 ++ leBytes 2 0 ++ beBytes 4 x.seq).length = 8 := by simp [leBytes, beBytes]
  have hrec : sliceL (adporDgram 4 x.seq (bootRecord op body) (adporTag key0 (adporMsg 4 x.seq (bootRecord op body)))).payload 8
      ((adporDgram 4 x.seq (bootRecord op body) (adporTag key0 (adporMsg 4 x.seq (bootRecord op body)))).payload.length - 24) = bootRecord op body := by
    generalize hg : adporTag key0 (adporMsg 4 x.seq (bootRecord op body)) = g at hl
    have hn : (adporDgram 4 x.seq (bootRecord op body) g).payload.length - 24 = (bootRecord op body).length := by
      simp only [adporDgram, adporMsg, List.length_append]
      simp only [List.length_append] at h8
      omega
    rw [hn]
    simp only [adporDgram, adporMsg, sliceL, List.append_assoc]
    simp only [List.append_assoc] at h8
    rw [← List.append_assoc, ← List.append_assoc, ← List.append_assoc, ← h8]
    simp
  intro r t d s rec'
  have e : rec' = r := hrec
  have hb4 : (leBytes 1 op ++ leBytes 1 0 ++ beBytes 2 body.length).length = 4 := by simp [leBytes, beBytes]
  have hc : ∀ o ∈ [0x11, 0x13, 0x15], ∀ n ∈ [4, 8, 32], let h := leBytes 1 o ++ leBytes 1 0 ++ beBytes 2 n
      leAt h 0 1 = o ∧ leAt h 1 1 = 0 ∧ beAt h 2 2 = n := by decide
  obtain ⟨c1, c2, c3⟩ := hc op (by simpa using hop) body.length (by simpa using hb)
  have hr' : r.length = body.length + 4 := hr
  refine ⟨adporFrame_arrives _ _ _ _ _ hl (by omega) rfl rfl (show adporUp.rd64 (aditPage 0) 0x108 = 0 by decide)
      (show adporUp.rb (aditPage 0) 0x380 0 = false by decide) (show adporUp.rd (aditPage 0) 0x110 = 1 by decide),
    adporDgram_header _ _ _ _ _ _ hl (by omega) (show adporUp.rf (aditPage 0) 0x114 15 0 = 7 by decide)
      (show (adporUp.rb bootPage 0x180 0 && true && true) = true by decide) rfl (.inr rfl) (.inl hx), adporDgram_tagged 4 x.seq _ key0, rfl, e, ?_, ?_, ?_, ?_⟩
  · rw [e]; exact (leAt_append _ _ _ _ (by omega)).trans c1
  · rw [e]; exact (leAt_append _ _ _ _ (by omega)).trans c2
  · rw [e]; show (_ ++ body).drop 4 = body; rw [← hb4]; simp
  · rw [e]; exact ((beAt_append _ _ _ _ (by omega)).trans c3).symm

theorem witness_NetBoot :
    (∀ step ∈ [4, 8], ∀ x : NetBoot, x.port < 2 → let s := netUp step x
      s.sessKey 0 = some key0 ∧ s.boot.testLow = false ∧ sendsAtOnce s 0 ∧ sendsAtOnce s 1 ∧ s.boot.net.port < 2) ∧
    ((netUp 8 { phase := 1 }).boot.net.phase = 1 ∧ (netUp 8 { phase := 1 }).boot.step ≠ 4 ∧ (beBytes 4 9).length = 4 ∧ 1 ≤ beNat (beBytes 4 9) ∧
      beNat (beBytes 4 9) ≤ 0x4000000) ∧
    (let s := netUp 8 { phase := 2, len := 4 }
     let body := beBytes 4 0 ++ beBytes 4 7
     s.boot.net.phase = 2 ∧ beAt body 0 4 = s.boot.net.off ∧ body.length = 4 + min 1024 (s.boot.net.len - s.boot.net.off) ∧ memoryGood s ∧ noErrors s) ∧
    ((netUp 4 {}).boot.step = 4 ∧ (beBytes 32 1).length = 32) ∧
    ((netUp 8 { phase := 2, again := 8 }).boot.net.phase = 2 ∧ 8 ≤ (netUp 8 { phase := 2, again := 8 }).boot.net.again) ∧
    (adporUp.boot.window = false ∧ adporUp.sessKey 0 = some key0 ∧ ∃ i < 8, adporUp.rb bootPage 0x180 i = true ∧ adporUp.boot.announced.contains i = false) := by
  refine ⟨fun step _ x hp => ⟨rfl, rfl, ?_, ?_, hp⟩, by decide, by decide, by decide, by decide, by decide, rfl, 0, by decide⟩
  · exact show adporUp.rb (aditPage 0) 0x100 19 = false ∧ (adporUp.adit 0).queue = [] by decide
  · exact show adporUp.rb (aditPage 1) 0x100 19 = false ∧ (adporUp.adit 1).queue = [] by decide

/-- Channel 2 is bound from session 0 to core 1, and channel 3 from core 1 to session 0, which has a message of one word. -/
def channels : State := ((rig.wr (winzePage 2) 0x150 0x10108).wr (winzePage 3) 0x150 0x10801).wr (winzePage 3) 0x148 0x10101

theorem witness_AdporRecords :
    (rig.ueIn 0x20000 4 = none ∧ rig.rb cagePage 0x600 0 = false) ∧
    (burstLen 8 = true ∧ 0x20000 + 8 ≤ dramSize ∧ (∀ k < 8 / 4, rig.memErr 8 1 (0x20000 + 4 * k) 4 = 0 ∧ rig.memErr 8 2 (0x20000 + 4 * k) 4 = 0) ∧
      noErrors rig ∧ burstLen 6 = false ∧ (beBytes 8 1).length = 8 ∧ memoryGood rig) ∧
    (regionOf (ctlBase + 0xFFC) = .control ∧ 4096 < (ctlBase + 0xFFC) % 4096 + 8) ∧
    (let w := winzePage 2
     channels.rb w 0x150 16 = true ∧ channels.rf w 0x150 5 0 = 8 ∧ (∀ k ≤ 16, mayWrite channels 8 w (0x100 + 4 * k)) ∧ channels.rb w 0x148 0 = false ∧ channels.quiet w = false ∧
       (channels.wr w 0x148 1).rb w 0x148 0 = true ∧ (coreDomain (channels.rf w 0x150 13 8)).all channels.domOn = true) ∧
    (let w := winzePage 3
     channels.rb w 0x150 16 = true ∧ channels.rf w 0x150 13 8 = 8 ∧ mayRead channels 8 w 0x144 ∧ mayRead channels 8 w 0x148 ∧
       (∀ k < 16, mayRead channels 8 w (0x100 + 4 * k)) ∧ NMap.find channels.latch (regKey w 0x148) = none ∧ channels.rb w 0x148 0 = true) ∧
    (let b := beBytes 4 7 ++ beBytes 2 1000 ++ beBytes 2 0
     b.length = 8 ∧ beAt b 0 4 < 8 ∧ 1 ≤ beAt b 4 2 ∧ beAt b 4 2 ≤ 1000 ∧ rig.boot.window = false) := by decide +kernel

theorem witness_AditEventsAndGates :
    (let s := { (adporUp.wr (winzePage 3) 0x150 0x10801).wr (winzePage 3) 0x148 0x10101 with sess := [(0, { mask := 7 })] }
     bit (NMap.get ({} : Session) s.sess 0).mask 1 = true ∧ s.sessOpen 0 1 = true ∧ sendsAtOnce s (s.rf (aditPage 0) (sessOff 0 + 8) 16 16) ∧
       s.eventRecords 0 1 ≠ [] ∧ (s.eventRecords 0 1).length ≤ 90) ∧ adporUp.sessKey 0 = some key0 ∧
    (let s := ((rig.wr (aditPage 1) 0x134 1).wr (aditPage 1) 0x130 1000000000).wr (aditPage 1) 0x200 0x1FF
     mayWrite s 8 (aditPage 1) 0x138 ∧ s.rf (aditPage 1) 0x134 6 0 = 1 ∧ s.rf (aditPage 1) 0x130 29 0 = 1000000000 ∧
       s.rf (aditPage 1) 0x200 31 8 ≠ 0 ∧ (s.wr (aditPage 1) 0x130 999).rf (aditPage 1) 0x130 29 0 < 1000) ∧
    (({ rig with adits := [(1, { pending := some (⟨0, 1000, [(255, 1000)]⟩, 5) })] } : State).adit 1).pending = some (⟨0, 1000, [(255, 1000)]⟩, 5) ∧
    (rig.rb (aditPage 1) 0x100 19 = false ∧ ∀ e ∈ (({ rig with adits := [(1, { queue := [(7, .frame 1 2 3 [])] })] } : State).adit 1).queue, e.1 < 8) ∧
    (let s := { rig with cb := [(7, { mac := 1, vid := 0, recov := 0, hist := 1 })] }
     NMap.rising s.cb = true) ∧
    rig.rb (aditPage 0) 0x104 0 ≠ true := by
  refine ⟨by decide +kernel, rfl, by decide +kernel, rfl, by decide +kernel, by decide +kernel, by decide +kernel⟩

/-! ### Crosscut links, walls and pairs -/

/-- Port 1 is a WALL port in a state, and grant 0 lets the devices behind it read and write the first 128 KiB of DRAM. -/
def linkOn (st : Nat) (s : State) : State :=
  ((((s.wr (xcPage 1) 0x008 1).wr (xcPage 1) 0x100 1).wr (xcPage 1) 0x104 st).wr bootPage 0x408 0x10000).wr bootPage 0x410 0x20007

/-- `rig` with that port. -/
def linked (st : Nat := 2) : State := linkOn st rig

/-- A flit of a class with SEQ 0 and a good CRC. -/
def flit (cls : Nat) (payload : List Byte) (arg : Nat := 0) (last : Bool := true) : List Byte :=
  sealFlit (flitBody cls false last payload.length 0 0xFFFF 0 arg payload)

theorem witness_CrosscutLinks :
    (let s := (linked 0).wr (xcPage 1) 0x008 0
     mayWrite s 8 (xcPage 1) 0x008 ∧ s.en (xcPage 1) = false ∧ s.xcRole 1 ≠ 0) ∧
    (let s := (linked 1).wr cagePage 0x500 (1 * 64)
     let peer := 1 + 3 * 4 + 1 * 128
     s.xcState 1 = 1 ∧ s.en (xcPage 1) = true ∧ s.pageOn (xcPage 1) = true ∧ bit (peer + 2 ^ 11) 11 = true ∧ bit peer 11 = false ∧
       s.peerFits 1 peer = true ∧ s.peerFits 1 0 = false ∧ (s.port 1).peerReset = none ∧ (s.port 1).queue = [] ∧
       ((s.modPort 1 fun x => { x with peerReset := some 4 }).port 1).peerReset = some 4 ∧ 4 ≠ fld peer 63 32) ∧
    (∀ h, ∀ j ∈ (linked 1).hoist h, j.port ≠ some (1 : Fin 4).val) ∧
    ((linked).xcUp 1 = true ∧ (linked).xcRole 1 ≠ 0 ∧ mayWrite (linked) 8 (xcPage 1) 0x108 ∧ (linked).en (xcPage 1) = true) ∧
    (let s := (linked).modPort 1 fun x => { x with held := [flit 1 [], flit 4 []] }
     (s.port 1).queue = [] ∧ 0 < (s.port 1).held.length ∧ ((s.port 1).held.map flitSeq).idxOf (0 % 2 ^ 16) = 0) ∧
    (let s := (linked).modPort 1 fun x => { x with held := [flit 1 []], txSeq := 1 }
     (s.port 1).queue = [] ∧ 1 % 2 ^ 16 = (s.port 1).txSeq ∧ ∀ g ∈ (s.port 1).held, flitSeq g ≠ (s.port 1).txSeq) ∧
    ((List.range 4).filter (linked).xcUp = [(1 : Fin 4).val] ∧ portReady (linked) 1) ∧
    flitTaken (linked) 1 0xE (flit 0xE (leBytes 8 0 ++ leBytes 1 0)) ∧
    (let s := (linked).modPort 1 fun x => { x with peerReset := some 0 }
     s.en (xcPage 1) = true ∧ (s.port 1).peerReset.isSome = true ∧ (s.port 1).hbGot ≠ some (s.hbEdge 2)) := by
  refine ⟨by decide +kernel, by decide +kernel, fun h j hj => ?_, by decide +kernel, by decide +kernel, by decide +kernel, by decide +kernel, by decide +kernel, by decide +kernel⟩
  have e : (linked 1).hoist h = [] := rfl
  rw [e] at hj
  cases hj

/-- A copy of hoist 0 that waits for two answers from the device behind port 1. -/
def remoteJob (reading : Bool) : HoistJob :=
  { id := 1, face := 0, handle := 5, pos := 1, word := 0x70, desc := [], doff := 0, port := some 1, reading := reading, waiting := 2, begun := true }

/-- Tag 0 of port 1 belongs to that copy. -/
def answering (reading : Bool) : State :=
  { (linked).modPort 1 fun x => { x with tags := [(0, ⟨0, 1, 0⟩)] } with hoists := [(0, [remoteJob reading])] }

/-- The payload of a launch broadcast 9 from device 5: stope 0 at GCOUNT 4. -/
def launchPayload : List Byte := leBytes 1 1 ++ leBytes 1 5 ++ leBytes 2 9 ++ leBytes 2 (stopePage 0) ++ leBytes 8 0x10000 ++ leBytes 8 4 ++ leBytes 16 0 ++ leBytes 1 1

/-- The page of stope 0 of `unitRig`, which the device behind port 1 may write. -/
def launchRig : State := let s := linkOn 2 unitRig; let o := 0x300 + 8 * pClass (stopePage 0); s.wr bootPage o (s.rd bootPage o ||| 0x20000)

/-- A strip of four bytes for frame 0 of the slot of `flowing`, with a digest. -/
def strip (digest : Nat) (last : Bool) : List Byte := flit 5 (leBytes 4 0 ++ leBytes 4 0 ++ leBytes 4 digest ++ leBytes 4 0 ++ leBytes 4 7) 0x100000 last

theorem witness_CrosscutTraffic_memory :
    ((∀ q < 4, q ≠ (1 : Fin 4).val → (linked).xcUp q = false) ∧ noErrors (linked) ∧ memoryGood (linked) ∧ portReady (linked) 1) ∧
    (let f := flit 1 (leBytes 4 7) 0x8000
     flitTaken (linked) 1 1 f ∧ (linked).remoteStatus 1 2 0x8000 (flitPayload f).length = 0 ∧
       windowRanges (fld (flitArg f) 39 0) (flitPayload f).length = some [(0x8000, (flitPayload f).length)] ∧
       ((linked).wr bootPage 0x410 0).remoteStatus 1 2 0x8000 4 ≠ 0) ∧
    (let f := flit 2 [] (0x8000 + 4 * 2 ^ 40)
     flitTaken (linked) 1 2 f ∧ min 236 (fld (flitArg f) 55 40) = 4 ∧ (linked).remoteStatus 1 1 (fld (flitArg f) 39 0) 4 = 0 ∧
       windowRanges (fld (flitArg f) 39 0) 4 = some [(0x8000, 4)] ∧ ((linked).wr bootPage 0x410 0).remoteStatus 1 1 0x8000 4 ≠ 0) ∧
    (∀ r ∈ [true, false], let s := answering r
      NMap.rising (s.port 1).tags = true ∧ NMap.find (s.port 1).tags 0 = some ⟨0, 1, 0⟩ ∧
        (s.hoist 0).find? (fun i => i.id == 1) = some (remoteJob r) ∧ (remoteJob r).todo = [] ∧ (remoteJob r).reading = r ∧ 2 ≤ (remoteJob r).waiting ∧ (remoteJob r).through = false ∧
        flitTaken s 1 (if r then 3 else 4) (flit (if r then 3 else 4) []) ∧ fld (flitArg (flit (if r then 3 else 4) [])) 7 0 = 0 ∧
        flitTag (flit (if r then 3 else 4) []) = 0) := by
  refine ⟨by decide +kernel, by decide +kernel, by decide +kernel, by decide +kernel⟩

theorem answering_sent (r : Bool) : ∀ h, ∀ i ∈ (answering r).hoist h, i.port = some (1 : Fin 4).val → i.todo = [] := by
  intro h i hi _
  by_cases e : h = 0
  · subst e
    have : i = remoteJob r := by simpa using show i ∈ [remoteJob r] from hi
    rw [this]; rfl
  · have : (answering r).hoist h = [] := by
      show NMap.get [] [(0, [remoteJob r])] h = []
      simp [NMap.get, NMap.find, Ne.symm e]
    rw [this] at hi; cases hi

theorem witness_CrosscutTraffic_others :
    (let s := linkOn 2 (flowing 2 1)
     (∀ q < 4, q ≠ (1 : Fin 4).val → s.xcUp q = false) ∧ noErrors s ∧ memoryGood s ∧ flitTaken s 1 5 (strip 0 false) ∧
       flitTaken s 1 5 (strip 1 true) ∧ windowRanges (fld (flitArg (strip 0 false)) 39 0) 4 = some [(0x100000, 4)] ∧
       (s.stripAt 0x100000).any (fun q => s.haloOk q 0 0 && !s.haloOk q 0 1 && s.hFrame (s.slotHdr q.g false q.i) == 0) = true ∧
       flitLast (strip 0 false) = false ∧ flitLast (strip 1 true) = true ∧ leAt (flitPayload (strip 1 true)) 8 4 = 1) ∧
    (flitTaken (linked) 1 6 (flit 6 []) ∧ (linked).red = none ∧ ∀ g ∈ (linked).adGroups, ((linked).ad g).mismatch = false) ∧
    (let f := flit 7 (leBytes 2 2 ++ leBytes 4 9 ++ leBytes 1 0)
     flitTaken (linked) 1 7 f ∧ leAt (flitPayload f) 0 1 = 2 ∧ (linked).adGroups = [] ∧ NMap.find (linked).lateSeen (leAt (flitPayload f) 2 4) = none ∧
       (linked).replay = false ∧ ∀ g < 4, leAt (flitPayload f) 2 4 ∉ ((linked).ad g).commits ∧
       (NMap.find ({ linked with lateSeen := [(9, true)] } : State).lateSeen (leAt (flitPayload f) 2 4)).isSome = true) := by decide +kernel

theorem witness_CrosscutTraffic_launches :
    (let s := launchRig
     let pl := flitPayload (flit 7 launchPayload)
     (∀ q < 4, q ≠ (1 : Fin 4).val → s.xcUp q = false) ∧ noErrors s ∧ memoryGood s ∧ flitTaken s 1 7 (flit 7 launchPayload) ∧ leAt pl 0 1 = 1 ∧
       leAt pl 4 2 = stopePage 0 ∧ launchable s (leAt pl 4 2) ∧ s.unitLocked (leAt pl 4 2) = false ∧
       (∀ o, o ∈ [0x058, 0x060, 0x068, 0x070, 0x080] → mayWrite s (s.xcIdent 1) (leAt pl 4 2) o) ∧ s.gcount < leAt pl 14 8 ∧
       NMap.find s.bcastLast 5 = none ∧ laterNumber 9 8 = true ∧ laterNumber 9 9 = false ∧ laterNumber 9 10 = false) ∧
    (let s := linkOn 2 (rig.wr (xcPage 0) 0x200 2)
     let f := flit 8 (leBytes 72 0)
     flitTaken s 1 8 f ∧ s.standby = true ∧ 72 ≤ (flitPayload f).length ∧ (s.band (bandKey 0 0 0)).poseWait = false ∧
       (s.band (bandKey 0 0 0)).latched = false ∧ s.rb cagePage 0x600 0 = false ∧
       (({ s with bands := [(bandKey 0 0 0, { poseWait := true })] } : State).band (bandKey 0 0 0)).poseWait = true) ∧
    (let s := (unitRig.wr (xcPage 0) 0x210 (stopePage 0)).wr (xcPage 0) 0x220 4
     let page := s.rf (xcPage 0) 0x210 15 0
     (∀ q < 4, s.xcUp q = false) ∧ mayWrite s 8 (xcPage 0) 0x238 ∧ launchable s page ∧ s.unitLocked page = false ∧
       (∀ o, o ∈ [0x058, 0x060, 0x068, 0x070, 0x080] → mayWrite s 8 page o) ∧ s.gcount < s.rd64 (xcPage 0) 0x220) := by
  refine ⟨⟨by decide +kernel, by decide +kernel, by decide +kernel, by decide +kernel, by decide +kernel, by decide +kernel, by decide +kernel,
    by decide +kernel, by decide +kernel, by decide +kernel, by decide +kernel⟩, by decide +kernel, by decide +kernel⟩

/-- A pair of which this is the STANDBY device, with head 1. -/
def paired : State := rig.wr (xcPage 0) 0x200 0x23

theorem witness_PairTakeover :
    (mayWrite rig 8 (xcPage 0) 0x200 ∧ rig.pairEn = false ∧ paired.pairEn = true ∧ paired.standby = true ∧ mayWrite paired 8 (xcPage 0) 0x208 ∧
      rig.faultOut = true ∧ rig.unrepairable = false ∧ rig.peerFault = false ∧ rig.takeOut = false) ∧
    ({ paired with takePend := true } : State).takePend = true ∧ ({ paired with takeOut := true } : State).takeOut = true ∧
    ({ paired with faultOut := false } : State).faultOut = false ∧ paired.rb (xcPage 0) 0x200 (4 + 1) = true ∧
    paired.rb (xcPage 0) 0x200 (4 + 0) = false := by decide +kernel

/-! ### Boot, resets, power, thermal and device health -/

/-- A boot state with the alignment edge passed. -/
def booting (b : Boot) : State := { up with boot := b, power := { aligned := true } }

theorem witness_BootAndSecurity :
    ((booting { step := 1 }).power.aligned = true ∧ (booting { step := 1 }).boot.step = 1 ∧ (booting { step := 2 }).boot.step = 2 ∧
      (booting { step := 3, nvKey := some 5 }).boot.nvKey = some 5 ∧ (booting { step := 7 }).boot.step = 7 ∧ up.rf bootPage 0x01C 15 0 = 0) ∧
    (mayWrite (booting { step := 10 }) 0 bootPage 0x104 ∧ (booting { step := 10 }).boot.window = true) ∧
    (mayWrite rig 8 bootPage 0x224 ∧ rig.boot.imageOk = false ∧ mayWrite rig 8 bootPage 0x184 ∧ mayWrite rig 8 bootPage 0x188 ∧
      rig.boot.install = none ∧ rig.boot.calPending = none ∧ noErrors rig ∧ rig.quiet bootPage = false) ∧
    (({ rig with boot := { rig.boot with install := some (3, 0, [1]), calPending := some true } } : State).boot.install = some (3, 0, [1]) ∧
      mayWrite rig 8 bootPage 0x19C ∧ rig.rf bootPage 0x01C 15 0 = 0) ∧
    (({ rig with boot := { rig.boot with calPending := some false } } : State).boot.calPending = some false ∧ rig.calBoundary = true) ∧
    (mayWrite rig 8 bootPage 0x1A4 ∧ rig.boot.att = none ∧ rig.boot.window = false) ∧
    (let s := { (rig.wr cagePage 0x654 1).wr bootPage 0x1B0 0x20000 with boot := { rig.boot with att := some 8, leafNext := 0 } }
     s.boot.att = some 8 ∧ s.rb cagePage 0x654 0 = true ∧ s.boot.leafNext < 1048576 ∧ s.memOk 8 2 (s.rd64 bootPage 0x1B0) 4096 = true ∧
       memoryGood s ∧ noErrors s ∧ s.memOk 8 2 (fsBase) 4096 = false) := by decide +kernel

theorem witness_SvnCommitRaisesTheFloor :
    let s := { rig.wr bootPage 0x118 32 with boot := { rig.boot with imageOk := true, svnFloor := 31 } }
    mayWrite s 8 bootPage 0x224 ∧ s.boot.imageOk = true ∧ s.rd bootPage 0x118 ≤ 32 ∧ s.boot.svnFloor < s.rd bootPage 0x118 ∧
      leAt (List.replicate 32 0) 0x10 4 < s.rd bootPage 0x118 := by decide +kernel

theorem witness_Resets : mayWrite rig 8 pwrPage 0x114 := by decide +kernel

/-- Every domain is on, no page is enabled and no context is resident. -/
def quietUp : State := { rig with ctxs := [] }

theorem witness_PowerStates :
    (mayWrite quietUp 8 pwrPage 0x100 ∧ quietUp.power.change = none ∧ quietUp.power.crit = false ∧
      quietUp.stateOk 0 = true ∧ offRefusal quietUp (offOrder.filter fun k => quietUp.domOn k && !(quietUp.stateDomains 0).contains k) quietUp.onList = none ∧
      rig.stateOk 2 = false) ∧
    (let s := quietUp.wr (stopePage 31) 0x008 1
     s.stateOk 1 = true ∧ offRefusal s (offOrder.filter fun k => s.domOn k && !(s.stateDomains 1).contains k) s.onList = some (2, 8)) ∧
    (let s := { quietUp with power := { change := some 2 } }
     s.power.change = some 2 ∧ s.power.rising = []) ∧
    (mayWrite quietUp 8 pwrPage 0x108 ∧ quietUp.domOn 8 = true ∧ (∀ e < 28, e ≠ 8 → quietUp.domOn e = true → bit (0x0FFFFEFF : Word).toNat e = true) ∧
      bit (0x0FFFFEFF : Word).toNat 8 = false ∧ quietUp.offError (quietUp.onList.filter fun k => k != 8) 8 = 0 ∧
      quietUp.offError (quietUp.onList.filter fun k => k != 11) 11 ≠ 0 ∧
      ({ quietUp with power := { quietUp.power with woken := [(8, quietUp.reading)] } } : State).offError (quietUp.onList.filter fun k => k != 8) 8 = 4) ∧
    (let s := { quietUp.wr pwrPage 0x10C 0x0FFFFEFF with power := { rising := [8] } }
     s.domOn 8 = false ∧ s.power.rising.contains 8 = true ∧ ((domParent 8).map s.domOn).getD true = true) := by decide +kernel

theorem witness_ThermalThrottle :
    (let ws : List Word := List.replicate 16 (BitVec.ofNat 32 (110 * 256))
     let u := ((List.range 16).zip (ws.map (·.toNat))).foldl (fun t e => sensorSample e.1 e.2 t) rig
     ws.length = 16 ∧ 8 ≤ u.goodSensors.length ∧ u.tMax = some (110 * 256) ∧ rig.power.thermal < 3 ∧ rig.thrDown rig.power.thermal ≤ 110 * 256 ∧
       rig.power.paused = false ∧ max (rig.power.thermal + 1) (rig.rf clkPage 0x204 1 0) ≠ (rig.wr clkPage 0x200 0).thrStep) ∧
    (let ws : List Word := List.replicate 16 (BitVec.ofNat 32 (125 * 256))
     let u := ((List.range 16).zip (ws.map (·.toNat))).foldl (fun t e => sensorSample e.1 e.2 t) rig
     u.tMax = some (125 * 256) ∧ rig.power.crit = false) ∧
    (({ rig with power := { paused := true, next := 1 } } : State).power.paused = true ∧ rig.rb cagePage 0x600 1 = false) := by decide +kernel

theorem witness_DeviceHealth :
    (rig.pageOn (facePage 16) = true ∧ rig.logicalOf 16 = none ∧ 16 % 17 = 16 ∧ rig.rf (facePage 16) 0x01C 15 0 = 0) ∧
    (rig.pageOn (facePage 17) = true ∧ rig.logicalOf 17 = some 16 ∧ rig.partOf (17 / 17) = none ∧ rig.rb cagePage 0x600 1 = false ∧
      (rig.spareUsed 1 || rig.rb (stopePage 1) 0x100 5 || rig.stopeRetired 1) = false ∧ (rig.wr (stopePage 1) 0x100 0x20).rb (stopePage 1) 0x100 5 = true) ∧
    (let s := running [0x01]
     s.pageOn (facePage 0) = true ∧ s.logicalOf 0 = some 0 ∧ s.partOf (0 / 17) = some 0 ∧ (s.part 0).held = false ∧ (s.part 0).switching = false ∧
       (s.part 0).running = some 5 ∧ (s.part 0).outgoing = none ∧ (s.part 0).incoming = none ∧ (s.part 0).relaunch = [] ∧ noErrors s ∧
       (∀ g ∈ (s.run 5).faces, (s.face g).issued = [] ∧ (s.face g).hold ≠ .xld) ∧ s.resident 5 = true ∧ (s.ctx 5).cls = 0 ∧ (s.ctx 5).state ≠ 0 ∧
       (s.ctx 5).state ≠ 6) ∧
    (rig.boot.window = false ∧ rig.pageOn (facePage (17 * 31 + 16)) = true ∧ rig.spareUsed 31 = false ∧ rig.logicalOf (17 * 31 + 16) = none ∧
      rig.rf (facePage (17 * 31 + 16)) 0x138 9 8 ≠ 3) ∧
    (let s := { rig.wr bootPage 0x100 4 with time := { count := 1000000000 } }
     s.coreAlive 1 = true ∧ s.coreAlive 0x21 = true ∧ NMap.get 0 s.power.kicks 1 + 1000 * s.canaryTo 1 ≤ s.reading ∧
       NMap.get 0 s.power.kicks 0x21 + 1000 * s.canaryTo 0x21 ≤ s.reading ∧ s.rb canPage 0x100 20 = true ∧
       (s.wb canPage 0x100 20 false).rb canPage 0x100 20 = false ∧ s.partOf 1 = none ∧
       ((NMap.get [] s.power.expiries 0x21).filter fun e => decide (s.reading < e + 10000000000)).length < s.rf canPage 0x100 19 16) ∧
    ((rig.wr bootPage 0x100 4).coreAlive 0x21 = true ∧ rig.reading < NMap.get 0 rig.power.kicks 0x21 + 1000 * rig.canaryTo 0x21) ∧
    ((coreDomain 2).isSome = true ∧ ({ rig with power := { restarting := [2] } } : State).power.restarting.contains 2 = true) ∧
    (rig.rb monPage (supOff 23) 16 = false ∧ rig.rb monPage (supOff 23) 17 = false ∧ rig.rb monPage (supOff 23) 18 = false ∧
      mayWrite rig 8 sumpPage 0x10C) := by
  refine ⟨by decide +kernel, by decide +kernel, by decide +kernel, by decide +kernel,
    by decide +kernel, by decide +kernel,
    by decide +kernel,
    by decide +kernel⟩

/-! ### The memory invariant -/

theorem witness_MemoryStaysCanonical : memoryGood State.reset ∧ step State.reset = .next (serveFrame State.reset.tick) := ⟨by decide, rfl⟩

/-! ### Ill-formed commands are refused -/

/-- 2^40, the first address outside the device. -/
def far : Nat := 2 ^ 40

/-- Bytes of zero. -/
def zeros (n : Nat) : List Byte := List.replicate n 0

theorem test_wf_accepts :
    (Instr.registerWrite 8 (far - 1) 8 (2 ^ 64 - 1)).wf = true ∧ (Instr.bandLaunch 3 0 255).wf = true ∧ (Instr.clkSet 8 0 (2 ^ 48 - 1) 0).wf = true ∧
    (Instr.burstRead 7 0 8192).wf = true ∧ (Instr.winzeSend 0 0 (List.replicate 16 0)).wf = true ∧ (Instr.memWr 0 (zeros 256)).wf = true ∧
    (Instr.ptpMeasurement 0 (-(2 ^ 63))).wf = true ∧ (Instr.nop 511).wf = true := by decide +kernel

theorem test_wf_refuses_addresses :
    [Instr.registerWrite 0 far 4 0, .lowWordRead 0 far 4, .rcRead 0 far 4, .scrubRead far .clean, .sortJob 0 0 far, .rasJob 0 0 far, .regRead 0 far,
      .regWrite 0 far 0, .burstRead 0 far 4, .burstWrite 0 far []].all (fun i => !i.wf) = true := by decide +kernel

theorem test_wf_refuses_sizes :
    [Instr.registerWrite 0 0 9 0, .registerWrite 0 0 4 (2 ^ 64), .lowWordRead 0 0 9, .rcRead 0 0 9, .burstRead 0 0 8193, .winzeSend 0 0 (List.replicate 17 0),
      .streamCtrl 0 (zeros 65), .spiTransactionDone 0 (zeros 33), .thermalSample (List.replicate 17 0)].all (fun i => !i.wf) = true ∧
    (Instr.burstWrite 0 0 (zeros 8193)).wf = false := by decide +kernel

theorem test_wf_refuses_values :
    [Instr.bandLaunch 0 0 256, .poseLatch 0 0 256, .bandDeadline 0 0 256, .bandFetch 0 0 256, .bandRecordWrite 0 0 256 0, .replayBandLaunch 0 0 256,
      .replayPoseLatch 0 0 256, .csiDtDropped 0 ⟨64, .good⟩, .hpdRise 0 (2 ^ 32), .layerUnderrun 0 ⟨1, 8192⟩, .tsCapture 0 (2 ^ 32),
      .clkRateWrite 0 0 (2 ^ 40), .clkAdj 0 0 (2 ^ 64), .clkSet 0 0 (2 ^ 48) 0, .ptpMeasurement 0 (2 ^ 63), .ptpMeasurement 0 (-(2 ^ 63) - 1),
      .flitNak 0 (2 ^ 32), .install 0 16, .powerOnReset 8].all (fun i => !i.wf) = true := by decide +kernel

theorem test_wf_refuses_packets :
    (let d := zeros 16385
     [Instr.st2110Packet 0 d, .ancPacket 0 d, .ureludPacket 0 d, .adporDatagram 0 ⟨d, false⟩, .bootOffer 0 d, .bootData 0 d, .bootProvision 0 d].all
       (fun i => !i.wf) = true) ∧
    (let f := zeros 255
     [Instr.memWr 0 f, .memRd 0 f, .memRsp 0 f, .memAck 0 f, .halo 0 f, .reduce 0 f, .bcastLaunch 0 f, .bcastLate 0 f, .pose 0 f, .heartbeatReceive 0 f].all
       (fun i => !i.wf) = true) := by decide +kernel

/-- No row of the table has bits. -/
theorem test_decodeTableWord (n w : Nat) : decodeTableWord n w = none := rfl

/-! ### The worked examples of the manual -/

/-- The state after a command. -/
def next (i : Instr) (s : State) : State := match exec i s with
  | .next t => t
  | _ => s

/-- Addressing a spare face's tally (chapter 2): PAGE_ID. -/
theorem test_page_id : ctlBase + 0x4032 * 0x1000 = 0x5004032000 ∧ pageId 0x4032 = 0x42032010 := by decide

/-- Channel 12 of "one message on a bound channel" (chapter 2). -/
def messageRig : State := (up.wr (winzePage 12) 0x150 0x12509).wr (winzePage 12) 0x148 0x0700

/-- One message on a bound channel (chapter 2): GO of length 3, and what ACK then returns. -/
theorem test_winze_message :
    (let t := next (.winzeGo 9 12 3) messageRig
     t.rd (winzePage 12) 0x148 = 0x00030801 ∧ t.rd (winzePage 12) 0x14C = 9) ∧
    (let t := next (.ackRead 0x25 12) (next (.winzeGo 9 12 3) messageRig)
     t.bus.data = 0x00030801 ∧ t.rd (winzePage 12) 0x148 = 0x00030800) := by decide +kernel

/-- Channel of an address (chapter 7). -/
theorem test_dram_channel : dramChan 0x12345678 = 12 := by decide

/-- Encoding one matrix word (chapter 6): the word's fields and its operands. -/
theorem test_matrix_word :
    (let w := 0x0000009000800420000020008D000022
     wOp w = 0x22 ∧ mmaCount w = 36 ∧ mmaA [] w 35 = 0x28C0 ∧ mmaA1 [] w 35 = 0x31C0 ∧ mmaB [] w 35 = 0x11180 ∧
       bit w 24 = true ∧ fieldsOk w = true) := by decide +kernel

/-- Quantise, escape, merge and drain (chapter 5): the histogram cut, the scale and the stored elements. -/
theorem test_quantise :
    f32DivUp 0x3E800000 255 = 0x3A808081 ∧ scaleCode 0x3A808081 0x3E800000 = some 255 ∧ sUsed 0x3A808081 255 = 0x3E800000 := by decide +kernel

/-- A table of chapter 5's default G4 grid. -/
def gridG4 : List (Nat × Int) := gridOf State.reset 0 0x9

/-- The same example: positions 0 to 7 and 40 of the block, the side record, and the merged and drained element. -/
theorem test_quantised_block :
    (let xs := [0x3D4CCCCD, 0xBDCCCCCD, 0x3E75C28F, 0, 0x3DF5C28F, 0x3F800000, 0xBCA3D70A, 0x3D8F5C29] ++ List.replicate 32 0 ++ [0xBF4CCCCD] ++ List.replicate 23 0
     let b := encGrid 0x9 gridG4 0x3E800000 0 0 xs
     b.side = [0x02, 0, 0, 0, 5, 0x7C, 0, 0x28, 0x9D, 0xFF, 0, 0, 0, 0, 0, 0] ∧ b.payload.take 4 = [0xC2, 0x07, 0x85, 0x39]) ∧
    drainValue 0 (86592083, 31, 0) 2001 = 81 := by decide +kernel

/-- Widening and narrowing (chapter 5): the codes of the BI8 and the UG4 block, and the stored elements 127 and 8 (code 6). -/
theorem test_widen_narrow :
    (let q : Qctl := { Qctl.of (zeros 64) with dst := 0xB }
     let r := storedScales q [] 0x3B800000 [128] [[0x3F1EB852, 0x3F0CCCCD]]
     (r.1, r.2.1) = (0x3B800000, [159]) ∧ r.2.2.widen = 1 ∧ (encPlain 0xB (sUsed 0x3B800000 159) [0x3F1EB852, 0x3F0CCCCD]).payload.take 2 = [127, 112]) ∧
    (let q : Qctl := { Qctl.of (zeros 64) with dst := 0xA }
     let g := gridOf State.reset 0 0xA
     let r := storedScales q g 0x3B800000 [200] [List.replicate 40 0x3BC49BA6 ++ List.replicate 24 0x3D4CCCCD]
     (r.1, r.2.1) = (0x3B800000, [13]) ∧ r.2.2.narrow = 1 ∧ gridNearest g (tOf 0xA (sUsed 0x3B800000 13) 0x3BC49BA6) = (6, 8)) := by decide +kernel

/-- Decoding and suppressing one box (chapter 8): candidate A of the example. -/
theorem test_sorter_box :
    (let le (x : Int) := leBytes 2 (toField 16 x)
     let d := zeros 0x2C ++ leBytes 2 8191 ++ leBytes 2 8191 ++ zeros 16
     let a := leBytes 2 0xC000 ++ zeros 6 ++ le 1024 ++ le (-512) ++ le 4096 ++ le (-2048)
     let anchor := le 800 ++ le 480 ++ le 256 ++ le 128
     let b : Box := ⟨0xC000, 0, 17, 640, 419, 1152, 510⟩
     decodeBox d a anchor 5 = some ⟨0xC000, 0, 5, 608, 419, 1120, 510⟩ ∧ suppresses false 0x8000 ⟨0xC000, 0, 5, 608, 419, 1120, 510⟩ b = true) := by
  decide +kernel

/-- Taken references (chapter 9): HG_FRAME_ORIGIN 1000, R_f 2, LAG 1, AD_REF_ORIGIN 64, N 8, D 32. -/
def references : State :=
  (((up.wr cagePage (hgOff 0 + 4) 0x120).wr cagePage (hgOff 0 + 8) 1000).wr cagePage (adOff 0) (7 * 2 ^ 8 + 32 * 2 ^ 16)).wr cagePage (adOff 0 + 4) 64

theorem test_taken_references :
    (List.range 5).map (references.adFrame 0) = [1130, 1146, 1162, 1178, 1194] ∧ [0, 2, 4].map (references.adSwitch 0) = [1162, 1194, 1226] ∧
      references.adPeriod 0 = 2 := by decide +kernel

/-- One 10-bit RGB pgroup (chapter 15): the 32 bits of pixel 0 in C30. -/
theorem test_rgb_pgroup : unpackPixels 10 false [0x80, 0x10, 0x0F, 0xFC] = [0x00, 0x02, 0xF4, 0x3F] := by decide +kernel

/-- A reading at +10 ppm (chapter 16). -/
theorem test_reading :
    ({ State.reset.wr64 timePage 0x140 0x10000A7C6 with time := { State.reset.time with count := 1000000000 } } : State).reading = 1000010000 := by
  decide +kernel

/-- Arming two devices (chapter 11): GCOUNT of 1,700,000,000.5 s. -/
theorem test_gcount :
    (State.reset.setClock 2 { sec := 1700000000, ns := 500000000 }).gcount = 1660156250488281 := by decide +kernel

/-- SHAKE256 of the empty message (FIPS 202), whose permutation the tags of R541 use. -/
theorem test_shake256 : shake256 [] 4 = [0x46, 0xB9, 0xDD, 0x2B] := by decide +kernel

/-- Frame 1,013 with origin 1,000, render origin 0, R_f 4 and LAG 1 (R64): phase 1 of rendered frame 2; frame 1,003 shows nothing. -/
theorem test_frame_map :
    (let s := (up.wr cagePage (hgOff 0 + 4) 0x140).wr cagePage (hgOff 0 + 8) 1000
     s.frameMap 0 1013 = some (2, 1) ∧ s.frameMap 0 1003 = none) := by decide +kernel

end Sys2Proof.Tests
end

section
/-! SUPPORT. Accesses to registers: a transaction on the bus is the access of its page (R26, R28), which register stands at an offset,
and what a write or a read of it does by its access code (R5, R6, R9). -/
namespace Sys2Proof.Machine

/-! ### Bus transactions -/

theorem pageAssigned_lt {p : Nat} (h : pageAssigned p = true) : p < 65536 := by
  unfold pageAssigned at h
  split at h <;> simp_all [pClass] <;> omega

/-- An address in control space consists of the page's index and the offset in the page (R26). -/
theorem regionOf_control {p off : Nat} (hp : p < 65536) (ho : off < 4096) : regionOf (ctlBase + p * 4096 + off) = .control := by
  unfold regionOf ctlBase dramSize galBase galSize fsBase fsSize
  rw [if_neg (by omega), if_neg (by omega), if_neg (by omega), if_pos (by omega)]

theorem control_page (p : Nat) {off : Nat} (ho : off < 4096) : (ctlBase + p * 4096 + off - ctlBase) / 4096 = p := by omega

theorem control_offset (p : Nat) {off : Nat} (ho : off < 4096) : (ctlBase + p * 4096 + off) % 4096 = off := by
  unfold ctlBase; omega

/-- An access that reaches its page names an assigned index (R28). -/
theorem pageAssigned_of_accessErr {s : State} {id p off : Nat} {w : Bool} (h : s.accessErr id p off w = 0) : pageAssigned p = true := by
  cases hp : pageAssigned p with
  | true => rfl
  | false =>
    rw [State.accessErr, if_pos (c := (!pageAssigned p) = true) (by rw [hp]; rfl)] at h
    split at h
    · exact absurd h (by decide)
    · exact absurd h (by decide)

/-- A four-byte write that reaches its page is the write of the register, with a reply of 0. -/
theorem busWrite_register {s : State} {id p off : Nat} (v : Nat) (ho : off < 4096) (h : mayWrite s id p off) :
    busWrite id (ctlBase + p * 4096 + off) 4 v s = regWrite id p off v (s.reply 0) := by
  have hp := pageAssigned_lt (pageAssigned_of_accessErr h)
  simp [busWrite, regionOf_control hp ho, control_page p ho, control_offset p ho, guardW_ok _ h]

/-- A four-byte read that reaches its page is the read of the register. -/
theorem busRead_register {s : State} {id p off : Nat} (ho : off < 4096) (h : mayRead s id p off) :
    busRead id (ctlBase + p * 4096 + off) 4 s = regRead id p off (s.reply 0) := by
  have hp := pageAssigned_lt (pageAssigned_of_accessErr h)
  simp [busRead, regionOf_control hp ho, control_page p ho, control_offset p ho, guardR_ok _ h]

/-! ### Registers of the map -/

theorem regAt_irqStat (p : Nat) : regAt p 0x010 = some ⟨⟨0x010, 1, 4, .w1c, false, fun _ => 0, irqMask p, []⟩, 0, false⟩ := by
  simp [regAt, headerRows, findReg, RegRow.index, RegRow.bytes, ro, rw]

theorem regAt_irqEn (p : Nat) : regAt p 0x014 = some ⟨rw 0x014 0 (irqMask p), 0, false⟩ := by
  simp [regAt, headerRows, findReg, RegRow.index, RegRow.bytes, ro, rw]

theorem regAt_tally (p : Nat) {k : Nat} (hk : k < 4) : regAt p (tallyOff k) = some ⟨ro64 (tallyOff k), 0, false⟩ := by
  have hc : k = 0 ∨ k = 1 ∨ k = 2 ∨ k = 3 := by omega
  rcases hc with rfl | rfl | rfl | rfl <;>
    simp [tallyOff, regAt, headerRows, findReg, RegRow.index, RegRow.bytes, ro, rw, wo, rwl, ro64]

@[simp] theorem pClass_facePage (f : Phys) : pClass (facePage f) = 4 := by unfold pClass facePage; omega

theorem regAt_faceStatistics (f : Phys) {off : Nat} (ho : off = 0x114 ∨ off = 0x118 ∨ off = 0x120) :
    regAt (facePage f) off = some ⟨rc off, 0, false⟩ := by
  rcases ho with rfl | rfl | rfl <;> simp [regAt, blockRows, faceRows, findReg, RegRow.index, RegRow.bytes, ro, rw, rc]

theorem regAt_memErrors {off : Nat} (ho : off = 0x108 ∨ off = 0x10C) : regAt memPage off = some ⟨rc off, 0, false⟩ := by
  rcases ho with rfl | rfl <;> rfl

/-! ### Writes by the access code -/

/-- IRQ_STAT and IRQ_EN have no effect but that of their access codes, and no state of a block discards a write of them. -/
theorem regWrite_irq (id p v : Nat) {off : Nat} (ho : off = 0x010 ∨ off = 0x014) (s : State) :
    regWrite id p off v s = plainWrite p off v s := by
  rcases ho with rfl | rfl <;> rfl

/-- A register without listed fields takes the bits of its mask, where it holds no other (R6). -/
theorem mergeWrite_masked (off reset : Nat) {mask old : Nat} (new : Nat) (ho : old &&& mask = old) :
    mergeWrite (rw off reset mask) old new = new &&& mask := by
  have hk : old &&& (2 ^ 32 - 1 - (mask &&& (2 ^ 32 - 1))) = 0 := by
    refine Nat.eq_of_testBit_eq fun i => ?_
    have hm : mask &&& (2 ^ 32 - 1) < 2 ^ 32 := Nat.lt_of_le_of_lt Nat.and_le_right (by decide)
    have hi := congrArg (Nat.testBit · i) ho
    simp only [Nat.testBit_and] at hi
    rw [Nat.sub_sub, Nat.add_comm 1, Nat.testBit_and, Nat.testBit_two_pow_sub_succ hm, Nat.testBit_and, Nat.testBit_two_pow_sub_one]
    cases h1 : Nat.testBit old i <;> cases h2 : Nat.testBit mask i <;> simp_all
  change new &&& mask ||| old &&& (2 ^ 32 - 1 - (mask &&& (2 ^ 32 - 1))) = new &&& mask
  rw [hk, Nat.or_zero]

/-- A 32-bit register takes the merged value where the value is listed and does not enter the settings message (R5-R7, R355). -/
theorem storeReg_narrow {p off : Nat} (v : Nat) {r : RegAt} {s : State} (hw : r.row.wide = false)
    (hl : s.listedNow p off (mergeWrite r.row (s.rd p off) (v % 2 ^ 32)) = true) (hs : s.inSettings p off = false) :
    storeReg p off v r s = s.wr p off (mergeWrite r.row (s.rd p off) (v % 2 ^ 32)) := by
  simp [-Nat.reducePow, storeReg, hw, hl, State.settled, hs]

theorem listedNow_header (s : State) (p v : Nat) {off : Nat} (ho : off < 0x100) : s.listedNow p off v = true := by
  simp [State.listedNow, State.grantListed, show off < 0x400 by omega]

theorem inSettings_header (s : State) (p : Nat) {off : Nat} (ho : off < 0x100) : s.inSettings p off = false := by
  simp [State.inSettings, show ¬ 0x100 ≤ off by omega, show ¬ 0x108 ≤ off by omega, show ¬ 0x180 ≤ off by omega]

/-- IRQ_EN takes the bits of the causes that the page offers (R6, R35). -/
theorem plainWrite_irqEn (p v : Nat) {s : State} (h : s.rd p 0x014 &&& irqMask p = s.rd p 0x014) :
    plainWrite p 0x014 v s = s.wr p 0x014 (v % 2 ^ 32 &&& irqMask p) := by
  rw [← mergeWrite_masked 0x014 0 (v % 2 ^ 32) h]
  simp only [plainWrite, regAt_irqEn]
  exact storeReg_narrow v rfl (listedNow_header s p _ (by decide)) (inSettings_header s p (by decide))

/-- IRQ_STAT loses the bits written as 1 (R5). -/
theorem plainWrite_irqStat (p v : Nat) (s : State) :
    plainWrite p 0x010 v s = s.wr p 0x010 (s.rd p 0x010 &&& (2 ^ 32 - 1 - v % 2 ^ 32)) := by
  simp [plainWrite, regAt_irqStat]

/-- A register word written after a reply, with a number that fits it: the word holds the number and nothing else changes. -/
theorem reply_wr_spec (s : State) (p off w : Nat) {n : Nat} (hn : n < 2 ^ 32) :
    ((s.reply w).wr p off n).rd p off = n ∧ onlyRegs s ((s.reply w).wr p off n) [regKey p off] := by
  obtain ⟨hk, -⟩ := (s.reply w).wr_frame p off n
  exact ⟨by rw [State.rd_wr_self, Nat.mod_eq_of_lt hn], hk, rfl⟩

/-! ### Reads by the access code -/

/-- A register word of the header other than STAT shows the register file. -/
theorem value_header (s : State) (p : Nat) {off : Nat} (ho : off < 0x050) (h : off ≠ 0x00C) : s.value p off = s.rd p off := by
  simp [State.value, State.shown, h, ho]

/-- No register of the header holds a value that the manual leaves open. -/
theorem openValue_header (s : State) (p : Nat) {off : Nat} (ho : off < 0x100) : s.openValue p off = none := by
  simp [State.openValue, show off ≠ 0x11C by omega, show off ≠ 0x100 by omega]

/-- A read of the header is answered by the access code. -/
theorem regRead_header (id p : Nat) {off : Nat} (ho : off < 0x100) (s : State) : regRead id p off s = plainRead p off s := by
  simp [regRead, show ¬ 0x100 ≤ off by omega, show ¬ 0x140 ≤ off by omega, show off ≠ 0x110 by omega]

/-- A latched word is answered once (R9). -/
theorem plainRead_latched {p off : Nat} {w : Word} {s : State} (h : NMap.find s.latch (regKey p off) = some w) :
    plainRead p off s = { s.reply w.toNat with latch := NMap.del s.latch (regKey p off) } := by
  simp [plainRead, h]

/-- The read of the low word of a tally counter latches the high word (R9). -/
theorem plainRead_tally (p : Nat) {k : Nat} {s : State} (hk : k < 4) (h : NMap.find s.latch (regKey p (tallyOff k)) = none) :
    plainRead p (tallyOff k) s =
      { s.reply (s.rd p (tallyOff k)) with
        latch := NMap.put s.latch (regKey p (tallyOff k + 4)) (BitVec.ofNat 32 (s.rd p (tallyOff k + 4))) } := by
  have ho : tallyOff k + 4 < 0x050 := by unfold tallyOff; omega
  have hs : 0x00C < tallyOff k := by unfold tallyOff; omega
  simp [plainRead, h, openValue_header s p (show tallyOff k < 0x100 by omega), regAt_tally p hk, ro64,
    value_header s p (show tallyOff k < 0x050 by omega) (by omega), value_header s p ho (by omega)]

/-- The read of a register that a read clears and that shows the register file (R5). -/
theorem plainRead_rc {p off : Nat} {s : State} (hl : NMap.find s.latch (regKey p off) = none) (hr : regAt p off = some ⟨rc off, 0, false⟩)
    (ho : s.openValue p off = none) (hv : s.shown p off = none) : plainRead p off s = (s.wr p off 0).reply (s.rd p off) := by
  simp [plainRead, hl, ho, hr, State.value, hv, rc]

/-- The statistics of a face page are read and cleared (R145). -/
theorem regRead_faceStatistics (id : Nat) (f : Phys) {off : Nat} {s : State} (ho : off = 0x114 ∨ off = 0x118 ∨ off = 0x120)
    (hl : NMap.find s.latch (regKey (facePage f) off) = none) :
    regRead id (facePage f) off s = (s.wr (facePage f) off 0).reply (s.rd (facePage f) off) := by
  have hp : facePage f ≠ timePage := by unfold facePage timePage; omega
  have hv : s.shown (facePage f) off = none := by
    rcases ho with rfl | rfl | rfl <;> simp [State.shown, State.faceReg]
  rw [← plainRead_rc hl (regAt_faceStatistics f ho) (by simp [State.openValue]) hv]
  simp [regRead, hp]

/-- The error counts of the memory-side die are read and cleared (R261). -/
theorem regRead_memErrors (id : Nat) {off : Nat} {s : State} (ho : off = 0x108 ∨ off = 0x10C)
    (hl : NMap.find s.latch (regKey memPage off) = none) :
    regRead id memPage off s = (s.wr memPage off 0).reply (s.rd memPage off) := by
  have hv : s.shown memPage off = none := by rcases ho with rfl | rfl <;> rfl
  rw [← plainRead_rc hl (regAt_memErrors ho) rfl hv]
  simp [regRead, memPage, timePage, pClass]

end Sys2Proof.Machine
end

section
/-! SUPPORT. The obligations on plain register accesses. -/
namespace Sys2Proof

open Machine

/-- A register write on the bus completes with what the write of its register leaves. -/
theorem gives_registerWrite {id : Ident} {p off v : Nat} {s : State} {P : State → Prop} (ho : off < 4096) (h : mayWrite s id p off)
    (hP : P (regWrite id p off v (s.reply 0))) : Gives (.registerWrite id (ctlBase + p * 4096 + off) 4 v) s P :=
  ⟨_, rfl, by rwa [busWrite_register v ho h]⟩

/-- A low-word read on the bus completes with what the read of its register leaves. -/
theorem gives_lowWordRead {id : Ident} {p off : Nat} {s : State} {P : State → Prop} (ho : off < 4096) (h : mayRead s id p off)
    (hP : P (regRead id p off (s.reply 0))) : Gives (.lowWordRead id (ctlBase + p * 4096 + off) 4) s P :=
  ⟨_, rfl, by rwa [busRead_register ho h]⟩

/-- An RC read on the bus completes with what the read of its register leaves. -/
theorem gives_rcRead {id : Ident} {p off : Nat} {s : State} {P : State → Prop} (ho : off < 4096) (h : mayRead s id p off)
    (hP : P (regRead id p off (s.reply 0))) : Gives (.rcRead id (ctlBase + p * 4096 + off) 4) s P :=
  ⟨_, rfl, by rwa [busRead_register ho h]⟩

/-- Settles O3: each of the two registers takes the value of its access code, by one write of its word. -/
theorem registerWriteByAccessCode : Obligations.RegisterWriteByAccessCode := by
  unfold Obligations.RegisterWriteByAccessCode
  intro id p v s _
  refine ⟨fun hw hm => ?_, fun hw => ?_⟩
  · have hlt : v % 2 ^ 32 &&& irqMask p < 2 ^ 32 := Nat.lt_of_le_of_lt Nat.and_le_left (Nat.mod_lt _ (by decide))
    obtain ⟨hv, hf⟩ := reply_wr_spec s p 0x014 0 hlt
    refine gives_registerWrite (by decide) hw ?_
    rw [regWrite_irq _ _ _ (.inr rfl), plainWrite_irqEn p v (s := s.reply 0) hm]
    exact ⟨hv, rfl, hf⟩
  · have hlt : s.rd p 0x010 &&& (2 ^ 32 - 1 - v % 2 ^ 32) < 2 ^ 32 := Nat.lt_of_le_of_lt Nat.and_le_left (s.rd_lt _ _)
    obtain ⟨hv, hf⟩ := reply_wr_spec s p 0x010 0 hlt
    refine gives_registerWrite (by decide) hw ?_
    rw [regWrite_irq _ _ _ (.inl rfl), plainWrite_irqStat]
    exact ⟨hv, rfl, hf⟩

/-- Settles O4: the low word's read leaves the latch that the high word's read takes, and a read-to-clear read leaves 0 in its word. -/
theorem readsThatLatchAndClear : Obligations.ReadsThatLatchAndClear := by
  unfold Obligations.ReadsThatLatchAndClear
  refine ⟨fun id p k s _ hk => ?_, fun id f s p off hr hm hl => ?_⟩
  · have ho : tallyOff k + 4 < 0x050 := by unfold tallyOff; omega
    refine ⟨fun hm hl => gives_lowWordRead (by omega) hm ?_, fun w hm hl => gives_lowWordRead (by omega) hm ?_⟩
    · rw [regRead_header _ _ (by omega), plainRead_tally p (s := s.reply 0) hk hl]
      exact ⟨rfl, NMap.find_put_self .., rfl⟩
    · rw [regRead_header _ _ (by omega), plainRead_latched (s := s.reply 0) hl]
      exact ⟨by simp, rfl⟩
  · refine gives_rcRead (by omega) hm ?_
    have e : regRead id p off (s.reply 0) = ((s.reply 0).wr p off 0).reply (s.rd p off) := by
      rcases hr with ⟨rfl, ho⟩ | ⟨rfl, ho⟩
      · exact regRead_faceStatistics id f ho hl
      · exact regRead_memErrors id ho hl
    obtain ⟨hv, hk, -⟩ := reply_wr_spec s p off 0 (n := 0) (by decide)
    rw [e]
    exact ⟨rfl, hv, hk, rfl⟩

end Sys2Proof
end

section
/-! SUPPORT. Suppression of candidates (R286): what a kept box does to a candidate, and the candidates taken in turn. -/
namespace Sys2Proof.Machine

/-! ### Overlap and areas -/

/-- The area of a box, as a number with a sign. -/
def Box.area (b : Box) : Int := ((b.x1 : Int) - b.x0) * ((b.y1 : Int) - b.y0)

/-- The area that two boxes have in common, as a number with a sign. -/
def Box.inter (k c : Box) : Int :=
  max 0 (min (k.x1 : Int) c.x1 - max (k.x0 : Int) c.x0) * max 0 (min (k.y1 : Int) c.y1 - max (k.y0 : Int) c.y0)

theorem overlap_cast (a0 a1 b0 b1 : Nat) : (overlap a0 a1 b0 b1 : Int) = max 0 (min (a1 : Int) b1 - max (a0 : Int) b0) := by
  unfold overlap; omega

theorem overlap_le_left (a0 a1 b0 b1 : Nat) : overlap a0 a1 b0 b1 ≤ a1 - a0 := by
  unfold overlap; omega

/-- For boxes whose corners are in order, the test of R286 is the one over numbers with a sign: no subtraction of it is cut off at 0. -/
theorem suppresses_iff {agnostic : Bool} {t : Nat} {k c : Box} (hk : k.x0 ≤ k.x1 ∧ k.y0 ≤ k.y1) (hc : c.x0 ≤ c.x1 ∧ c.y0 ≤ c.y1) :
    suppresses agnostic t k c = true ↔
      (agnostic = true ∨ k.cls = c.cls) ∧ k.inter c * 65536 > t * (k.area + c.area - k.inter c) := by
  have area_cast : ∀ b : Box, b.x0 ≤ b.x1 ∧ b.y0 ≤ b.y1 → b.area = (((b.x1 - b.x0) * (b.y1 - b.y0) : Nat) : Int) := fun b hb => by
    rw [Box.area, Int.natCast_mul, Int.ofNat_sub hb.1, Int.ofNat_sub hb.2]
  have inter_cast : k.inter c = ((overlap k.x0 k.x1 c.x0 c.x1 * overlap k.y0 k.y1 c.y0 c.y1 : Nat) : Int) := by
    rw [Int.natCast_mul, overlap_cast, overlap_cast, Box.inter]
  have inter_le := Nat.mul_le_mul (overlap_le_left k.x0 k.x1 c.x0 c.x1) (overlap_le_left k.y0 k.y1 c.y0 c.y1)
  rw [area_cast k hk, area_cast c hc, inter_cast, ← Int.natCast_add, ← Int.ofNat_sub (Nat.le_trans inter_le (Nat.le_add_right _ _))]
  generalize hi : overlap k.x0 k.x1 c.x0 c.x1 * overlap k.y0 k.y1 c.y0 c.y1 = i
  have natural : ∀ u : Nat, (i : Int) * 65536 > t * u ↔ t * u < i * 65536 := fun u => by
    rw [gt_iff_lt, ← Int.natCast_mul, show (65536 : Int) = (65536 : Nat) from rfl, ← Int.natCast_mul, Int.ofNat_lt]
  rw [natural, ← hi]
  simp only [suppresses, Bool.and_eq_true, Bool.or_eq_true, beq_iff_eq, decide_eq_true_eq]

/-! ### The candidates taken in turn -/

section
variable {agnostic : Bool} {t m : Nat} {kept : List Box} {n : Nat}

theorem suppressAll_full (cs : List Box) (h : m ≤ kept.length) : suppressAll agnostic t m cs kept n = (kept, n) := by
  cases cs with
  | nil => rfl
  | cons c cs => simp [suppressAll, h]

/-- Candidates behind others meet the boxes and the count that those leave. -/
theorem suppressAll_append (xs ys : List Box) :
    suppressAll agnostic t m (xs ++ ys) kept n =
      suppressAll agnostic t m ys (suppressAll agnostic t m xs kept n).1 (suppressAll agnostic t m xs kept n).2 := by
  induction xs generalizing kept n with
  | nil => rfl
  | cons x xs ih =>
    by_cases hm : m ≤ kept.length
    · rw [suppressAll_full _ hm, suppressAll_full _ hm, suppressAll_full _ hm]
    · simp only [List.cons_append, suppressAll, hm, if_false]
      split
      · exact ih
      · exact ih

theorem suppressAll_length_le (cs : List Box) (h : kept.length ≤ m) : (suppressAll agnostic t m cs kept n).1.length ≤ m := by
  induction cs generalizing kept n with
  | nil => exact h
  | cons c cs ih =>
    unfold suppressAll
    split
    · exact h
    · split
      · exact ih h
      · exact ih (by simp; omega)

theorem mem_of_mem_suppressAll {cs : List Box} {b : Box} (h : b ∈ (suppressAll agnostic t m cs kept n).1) : b ∈ kept ∨ b ∈ cs := by
  induction cs generalizing kept n with
  | nil => exact .inl h
  | cons c cs ih =>
    unfold suppressAll at h
    split at h
    · exact .inl h
    · split at h
      · exact (ih h).imp_right (List.mem_cons_of_mem c)
      · simpa [or_assoc] using ih h

end

end Sys2Proof.Machine
end

section
/-! SUPPORT. The obligation on suppression. -/
namespace Sys2Proof

open Machine

/-- Settles O35: the last candidate meets what those before it leave, and the boxes kept are among them. -/
theorem suppressionTakesCandidatesInOrder : Obligations.SuppressionTakesCandidatesInOrder := by
  unfold Obligations.SuppressionTakesCandidatesInOrder
  intro agnostic t m cs c hcs r q area inter union hit
  have hq : q = suppressAll agnostic t m [c] r.1 r.2 := suppressAll_append cs [c]
  have hhit : ∀ k ∈ r.1, (suppresses agnostic t k c = true ↔ hit k) := fun k hk =>
    suppresses_iff (hcs k ((mem_of_mem_suppressAll hk).elim nofun (List.mem_cons_of_mem c))) (hcs c List.mem_cons_self)
  rw [hq]
  refine ⟨suppressAll_length_le cs (Nat.zero_le m), fun h => suppressAll_full _ (Nat.le_of_eq h.symm), fun h ⟨k, hk, hkc⟩ => ?_, fun h hno => ?_⟩
  · have hany : (r.1.any fun k => suppresses agnostic t k c) = true := List.any_eq_true.2 ⟨k, hk, (hhit k hk).2 hkc⟩
    simp [suppressAll, Nat.not_le.2 h, hany]
  · have hany : (r.1.any fun k => suppresses agnostic t k c) = false :=
      List.any_eq_false.2 fun k hk hs => hno k hk ((hhit k hk).1 hs)
    simp [suppressAll, Nat.not_le.2 h, hany]

end Sys2Proof
end

section
/-! SUPPORT. The sorter of a die and what its jobs touch (R281, R287): fields read after a write, gallery flags set and cleared, and the
rules of the four commands. -/
namespace Sys2Proof.Machine

/-! ### Fields and flags read after a write -/

/-- Bits of a number replaced read as what was put in. -/
theorem fld_setFld_self (v x : Nat) {hi lo : Nat} (h : lo ≤ hi + 1) : fld (setFld v hi lo x) hi lo = x % 2 ^ (hi + 1 - lo) := by
  have hp : 2 ^ (hi + 1) = 2 ^ lo * 2 ^ (hi + 1 - lo) := by rw [← Nat.pow_add, Nat.add_sub_cancel' h]
  have hs : setFld v hi lo x = v % 2 ^ lo + 2 ^ lo * (x % 2 ^ (hi + 1 - lo) + 2 ^ (hi + 1 - lo) * (v / 2 ^ (hi + 1))) := by
    rw [setFld, hp, Nat.mul_add, ← Nat.mul_assoc (2 ^ lo), Nat.mul_comm (v / _), Nat.mul_comm (x % _), Nat.add_comm _ (v % _),
      Nat.add_comm (_ * _)]
  rw [fld, hs, Nat.add_mul_div_left _ _ (Nat.two_pow_pos lo), Nat.div_eq_of_lt (Nat.mod_lt _ (Nat.two_pow_pos lo)), Nat.zero_add,
    Nat.add_mul_mod_self_left, Nat.mod_mod]

/-- The bits of a field that a register word of 32 bits has. -/
theorem fld_mod_word (v : Nat) {hi lo : Nat} (h : hi < 32) (hl : lo ≤ hi + 1) : fld (v % 2 ^ 32) hi lo = fld v hi lo := by
  have hp : 2 ^ 32 = 2 ^ lo * (2 ^ (hi + 1 - lo) * 2 ^ (31 - hi)) := by rw [← Nat.pow_add, ← Nat.pow_add]; congr 1; omega
  rw [fld, fld, hp, Nat.mod_mul_right_div_self, Nat.mod_mul_right_mod]

theorem bit_eq_fld (v b : Nat) : bit v b = (fld v b b == 1) := by simp [bit, fld]

/-- A field written to a register word reads as written. -/
theorem State.rf_wf_self (s : State) (p off v : Nat) {hi lo : Nat} (h : hi < 32) (hl : lo ≤ hi + 1) :
    (s.wf p off hi lo v).rf p off hi lo = v % 2 ^ (hi + 1 - lo) := by
  rw [State.rf, State.wf, State.rd_wr_self, fld_mod_word _ h hl, fld_setFld_self _ _ hl]

/-- A cause raised reads 1 in IRQ_STAT (R35). -/
theorem State.rb_irq_self (s : State) (p : Nat) {b : Nat} (h : b < 32) : (s.irq p b).rb p 0x010 b = true := by
  have hf : (s.irq p b).rf p 0x010 b b = 1 % 2 ^ (b + 1 - b) := State.rf_wf_self s p 0x010 1 h (Nat.le_succ b)
  rw [State.rb, bit_eq_fld, ← State.rf, hf, Nat.add_sub_cancel_left]; rfl

theorem NSet.has_add_self (m : List Nat) (k : Nat) : NSet.has (NSet.add m k) k = true := by
  induction m with
  | nil => simp [NSet.has, NSet.add]
  | cons j m ih =>
    simp only [NSet.has, NSet.add] at ih ⊢
    split
    · simp
    · split
      · simp [*]
      · rw [List.contains_cons, ih, Bool.or_true]

theorem NSet.has_del_self (m : List Nat) (k : Nat) : NSet.has (NSet.del m k) k = false := by
  simp [NSet.has, NSet.del]

/-- A gallery flag reads as it was left. -/
@[simp] theorem State.gflag_setG_self (s : State) (d i : Nat) (v : Bool) : (s.setG d i v).gflag d i = v := by
  cases v
  · exact NSet.has_del_self _ _
  · exact NSet.has_add_self _ _

@[simp] theorem State.rd_setG (s : State) (d i : Nat) (v : Bool) (p o : Nat) : (s.setG d i v).rd p o = s.rd p o := rfl
@[simp] theorem State.rd_setSorter (s : State) (c : Nat) (x : Sorter) (p o : Nat) : (s.setSorter c x).rd p o = s.rd p o := rfl

@[simp] theorem State.gflag_setSorter (s : State) (c : Nat) (x : Sorter) (d i : Nat) : (s.setSorter c x).gflag d i = s.gflag d i := rfl

/-- The sorter of a die reads as it was left. -/
@[simp] theorem State.sorter_setSorter_self (s : State) (c : Nat) (x : Sorter) : (s.setSorter c x).sorter c = x :=
  NMap.get_put_self ..

/-- Words of a page below its tally counters or behind them are none of the counters (R34). -/
theorem regKey_notMem_tallyKeys (p : Nat) {o : Nat} (ho : o < 0x30 ∨ 0x50 ≤ o) (h : o < 4096) : regKey p o ∉ tallyKeys p := by
  simp only [tallyKeys, List.mem_map, List.mem_range, not_exists, not_and]
  intro k hk
  unfold regKey; omega

/-! ### A write of SORT_JOB and of SORT_FLUSH (R281) -/

/-- A bus error met behind a reply is the bus error of the access: the reply is replaced (R32). -/
theorem busEnded_of_reply {s t : State} {v id p c : Nat} (h : busEnded (s.reply v) t id p c) : busEnded s t id p c := by
  obtain ⟨hbus, hregs, hrest, hsump⟩ := h
  exact ⟨hbus, hregs, congrArg (fun u : State => { u with bus := s.bus }) hrest, hsump⟩

/-- Bits [39:6] of an address name its line of 64 bytes. -/
theorem line_of_address (a : Nat) : fld a 39 6 * 64 = a % 2 ^ 40 / 64 * 64 := by
  unfold fld; omega

theorem actSortJob_room (id a : Nat) {c : Nat} {s : State} (h : (s.sorter c).queue.length < 8) :
    actSortJob id c a s = s.setSorter c { s.sorter c with queue := (s.sorter c).queue ++ [a % 2 ^ 40 / 64 * 64] } := by
  simp [actSortJob, Nat.not_le.2 h, line_of_address]

theorem actSortJob_full (id a : Nat) {c : Nat} {s : State} (h : 8 ≤ (s.sorter c).queue.length) :
    actSortJob id c a s = s.busErr id (sorterPage c) 4 := by
  simp [actSortJob, h]

theorem actSortFlush_one (c : Nat) (s : State) : actSortFlush c 1 s = s.setSorter c { s.sorter c with queue := [] } := rfl

/-! ### The start and the end of a job (R281, R287, R288) -/

/-- A job whose flag is set and whose descriptor passes takes the sorter and clears the flag. -/
theorem sortStart_starts {c a : Nat} {q : List Nat} {s : State} (hj : (s.sorter c).job = none) (hq : (s.sorter c).queue = a :: q)
    (hz : s.quiet (sorterPage c) = false) (hf : s.gflag (sortFlag (s.ldBytes a 64) 0).1 (sortFlag (s.ldBytes a 64) 0).2 = true)
    (hm : rangeInMemory a 64 = true) (hu : s.ueIn a 64 = none) (hd : sortDescOk (s.ldBytes a 64) = true)
    (ha : s.sortAllow (s.ldBytes a 64) 1 a 64 = true) :
    sortStart c s = (s.setG (sortFlag (s.ldBytes a 64) 0).1 (sortFlag (s.ldBytes a 64) 0).2 false).setSorter c
      { queue := q, job := some { desc := s.ldBytes a 64 } } := by
  simp [sortStart, hj, hq, hz, hf, hm, hu, hd, ha]

theorem regsOnly_sorters {s t : State} (h : regsOnly s t) : t.sorters = s.sorters := by
  have := congrArg State.sorters h; exact this

/-- The bytes of a job's output: the header and the boxes kept (R287). -/
def SortResult.bytes (r : SortResult) : List Byte :=
  sortHeader r.kept.length 0 r.passed r.dropped r.overflow r.suppressed ++ r.kept.flatMap Box.bytes

/-- With no error in memory the output of a job is written as it is. -/
theorem sortWrite_clean (c : Nat) (d : List Byte) (r : SortResult) {s : State} (h : noErrors s) :
    sortWrite c d r s =
      (({ s with mem := Memory.writeBytes s.mem (sortAddr d 0x18) r.bytes }.tallyN (sorterPage c) 0x4E r.suppressed).tallyN
        (sorterPage c) 0x4F r.overflow) := by
  rw [sortWrite, storeBytes_clean _ _ _ _ _ h]; rfl

/-- With no error in memory the output of a job changes its bytes, and the tally counters of the sorter's page. -/
theorem sortWrite_spec (c : Nat) (d : List Byte) (r : SortResult) {s : State} (h : noErrors s) :
    (sortWrite c d r s).mem = Memory.writeBytes s.mem (sortAddr d 0x18) r.bytes ∧ (sortWrite c d r s).sorters = s.sorters ∧
      regsKept s (sortWrite c d r s) (tallyKeys (sorterPage c)) := by
  have ht := sortWrite_clean c d r h
  generalize hs : ({ s with mem := Memory.writeBytes s.mem (sortAddr d 0x18) r.bytes } : State) = w at ht
  have ho : regsOnly w (sortWrite c d r s) := ht ▸ regsOnly_trans (regsOnly_tallyN ..) (regsOnly_tallyN ..)
  refine ⟨?_, ?_, fun p o hk => ?_⟩
  · rw [regsOnly_mem ho, ← hs]
  · rw [regsOnly_sorters ho, ← hs]
  · rw [ht, State.rd_tallyN _ _ _ _ _ _ hk, State.rd_tallyN _ _ _ _ _ _ hk, ← hs]; rfl

/-- A job that met no error writes its output, frees the sorter, sets DONE, reports status 0 and counts. -/
theorem sortEnd_completes {c : Nat} {j : SortJob} {s : State} (hj : (s.sorter c).job = some j) (h0 : j.status = 0)
    (hb : s.sortBlock j.desc (s.sortRun j.desc).kept.length = none) :
    let w := sortWrite c j.desc (s.sortRun j.desc) s
    let done := sortFlag j.desc 16
    sortEnd c s = (((((w.setSorter c { w.sorter c with job := none }).setG done.1 done.2 true).wf (sorterPage c) 0x108 15 8 0).incWrap
      (sorterPage c) 0x10C).irq (sorterPage c) 8) := by
  simp [sortEnd, hj, h0, hb]

/-- STATUS written, a count advanced and a cause raised on one page read so together (R281, R287). -/
theorem sortReport_reads (u : State) (p e : Nat) {b : Nat} (hb : b < 32) :
    let t := ((u.wf p 0x108 15 8 e).incWrap p 0x10C).irq p b
    t.rf p 0x108 15 8 = e % 256 ∧ t.rd p 0x10C = (u.rd p 0x10C + 1) % 2 ^ 32 ∧ t.rb p 0x010 b = true := by
  intro t
  have hother : ∀ o, o = 0x108 ∨ o = 0x10C → regKey p o ≠ regKey p 0x010 := by unfold regKey; omega
  refine ⟨?_, ?_, State.rb_irq_self _ p hb⟩
  · have hr : t.rd p 0x108 = (u.wf p 0x108 15 8 e).rd p 0x108 :=
      (State.rd_wr_ne _ _ _ _ _ _ (hother _ (.inl rfl))).trans (State.rd_wr_ne _ _ _ _ _ _ (by unfold regKey; omega))
    rw [State.rf, hr]
    exact State.rf_wf_self u p 0x108 e (by decide) (by decide)
  · have hr : (u.wf p 0x108 15 8 e).rd p 0x10C = u.rd p 0x10C := State.rd_wr_ne _ _ _ _ _ _ (by unfold regKey; omega)
    calc t.rd p 0x10C = ((u.wf p 0x108 15 8 e).incWrap p 0x10C).rd p 0x10C := State.rd_wr_ne _ _ _ _ _ _ (hother _ (.inr rfl))
      _ = ((u.wf p 0x108 15 8 e).rd p 0x10C + 1) % 2 ^ 32 % 2 ^ 32 := State.rd_wr_self ..
      _ = (u.rd p 0x10C + 1) % 2 ^ 32 := by rw [Nat.mod_mod, hr]

/-- What the end of a job that met no error leaves (R281, R287). -/
theorem sortEnd_spec {c : Nat} {j : SortJob} {s : State} (hj : (s.sorter c).job = some j) (h0 : j.status = 0) (he : noErrors s)
    (hb : s.sortBlock j.desc (s.sortRun j.desc).kept.length = none) :
    let t := sortEnd c s
    let p := sorterPage c
    t.sorter c = { s.sorter c with job := none } ∧
      t.mem = Memory.writeBytes s.mem (sortAddr j.desc 0x18) (s.sortRun j.desc).bytes ∧
      t.gflag (sortFlag j.desc 16).1 (sortFlag j.desc 16).2 = true ∧ t.rf p 0x108 15 8 = 0 ∧
      t.rd p 0x10C = (s.rd p 0x10C + 1) % 2 ^ 32 ∧ t.rb p 0x010 8 = true := by
  obtain ⟨hmem, hsorters, hregs⟩ := sortWrite_spec c j.desc (s.sortRun j.desc) he
  intro t p
  have ht : t = _ := sortEnd_completes hj h0 hb
  generalize sortWrite c j.desc (s.sortRun j.desc) s = w at *
  generalize hu : (w.setSorter c { w.sorter c with job := none }).setG (sortFlag j.desc 16).1 (sortFlag j.desc 16).2 true = u at ht
  have hsorter : w.sorter c = s.sorter c := by simp only [State.sorter, hsorters]
  have hcount : u.rd p 0x10C = s.rd p 0x10C := by
    rw [← hu, State.rd_setG, State.rd_setSorter]; exact hregs p 0x10C (regKey_notMem_tallyKeys p (by omega) (by omega))
  rw [ht, ← hcount]
  refine ⟨?_, ?_, ?_, sortReport_reads u p 0 (by decide)⟩
  · rw [← hsorter]
    exact (congrArg (State.sorter · c) hu).symm.trans (State.sorter_setSorter_self ..)
  · rw [← hmem, State.irq_mem, State.incWrap_mem, State.wf_mem, ← hu, State.setG_mem, State.setSorter_mem]
  · exact (congrArg (State.gflag · _ _) hu).symm.trans (State.gflag_setG_self ..)

end Sys2Proof.Machine
end

section
/-! SUPPORT. The obligation on the jobs of the sorters. -/
namespace Sys2Proof

open Machine

/-- Settles O34, by one rule per command: a job queued or refused as FULL, the queue emptied, the first job started, and the end of a job
that met no error, whose output in a memory without errors is read back as written. -/
theorem sorterJobs : Obligations.SorterJobs := by
  unfold Obligations.SorterJobs
  intro id die addr s p
  refine ⟨fun hw => ⟨fun hq => ⟨_, rfl, ?_⟩, fun hq => ⟨_, rfl, ?_⟩⟩, fun hw => ⟨_, rfl, ?_⟩,
    fun a q hj hq hz => ?_, fun j hj h0 he hg => ?_⟩
  · rw [guardW_ok _ hw, actSortJob_room _ _ (s := s.reply 0) hq]
    exact ⟨State.sorter_setSorter_self .., rfl⟩
  · rw [guardW_ok _ hw, actSortJob_full _ _ (s := s.reply 0) hq]
    exact busEnded_of_reply (State.busErr_spec _ _ _ _ (pageAssigned_of_accessErr hw))
  · rw [guardW_ok _ hw, actSortFlush_one]
    exact ⟨State.sorter_setSorter_self .., rfl⟩
  · intro d hf hm hu hd ha
    refine ⟨_, rfl, ?_⟩
    rw [sortStart_starts hj hq hz hf hm hu hd ha]
    exact ⟨State.sorter_setSorter_self .., (State.gflag_setSorter ..).trans (State.gflag_setG_self ..), rfl⟩
  · intro r a bytes hb
    refine ⟨_, rfl, ?_⟩
    obtain ⟨hsorter, hmem, hreport⟩ := sortEnd_spec hj h0 he hb
    refine ⟨by rw [hsorter], by rw [hsorter], ?_, fun x hx => ?_, hreport⟩
    · rw [State.ldBytes, hmem]
      exact Memory.readBytes_writeBytes _ a bytes hg
    · rw [hmem]
      exact Memory.read_writeBytes_out _ a bytes x hx

end Sys2Proof
end
